-- ==== Sys2Proof/Word.lean ====
section
/-! DEFINITION. The word types of the LKT8-M288 model and the plain-data shapes its state is built from. -/

namespace Sys2Proof

/-- A byte of module memory, of a packet or of a record (R8). -/
abbrev Byte := BitVec 8
/-- A 16-bit field: a port number, a sequence number, a condition code. -/
abbrev Word16 := BitVec 16
/-- A 32-bit word: an accumulator word, a tile element, a semaphore. -/
abbrev Word32 := BitVec 32
/-- A 64-bit word: a prep-core store, an instruction word of a vector program. -/
abbrev Word64 := BitVec 64
/-- An IPv6 or IPv4-mapped IPv6 address (R37). -/
abbrev IpAddr := BitVec 128
/-- A finite map held as plain data: keys strictly rising. -/
abbrev KMap (α : Type) := List (Nat × α)
/-- Addressed bytes as plain data: addresses strictly rising, no byte equal to what an unlisted address reads as. -/
abbrev Mem := List (Nat × BitVec 8)
/-- A set of numbers as plain data: members strictly rising. -/
abbrev NSet := List Nat

/-- An exact rational number as plain data; `den` is positive. -/
structure Frac where
  num : Int
  den : Nat
  deriving DecidableEq, Repr

end Sys2Proof
end

