-- ==== Sys2Proof/Syntax.lean ====
section
/-! DEFINITION. The commands of the block: one constructor of Instr for each row of spec/opcode_table.json, with its operands. -/

namespace Sys2Proof

/-- An IP packet as a port hands it to the ingress engine's classifier (R589, R590, R595). -/
inductive RxPacket where
  /-- A UDP datagram: source address and port, destination port, outcome of the checksum test of R595, payload. -/
  | udp (srcAddr : IpAddr) (srcPort dstPort : Word16) (csumOk : Bool) (payload : List Byte)
  /-- A transport other than UDP (R2, R589). -/
  | otherTransport
  /-- An IPv4 fragment, an IPv6 Fragment header or another IPv6 extension header (R589). -/
  | fragmentOrExtension
  /-- An IP multicast packet that is no PTP message (R589). -/
  | multicast
  /-- A frame whose VLAN tag does not match the port's VLAN ID (R587). -/
  | vlanMismatch
  deriving DecidableEq, Repr

/-- Why the MAC drops a frame (R586). -/
inductive FrameFault where
  | tooLong | badFcs | uncorrectableFec
  deriving DecidableEq, Repr

/-- A checkpoint entry of a cost table (R61): remaining critical path and engine-cycles of both variants, and the
cost of the optional work that it governs. -/
structure CkptEntry where
  stage      : Nat
  remPath    : Nat
  remCycles  : Nat
  fbPath     : Nat
  fbCycles   : Nat
  optCost    : Option Nat
  /-- A safeguarded layer stands immediately before the checkpoint (R165). -/
  safeguarded : Bool
  /-- Optional work follows the checkpoint before the next one (R711). -/
  optFollows : Bool
  /-- Primary and wider output format codes of the safeguarded layer (R167); `none` where it has no wider form. -/
  wider      : Option (Nat × Nat)
  deriving DecidableEq, Repr

/-- A cost table of a model package (R61). -/
structure CostTable where
  /-- Chunk period, encoded as PERIOD of R37. -/
  period   : Nat
  fallback : Bool
  /-- E[c]: engine-cycles per chunk on each core role. -/
  e  : List Nat
  /-- P: critical path in ns. -/
  p  : Nat
  /-- Q[s]: longest round of each stage in ns. -/
  q  : List Nat
  /-- O[s]: bore occupancy of one round of each stage in bytes. -/
  o  : List Nat
  m  : Nat
  xb : Nat
  hb : Nat
  lb1 : Nat
  lb2 : Nat
  s  : Nat
  k  : Nat
  y  : Nat
  ckpts : List CkptEntry
  deriving DecidableEq, Repr

/-- Round sizes of one stage (R434). -/
structure StageInfo where
  minRound : Nat
  maxRound : Nat
  deriving DecidableEq, Repr

/-- The table of scale slots of one core that a package declares (R152). -/
structure SlotTable where
  core  : Nat
  base  : Nat
  count : Nat
  deriving DecidableEq, Repr

/-- A tensor that a package marks as watched (R163): its identifier and subindex of 0x5020, and where its tile records
stand, as the commands of a stage and variant name their conversion block (log entry 105). -/
structure WatchedTensor where
  tensor   : Nat
  subindex : Nat
  stage    : Nat
  fallback : Bool
  core     : Nat
  vecHandle : Nat
  vecOffset : Nat
  deriving DecidableEq, Repr

/-- What firmware and Ligature read of a model package: its manifest fields (R651) and control section. The control
section's byte layout stands nowhere in the spec, so the package comes as a record. -/
structure Package where
  tenant     : Nat
  modelId    : Nat
  version    : Nat
  minSf      : Nat
  stages     : List StageInfo
  hasFallback : Bool
  /-- The fallback declares the primary's committed-state layout (R75). -/
  layoutDeclared : Bool
  tables     : List CostTable
  /-- Timestamp units of one frame, for feature and tensor framing (R606). -/
  frameStep  : Nat
  dim        : Nat
  fmt        : Nat
  /-- Result framing: `none` for RTP audio (R599), otherwise KIND of R605 (2, 3 or 4). -/
  outKind    : Option Nat
  /-- Spill share in sixteenths and walk bound in ns (R420); `none` where the package permits no spill. -/
  spill      : Option (Nat × Nat)
  /-- Scale links the package uses (R627). -/
  links      : List Nat
  slotTables : List SlotTable
  /-- Tensors whose totals firmware publishes (R163). -/
  watched    : List WatchedTensor
  /-- Descriptors that firmware, or the hub, issues for the partial flush of staged pages at a swap-out, one for each staged page
  (R406, R704). -/
  flush      : List (BitVec 512)
  /-- PROG_ID of the package's flush program (R405, R425). -/
  flushProg  : Option Nat
  /-- Byte offset and length of the control section in the model slot's allocation, as the manifest bounds it (R631, R651). -/
  control    : Nat × Nat
  /-- The package carries an adapter-training program (R455). -/
  training   : Bool
  /-- Bytes of an adapter-training job in the wide state format (R178). -/
  wideBytes  : Nat
  /-- SHA-512 of the manifest, as a number (R656). -/
  manifestHash : Nat
  deriving DecidableEq, Repr

/-- What firmware writes into the RW fields of a context image when it creates or recreates a context (R436). -/
structure CtxInit where
  ctxId      : Nat
  core       : Nat
  cls        : Nat
  pin        : Bool
  prep       : Nat
  tenant     : Nat
  queueBase  : Nat
  queueLog2  : Nat
  cringLog2  : Nat
  cringBase  : Nat
  semsetBase : Nat
  semsetCount : Nat
  inboxBase  : Nat
  /-- Stage and variant whose rounds the context serves (R434); meaningless for a system context. -/
  stage      : Nat
  fallback   : Bool
  deriving DecidableEq, Repr

/-- Choices the service firmware makes when it places an admitted stream: the spec fixes none of these values. -/
structure OpenChoice where
  ssrcOut   : Word32
  stateAddr : Nat
  shadowAddr : Nat
  ringAddr  : Nat
  deriving DecidableEq, Repr

/-- Choices of firmware at partition creation (R430): extents on each die, system contexts, prep cores by core,
semaphore ranges by core, release ring and link ring. -/
structure PartChoice where
  extents  : List (Nat × Nat)
  sysCtxs  : List CtxInit
  preps    : List (Nat × Nat)
  semRange : List (Nat × Nat × Nat)
  releaseRing : Nat
  linkRing : Nat
  deriving DecidableEq, Repr

/-- Choices of firmware and outcomes of Ligature's checks at model.load (R654). -/
structure LoadChoice where
  pkg       : Package
  /-- Outcome of test 2: the manifest's signature verifies under the tenant's package key. -/
  sigOk     : Bool
  /-- Outcome of test 4: every segment's tag and hash match. -/
  segsOk    : Bool
  /-- Contexts created under R434. -/
  ctxs      : List CtxInit
  deriving DecidableEq, Repr

/-- A segment that a write completes: its number, the outcome of its tag and hash, and its plaintext with the place in the
slot's allocation that firmware gave it (R653). -/
structure SegmentDone where
  index : Nat
  ok    : Bool
  addr  : Nat
  plain : List Byte
  deriving DecidableEq, Repr

/-- What Ligature finds of an image (R642): the parts of the test that cryptography decides. -/
structure ImageCheck where
  rootOk : Bool
  sigOk  : Bool
  hashOk : Bool
  deriving DecidableEq, Repr

/-- Units of a core that a Drone slice watches (R501). -/
inductive DroneUnit where
  | me (e : Fin 16) | ve (e : Fin 16) | bell (e : Fin 16) | channel (n : Fin 64) | prep (n : Fin 4) | router | arbiter
  deriving DecidableEq, Repr

/-- A matrix engine of a core, with its Bell and its vector engine. -/
structure EngineId where
  core   : Fin 8
  engine : Fin 16
  deriving DecidableEq, Repr

/-- A stream channel of a core. -/
structure ChannelId where
  core : Fin 8
  chan : Fin 64
  deriving DecidableEq, Repr

/-- A unit of one of the four cores of a die. -/
structure DieUnit where
  die  : Fin 2
  core : Fin 4
  unit : DroneUnit
  deriving DecidableEq, Repr

/-- Parts of a crash-dump sample (R518, R520). -/
inductive DumpPart where
  | bank (b : Fin 32) | handleTable | queuePointers | progress
  deriving DecidableEq, Repr

/-- A compute reset domain (R510). -/
inductive ResetDom where
  | core (c : Fin 8) | die (d : Fin 2)
  deriving DecidableEq, Repr

/-- A PTP event or general message as the port decodes it (R608). -/
inductive PtpMsg where
  /-- Announce: the transmitter's identity and its dataset as one number, smaller is better. -/
  | announce (ident : Word64) (domain : Nat) (rank : Nat) (intervalNs : Nat)
  /-- One-step Sync: the transmitter's timestamp. -/
  | sync (ident : Word64) (domain : Nat) (originNs : Nat)
  /-- Two-step Sync, completed by a Follow_Up. -/
  | syncTwoStep (ident : Word64) (domain : Nat) (seq : Nat)
  | followUp (ident : Word64) (domain : Nat) (seq : Nat) (originNs : Nat)
  | delayResp (ident : Word64) (domain : Nat) (receivedNs : Nat)
  deriving DecidableEq, Repr

/-- Transport of a PTP message (0x9020 ptp.config). -/
inductive PtpTransport where
  | udp4 | udp6 | ethernet
  deriving DecidableEq, Repr

/-- What an ECC check finds on a read (R329, R466). -/
inductive EccResult where
  | clean | corrected | uncorrectable
  deriving DecidableEq, Repr

/-- Agents that Ligature grants memory to (R631). -/
inductive HubAgent where
  /-- The hub's ingress, egress and link engines. -/
  | engines
  | serviceCores
  | packageEngine
  deriving DecidableEq, Repr

/-- The identity that an HBM request carries (R464). -/
inductive HbmId where
  | partition (p : Fin 8)
  /-- The module, for the hub and service cores acting under a grant. -/
  | module (agent : HubAgent)
  deriving DecidableEq, Repr

/-- The operation of an HBM request. -/
inductive HbmOp where
  | read (len : Nat)
  | write (bytes : List Byte) (poison : Bool)
  deriving DecidableEq, Repr

/-- Which pool a waiting request belongs to (R375, R376). -/
inductive PoolSel where
  /-- A channel of the hub packet pool, numbered as `PoolChan`. -/
  | hub (chan : Fin 14)
  /-- A pool ring of a core, with the stream channel that waits for it. -/
  | core (c : Fin 8) (chan : Fin 64)
  deriving DecidableEq, Repr

/-- One pin-level reading of every sensor (R681), and the input (R660). -/
structure SensorReading where
  inputMv : Nat
  inputMa : Nat
  /-- m°C of the 25 sensors in the order of 0xA010 thermal.sensor. -/
  temps   : List Int
  /-- mL/min. -/
  flow    : Nat
  deriving DecidableEq, Repr

/-- Straps as the always-on controller samples them (R672). -/
structure Straps where
  addr : BitVec 4
  boot : BitVec 2
  deriving DecidableEq, Repr

/-- The cryptographic outcomes of an enrolment (R635). -/
structure EnrolCheck where
  unwrapOk : Bool
  deriving DecidableEq, Repr

/-- A link message as received and reassembled: header word, payload, outcome of the GCM tag check, and whether the payload
consists of EXW11 blocks (R318, R320, R621, R622; log entry 37). -/
structure LinkMsg where
  header  : BitVec 128
  payload : List Byte
  tagOk   : Bool
  coded   : Bool
  deriving DecidableEq, Repr

/-- A 256-byte flit (R615): header word, payload bytes, outcome of the CRC check. -/
structure Flit where
  header  : Word64
  payload : List Byte
  crcOk   : Bool
  deriving DecidableEq, Repr

/-- A fault of the arithmetic of a matrix engine: accumulator words changed at (row, column) by exclusive or.
The empty list is the fault-free engine. -/
abbrev AccFlips := List (Nat × Nat × Word32)

/-- What the check bits find as bore lines are read: the physical line, and whether its error is beyond correction (R329).
The empty list is an error-free read. -/
abbrev BoreErrs := List (Fin 65536 × Bool)

/-- The commands of the module, one constructor for each row of spec/opcode_table.json. -/
inductive Instr where
  /-- MEDIA_PACKET (R590). -/
  | mediaPacket (port : Fin 2) (pkt : RxPacket) (authOk : Bool)
  /-- UNMATCHED_DATAGRAM (R590). -/
  | unmatchedDatagram (port : Fin 2) (pkt : RxPacket)
  /-- FRAME_RECEIVE_DROP (R586). -/
  | frameReceiveDrop (port : Fin 2) (why : FrameFault)
  /-- RX_FIFO_WAIT_TIMEOUT (R593). -/
  | rxFifoWaitTimeout (port : Fin 2)
  /-- POOL_BUFFER_GRANT (R376). -/
  | poolBufferGrant (pool : PoolSel)
  /-- ARP_REQUEST (R589). -/
  | arpRequest (port : Fin 2) (senderMac : BitVec 48) (senderIp targetIp : BitVec 32)
  /-- NEIGHBOUR_SOLICITATION (R589). -/
  | neighbourSolicitation (port : Fin 2) (senderMac : BitVec 48) (senderIp targetIp : IpAddr)
  /-- ICMP_ECHO_REQUEST (R589). -/
  | icmpEchoRequest (port : Fin 2) (senderIp targetIp : IpAddr) (data : List Byte)
  /-- PAUSE_FRAME (R588). -/
  | pauseFrame (port : Fin 2) (holdNs : Nat) (pfc : Bool)
  /-- PAUSE_EXPIRY (R588). -/
  | pauseExpiry (port : Fin 2)
  /-- PORT_LINK_CHANGE (R585). -/
  | portLinkChange (port : Fin 2) (up : Bool)
  /-- CHUNK_CLOSE_AT_BOUNDARY (R13). -/
  | chunkCloseAtBoundary (stream : Fin 16384)
  /-- LATE_LIMIT_EXPIRY (R49). -/
  | lateLimitExpiry (stream : Fin 16384)
  /-- STEP_ELIGIBLE (R57). -/
  | stepEligible (stream : Fin 16384)
  /-- ROUND_FORM (R440). -/
  | roundForm (core : Fin 8)
  /-- ROUND_YIELD (R447). -/
  | roundYield (core : Fin 8)
  /-- ROUND_END_STORE (R441). -/
  | roundEndStore (core : Fin 8) (prep : Fin 4) (value : Word64)
  /-- CHECKPOINT_REPORT (R72). -/
  | checkpointReport (core : Fin 8)
  /-- CHUNK_COMMIT (R56). -/
  | chunkCommit (stream : Fin 16384)
  /-- RESULT_DELIVERED (R14). -/
  | resultDelivered (port : Fin 2)
  /-- DEADLINE_EXPIRY (R80). -/
  | deadlineExpiry (stream : Fin 16384)
  /-- STREAM_CONTEXT_FREE (R85). -/
  | streamContextFree (stream : Fin 16384)
  /-- STREAM_OPEN (R62). -/
  | streamOpen (choice : OpenChoice)
  /-- STREAM_CLOSE (R84). -/
  | streamClose
  /-- CLOTHA_REQUEST_RECEIVE (R552). -/
  | clothaRequestReceive (port : Fin 2) (srcAddr : IpAddr) (srcPort : Word16) (msg : List Byte) (tagOk : Bool)
  /-- PING (R549). -/
  | ping
  /-- READ (R557). -/
  | read
  /-- READ_TABLE (R558). -/
  | readTable
  /-- INFO (R559). -/
  | info
  /-- WRITE (R556). -/
  | write
  /-- BULK_READ_DUMP (R560). -/
  | bulkReadDump
  /-- BULK_READ_EVENT_LOG (R561). -/
  | bulkReadEventLog
  /-- BULK_READ_FIRMWARE_STAGING (R560). -/
  | bulkReadFirmwareStaging
  /-- BULK_WRITE_FIRMWARE_STAGING (R647). -/
  | bulkWriteFirmwareStaging
  /-- BULK_WRITE_PACKAGE_STAGING (R653). -/
  | bulkWritePackageStaging (segment : Option SegmentDone)
  /-- FLASH_COMMIT_DONE (R542). -/
  | flashCommitDone
  /-- PARTITION_CREATE (R429). -/
  | partitionCreate (choice : PartChoice)
  /-- PARTITION_READY (R430). -/
  | partitionReady (p : Fin 8)
  /-- PARTITION_DESTROY (R431). -/
  | partitionDestroy
  /-- JOB_SUBMIT (R456). -/
  | jobSubmit
  /-- JOB_CANCEL (R457). -/
  | jobCancel
  /-- ME_RELEASE (R232). -/
  | meRelease
  /-- RESET_CORE (R524). -/
  | resetCore (sc : Fin 4)
  /-- DUMP_RELEASE (R521). -/
  | dumpRelease
  /-- RESTORE_DEFAULTS (R545). -/
  | restoreDefaults
  /-- KEY_ENROL (R635). -/
  | keyEnrol (check : EnrolCheck)
  /-- KEY_REVOKE (R636). -/
  | keyRevoke
  /-- DECOMMISSION (R638). -/
  | decommission
  /-- TENANT_ENROL (R639). -/
  | tenantEnrol
  /-- TENANT_REMOVE (R640). -/
  | tenantRemove
  /-- FW_VERIFY (R648). -/
  | fwVerify (check : ImageCheck)
  /-- FW_ACTIVATE (R649). -/
  | fwActivate
  /-- FW_ACTIVATION_TIMEOUT (R649). -/
  | fwActivationTimeout
  /-- FW_FLOOR_RAISE (R650). -/
  | fwFloorRaise
  /-- MODEL_STAGE (R652). -/
  | modelStage
  /-- MODEL_LOAD (R654). -/
  | modelLoad (choice : LoadChoice)
  /-- MODEL_REMOVE (R654). -/
  | modelRemove
  /-- ATT_REQUEST (R656). -/
  | attRequest
  /-- SRTP_KEY_WRITE (R602). -/
  | srtpKeyWrite
  /-- PPS_EPOCH_WRITE (R612). -/
  | ppsEpochWrite
  /-- TIME_SOURCE_WRITE (R712). -/
  | timeSourceWrite
  /-- ALERT_CLEAR (R678). -/
  | alertClear
  /-- POWER_DRAIN (R698). -/
  | powerDrain
  /-- DRAIN_GRACE_EXPIRY (R699). -/
  | drainGraceExpiry
  /-- TELEMETRY_SAMPLE (R577). -/
  | telemetrySample (map : Fin 16)
  /-- MGMT_READ (R565). -/
  | mgmtRead (addr : Word32) (len : Nat)
  /-- TELEMETRY_WINDOW_READ (R579). -/
  | telemetryWindowRead (map : Fin 16)
  /-- MGMT_WRITE (R565). -/
  | mgmtWrite (addr : Word32) (bytes : List Byte)
  /-- READ_STATUS (R564). -/
  | readStatus
  /-- WRITE_ENABLE (R564). -/
  | writeEnable
  /-- MGMT_OTHER_COMMAND (R564). -/
  | mgmtOtherCommand (command extension : Byte)
  /-- REQ_GO (R567). -/
  | reqGo (tagOk : Bool)
  /-- RESP_ACK (R567). -/
  | respAck
  /-- PTP_MESSAGE (R608). -/
  | ptpMessage (port : Fin 2) (transport : PtpTransport) (msg : PtpMsg)
  /-- PPS_IN_EDGE (R612). -/
  | ppsInEdge
  /-- TIME_SOURCE_TIMEOUT (R610). -/
  | timeSourceTimeout
  /-- HOLDOVER_EXPIRY (R610). -/
  | holdoverExpiry
  /-- PPS_OUT_PULSE (R612). -/
  | ppsOutPulse
  /-- DOORBELL (R438). -/
  | doorbell (core : Fin 8) (prep : Fin 4) (value : Word64)
  /-- COMMAND_DISPATCH (R443). -/
  | commandDispatch (core : Fin 8)
  /-- NOP (R189). -/
  | nop (ctx : Nat)
  /-- MATMUL (R216). -/
  | matmul (ctx : Nat)
  /-- MATMUL_GATHER (R389). -/
  | matmulGather (ctx : Nat)
  /-- MATMUL_SCORE (R394). -/
  | matmulScore (ctx : Nat)
  /-- FENCE (R490). -/
  | fence (ctx : Nat)
  /-- SEM_WAIT (R493). -/
  | semWait (ctx : Nat)
  /-- SEM_SIGNAL (R493). -/
  | semSignal (ctx : Nat)
  /-- SEMAPHORE_OP_APPLY (R495). -/
  | semaphoreOpApply (core : Fin 8) (index : Fin 4096)
  /-- SEM_WAIT_TIMEOUT (R496). -/
  | semWaitTimeout (ctx : Nat)
  /-- CREDIT_ACQUIRE (R370). -/
  | creditAcquire (ctx : Nat)
  /-- CREDIT_RELEASE (R371). -/
  | creditRelease (ctx : Nat)
  /-- CREDIT_GRANT (R367). -/
  | creditGrant (target : Fin 8) (handle : Fin 256)
  /-- CREDIT_TIMEOUT (R370). -/
  | creditTimeout (ctx : Nat)
  /-- STREAM_START (R345). -/
  | streamStart (ctx : Nat)
  /-- STREAM_REARM (R362). -/
  | streamRearm (ctx : Nat)
  /-- STREAM_STOP (R363). -/
  | streamStop (ctx : Nat)
  /-- VEC_RUN (R283). -/
  | vecRun (ctx : Nat)
  /-- CHECKPOINT (R71). -/
  | checkpoint (ctx : Nat)
  /-- COMMAND_COMPLETE (R233). -/
  | commandComplete (ctx : Nat)
  /-- STEAL_GRANT (R219). -/
  | stealGrant (core : Fin 8) (engine : Fin 16)
  /-- WORK_ITEM_START (R183). -/
  | workItemStart (core : Fin 8) (engine : Fin 16)
  /-- ACCUMULATION_DONE (R211). -/
  | accumulationDone (me : EngineId) (flips : AccFlips) (errs : BoreErrs)
  /-- SEGMENT_DONE (R214). -/
  | segmentDone (me : EngineId) (flips addFlips : AccFlips) (errs : BoreErrs)
  /-- MISMATCH_AGE_OUT (R227). -/
  | mismatchAgeOut (core : Fin 8) (engine : Fin 16)
  /-- CONVERSION_DONE (R206). -/
  | conversionDone (me : EngineId) (errs : BoreErrs)
  /-- VE_BODY_END (R248). -/
  | veBodyEnd (me : EngineId) (errs : BoreErrs)
  /-- CODEBOOK_LOAD_START (R310). -/
  | codebookLoadStart (core : Fin 8) (engine : Fin 16)
  /-- CODEBOOK_LOAD_DONE (R311). -/
  | codebookLoadDone (me : EngineId) (errs : BoreErrs)
  /-- EXTENSION_READ_RETURN (R304). -/
  | extensionReadReturn (core : Fin 8) (engine : Fin 16) (ecc : EccResult)
  /-- HANDLE_ENTRY_STORE (R340). -/
  | handleEntryStore (core : Fin 8) (prep : Fin 4) (addr : Fin 8704) (value : Word64)
  /-- PAGE_FREE (R412). -/
  | pageFree (core : Fin 8) (prep : Fin 4) (value : Word64)
  /-- PAGE_RELEASE (R414). -/
  | pageRelease (p : Fin 8)
  /-- PREP_FENCE (R488). -/
  | prepFence (core : Fin 8) (prep : Fin 4)
  /-- LINK_REQUEST (R626). -/
  | linkRequest (core : Fin 8) (prep : Fin 4) (tail : Word16)
  /-- LINK_REQUEST_COMPLETE (R625). -/
  | linkRequestComplete (p : Fin 8)
  /-- SPILL_PAIR_REQUEST (R418). -/
  | spillPairRequest (ctx : Nat)
  /-- SPILL_WALK_TIMEOUT (R418). -/
  | spillWalkTimeout (ctx : Nat)
  /-- CHANNEL_PIECE_ISSUE (R347). -/
  | channelPieceIssue (ch : ChannelId) (errs : BoreErrs)
  /-- CHANNEL_PIECE_WRITTEN (R349). -/
  | channelPieceWritten (core : Fin 8) (chan : Fin 64) (piece : Nat)
  /-- POOL_BUFFER_TIMEOUT (R375). -/
  | poolBufferTimeout (core : Fin 8) (chan : Fin 64)
  /-- HBM_REQUEST (R464). -/
  | hbmRequest (die : Fin 2) (source : HbmId) (addr : BitVec 40) (op : HbmOp) (ecc : EccResult)
  /-- WINDCHEST_FILL (R472). -/
  | windchestFill (slice : Fin 16)
  /-- SCRUB_STEP (R469). -/
  | scrubStep (stack : Fin 12) (ecc : EccResult)
  /-- EVENT_LOG_COMMIT (R498). -/
  | eventLogCommit
  /-- CONTEXT_SWAP_START (R448). -/
  | contextSwapStart (ctx : Nat)
  /-- CONTEXT_SWAP_DONE (R449). -/
  | contextSwapDone (ctx : Nat)
  /-- HANG_DETECTED (R502). -/
  | hangDetected (core : Fin 8) (unit : DroneUnit)
  /-- DUMP_PART_TIMEOUT (R520). -/
  | dumpPartTimeout (core : Fin 8) (part : DumpPart)
  /-- FENCE_READ_EXPIRY (R513). -/
  | fenceReadExpiry (core : Fin 8)
  /-- FENCE_DRAIN_COMPLETE (R512). -/
  | fenceDrainComplete (dom : ResetDom)
  /-- COMPUTE_RESET_DONE (R522). -/
  | computeResetDone (dom : ResetDom)
  /-- RESUME (R523). -/
  | resume (dom : ResetDom)
  /-- LC_SERVICE_RESUME (R79). -/
  | lcServiceResume (core : Fin 8)
  /-- CLEARANCE_INTERVAL_END (R79). -/
  | clearanceIntervalEnd (stream : Fin 16384)
  /-- CORE_RESET_TIMEOUT (R525). -/
  | coreResetTimeout (core : Fin 8) (unit : DroneUnit)
  /-- DIE_RESET_TIMEOUT (R526). -/
  | dieResetTimeout (u : DieUnit)
  /-- LINK_FLIT_RECEIVE (R616). -/
  | linkFlitReceive (link : Fin 8) (flit : Flit)
  /-- LINK_NAK (R616). -/
  | linkNak (link : Fin 8) (lastGood : BitVec 12)
  /-- LINK_DOWN (R617). -/
  | linkDown (link : Fin 8)
  /-- LINK_UP (R617). -/
  | linkUp (link : Fin 8)
  /-- LINK_RETRAIN_TIMEOUT (R617). -/
  | linkRetrainTimeout (link : Fin 8)
  /-- LINK_KEY_EXCHANGE (R645). -/
  | linkKeyExchange (link : Fin 8) (peerKey : List Byte) (sigOk : Bool) (peerSerial : List Byte)
  /-- LINK_REKEY (R646). -/
  | linkRekey (link : Fin 8)
  /-- LINK_WRITE_MESSAGE (R624). -/
  | linkWriteMessage (link : Fin 8) (msg : LinkMsg)
  /-- LINK_READ_REQUEST (R623). -/
  | linkReadRequest (link : Fin 8) (msg : LinkMsg)
  /-- LINK_RESPONSE (R621). -/
  | linkResponse (link : Fin 8) (msg : LinkMsg)
  /-- LINK_WRITE_ACK_TIMEOUT (R624). -/
  | linkWriteAckTimeout (link : Fin 8) (tag : BitVec 10)
  /-- PWR_EN_HIGH (R662). -/
  | pwrEnHigh (straps : Straps)
  /-- PWR_EN_LOW (R688). -/
  | pwrEnLow
  /-- RAIL_GROUP_IN_REGULATION (R662). -/
  | railGroupInRegulation
  /-- RAIL_SEQUENCE_TIMEOUT (R663). -/
  | railSequenceTimeout
  /-- RAIL_FAULT (R664). -/
  | railFault (rail : Fin 9) (mv : Int)
  /-- MOD_RST_ASSERT (R689). -/
  | modRstAssert
  /-- MOD_RST_RELEASE (R689). -/
  | modRstRelease (straps : Straps)
  /-- INPUT_TRIP (R684). -/
  | inputTrip (overVolt : Bool) (mv : Int)
  /-- SENSOR_SAMPLE (R681). -/
  | sensorSample (r : SensorReading)
  /-- THERMAL_TRIP (R681). -/
  | thermalTrip (sensor : Fin 25) (mC : Int)
  /-- BOOT_ROM_CHECK (R641). -/
  | bootRomCheck (slot0 slot1 : ImageCheck)
  /-- HBM_TRAINING_DONE (R641). -/
  | hbmTrainingDone (allOk : Bool)
  /-- SERVICE_FIRMWARE_START (R695). -/
  | serviceFirmwareStart (slot2 slot3 : ImageCheck) (journalOk : Bool) (parts : List (Nat × PartChoice))
  /-- MODULE_READY (R694). -/
  | moduleReady
  /-- STANDBY_SUPPLY_UP (R27). -/
  | standbySupplyUp (inputMv : Nat)
  /-- STANDBY_SUPPLY_LOSS (R27). -/
  | standbySupplyLoss
  /-- PWR_EN_LOW_TIME_ELAPSED (R685). -/
  | pwrEnLowTimeElapsed
  /-- RAIL_GROUP_BELOW_TEN_PERCENT (R665). -/
  | railGroupBelowTenPercent
  /-- KEPT_RESPONSE_EXPIRY (R555). -/
  | keptResponseExpiry (keyId : Word16) (reqId : Word32)
  /-- SRTP_KEY_OVERLAP_EXPIRY (R603). -/
  | srtpKeyOverlapExpiry (slot : Fin 4096)
  /-- CONTEXT_RECREATE (R708). -/
  | contextRecreate (init : CtxInit)
  /-- NARROW_VIEW_ACCESS (R379). -/
  | narrowViewAccess (core : Fin 8) (prep : Fin 4) (line : Fin 65536) (word : Fin 8) (store : Option Word64) (ecc : EccResult)
  /-- NEXT_HOP_REPLY (R589). -/
  | nextHopReply (port : Fin 2) (ip : IpAddr) (mac : BitVec 48)
  /-- DELAY_REQUEST (R608). -/
  | delayRequest
  deriving DecidableEq, Repr

end Sys2Proof
end

