-- ==== Sys2Proof/Config.lean ====
section
/-! DEFINITION. What the spec leaves open or an implementation fixes: constants without a body, so that nothing can be
proved of their values. -/

namespace Sys2Proof

/-- Choice of the terms added at an addition of a float sum: draw and place in the sum (R105, R258; log entry 9). -/
opaque Config.sumPick : Nat → Nat → Nat

/-- Departure, in units of the last place, of a reciprocal, reciprocal root, exponential or logarithm from the exact
value: draw and lane (R123; log entry 10). -/
opaque Config.ulpError : Nat → Nat → Int

/-- An FP32 result that the spec does not bound: draw and lane (R123; log entry 10). -/
opaque Config.freeF32 : Nat → Nat → BitVec 32

/-- The Windchest slice of its die, before reduction modulo 8, and the set, before reduction modulo 3,072, that a
128-byte line maps to (R470; log entry 15). -/
opaque Config.wcSlice : Nat → Nat
opaque Config.wcSet : Nat → Nat

/-- Extent that a partition's window on a scale link holds at each GiB of the window: link, partition, GiB (R623; log
entry 36). -/
opaque Config.windowExtent : Nat → Nat → Nat → Nat

/-- Bytes of a chunk's result, before reduction to at most Y, and each of them: the draw made at its commit (R56, R59; log
entry 39). -/
opaque Config.resultLen : Nat → Nat
opaque Config.resultByte : Nat → Nat → BitVec 8

/-- Which of the conditions of R83 that held a miss records: the draw made at the miss (R83; log entry 40). -/
opaque Config.missPick : Nat → Nat

/-- The core that the ADMIT event of a refused open names: the draw made at the refusal (R65, R584; log entry 42). -/
opaque Config.refusalCore : Nat → Nat

/-- Departure of a clock domain's local copy of the timebase from the count of the TIME domain, before reduction to -2 to 2 ns:
domain and instant (R35; log entry 131). -/
opaque Config.copyOffset : Nat → Nat → Nat

/-- Error of the timestamp of a PPS_IN edge, before reduction to -1 to 1 ns: the draw made at the edge (R36; log entry 131). -/
opaque Config.ppsError : Nat → Nat

/-- Error of the timestamp of a PTP event message, before reduction to -4 to 4 ns: the draw made at the message (R609; log entry
131). -/
opaque Config.ptpError : Nat → Nat

/-- The ranges, address and length, that firmware allocates to a model slot: the draw made at the staging (R652; log entry 144). -/
opaque Config.stagePlace : Nat → List (Nat × Nat)

/-- What the oscillator of the AON domain counts, in ns, while the timebase counts one: the draw made at the tick (R24, R27; log
entry 2). -/
opaque Config.aonAdvance : Nat → Nat

/-- What a byte of an extent reads as once the extent's key is another: generation of the key, address, and the byte as it read
under the key before (R430, R465; log entry 5). -/
opaque Config.rekeyByte : Nat → Nat → BitVec 8 → BitVec 8

/-- MAC address of a port, fixed at manufacture (R580). -/
opaque Config.mac : Nat → Nat

/-- Identity of the module, fixed at manufacture: serial number, instant of manufacture, version of the ROM, identity
public key, its certificate chain, and the wrap public key of each generation (R580, R633, R644, R657; log entry 16). -/
opaque Config.serial : List (BitVec 8)
opaque Config.madeNs : Nat
opaque Config.romVersion : Nat
opaque Config.identityPub : Nat → BitVec 8
opaque Config.identityCert : List (BitVec 8)
opaque Config.wrapPub : Nat → Nat → BitVec 8

/-- Field descriptors of the record type at an index of 0x0100 to 0x0FFF, how many it has (0 where no type stands there),
and the record type of an object (R537, R559; log entry 16). -/
opaque Config.recCount : Nat → Nat
opaque Config.recField : Nat → Nat → Nat
opaque Config.recTypeOf : Nat → Nat

/-- The images programmed at manufacture: VERSION, SVN less one before reduction modulo 65,535, and bytes, by slot (R643,
R647; log entry 41). -/
opaque Config.factoryVersion : Nat → Nat
opaque Config.factorySvn : Nat → Nat
opaque Config.factoryByte : Nat → Nat → BitVec 8

/-- Byte of a message's tag or of a report's signature: the draw and the place (R552, R656; log entry 6). -/
opaque Config.tagByte : Nat → Nat → BitVec 8

/-- SHA-512 of a byte string, as a number (R656; log entry 6). -/
opaque Config.sha512 : List (BitVec 8) → Nat

end Sys2Proof
end

