-- ==== Sys2Proof/Machine/State.lean ====
section
/-! DEFINITION. The state of the module as plain data, the reasons a step can stop, and the state after reset.
A field's docstring opens with [width | rule of spec/ | reset]; "DC n" and "PR n" mark a reset value or a field that
log entry n of notes/assumptions declares a DESIGN CHOICE or PRESUMED, "own n" a field of the model's own. -/

namespace Sys2Proof.Machine

/-- Why the machine stops. -/
inductive Fault where
  /-- Raised by LINK_FLIT_RECEIVE when its operand is not 242 payload bytes, so is no flit of R615. Safe. -/
  | notAFlit
  deriving DecidableEq, Repr

/-- Why a command has no meaning. -/
inductive Refusal where
  /-- Raised by an arm of Dispatch.lean for a command that has no meaning yet. Safe. -/
  | notModelled (mnemonic : String)
  deriving DecidableEq, Repr

/-! ### The object dictionary's persistent values -/

/-- 0x1100 comm.port record (R580). -/
structure CommPort where
  /-- [8 b | R580 | 1] -/
  clothaOn : BitVec 8 := 1
  /-- [16 b | R580 | 50830] -/
  udpPort : Word16 := 50830
  /-- [128 b | R580 | 0, no address] -/
  ipv6 : BitVec 128 := 0
  /-- [8 b | R580 | 0] -/
  ipv6Prefix : BitVec 8 := 0
  /-- [32 b | R580 | 0, no address] -/
  ipv4 : BitVec 32 := 0
  /-- [8 b | R580 | 0] -/
  ipv4Prefix : BitVec 8 := 0
  /-- [128 b | R580 | 0] -/
  gateway : BitVec 128 := 0
  deriving DecidableEq, Repr

/-- 0x9000 port.config record (R629). -/
structure PortConfig where
  /-- [16 b | R587 R629 | 0] -/
  vlan : Word16 := 0
  /-- [16 b | R586 R629 | 1500] -/
  mtu : Word16 := 1500
  /-- [3 x 8 b | R596 | 46, 16, 0] DSCP of latency-critical results and PTP, of control, of best-effort results. -/
  dscp : List (BitVec 8) := [46, 16, 0]
  /-- [3 x 8 b | R596 | 5, 2, 0] -/
  prio : List (BitVec 8) := [5, 2, 0]
  deriving DecidableEq, Repr

/-- 0x9012 link.config record (R629). -/
structure LinkConfig where
  /-- [8 b | R629 | 1] -/
  enable : BitVec 8 := 1
  /-- [16 b | R627 R629 | 768] -/
  reserveFraction : Word16 := 768
  deriving DecidableEq, Repr

/-- 0x1300 telemetry.map record (R575). -/
structure TelMap where
  /-- [1 b | R575 | 0] -/
  enable : Bool := false
  /-- [2 b | R575 | 0] -/
  transport : Nat := 0
  /-- [16 b | R575 | 0] -/
  keyId : Word16 := 0
  /-- [32 b | R575 | 1000000] -/
  periodUs : Nat := 1000000
  /-- [128 b | R575 | 0] -/
  destAddr : BitVec 128 := 0
  /-- [16 b | R575 | 0] -/
  destPort : Word16 := 0
  /-- [6 b | R575 | 0] -/
  count : Nat := 0
  /-- [32 x 32 b | R575 | 0] object addresses (index, subindex). -/
  addrs : List (Nat × Nat) := []
  deriving DecidableEq, Repr

/-- A partition creation record (R428), as 0x3001 partition.config keeps it, with what firmware chose for it. -/
structure PartRec where
  /-- [8 b | R428 | -] -/
  cores : Nat
  /-- [16 b | R428 | -] -/
  tenant : Nat
  /-- [2 x 8 b | R428 | -] HBM quota in GiB on die 0 and die 1. -/
  quota : List Nat
  /-- [2 x 16 b | R428 | -] ways on die 0 and die 1. -/
  ways : List Nat
  /-- [2 b | R428 | -] PREP_PER_CORE. -/
  prepPerCore : Nat
  /-- [10 b | R428 | -] -/
  ctxPerCore : Nat
  /-- [64 b | R656 | -] creation instant. -/
  createdNs : Nat
  /-- [40 b | R414 R425 | -] release ring, set by firmware at creation. -/
  releaseRing : Nat
  /-- [40 b | R625 | -] link ring. -/
  linkRing : Nat
  deriving DecidableEq, Repr

/-- An enrolled Clotha key: its record of 0x7001 sec.key and its counter window (R553, R635). -/
structure KeyRec where
  /-- [16 b | R657 | -] -/
  keyId : Nat
  /-- [8 b | R634 | -] 1 operator, 2 tenant, 3 baseboard. -/
  role : Nat
  /-- [16 b | R634 | -] -/
  tenant : Nat
  /-- [64 b | R657 | -] instant of enrolment. -/
  enrolledNs : Nat
  /-- [64 B | R552 R634 | -] the wrapped key as the record carried it. -/
  wrapped : List Byte
  /-- [64 b | R553 R635 | 0 at enrolment] highest accepted counter H. -/
  high : Nat
  /-- [64 b | R553 | 0] bit i set: counter H - i has been accepted. -/
  seen : Word64
  /-- [64 b | R553 | committed] reserve at least 2^20 above H. -/
  reserve : Nat
  deriving DecidableEq, Repr

/-- An enrolled tenant: its records of 0x4000 sched.tenant and 0x7003 sec.tenant (R453, R639). -/
structure TenantRec where
  /-- [16 b | R453 | -] -/
  tenant : Nat
  /-- [16 b | R453 | 1] -/
  beWeight : Nat := 1
  /-- [16 b | R453 | 0] -/
  lcLimit : Nat := 0
  /-- [133 B | R639 | -] package public key. -/
  pkgKey : List Byte
  deriving DecidableEq, Repr

/-- A firmware image slot (R647 to R650). -/
structure FwSlot where
  /-- [8 b | R657 | 0 empty] 0 empty, 1 staging, 2 verified, 3 active, 4 failed, 5 below floor. -/
  state : Nat := 0
  /-- [64 MiB | R643 R647 | empty] the staged bytes by offset. -/
  bytes : Mem := []
  /-- [own 41 | R647 | slots 0 and 2] it still holds the image programmed at manufacture. -/
  factory : Bool := false
  deriving DecidableEq, Repr

/-- The shutdown record (R687). -/
structure ShutdownRec where
  /-- [8 b | R687 | 0] -/
  cause : Nat := 0
  /-- [8 b | R687 | 0] sensor or rail index. -/
  sensor : Nat := 0
  /-- [16 b | R687 | 0] mask of causes. -/
  mask : Nat := 0
  /-- [32 b | R687 | 0] mV, m°C or mL/min. -/
  value : Int := 0
  /-- [32 b | R687 | 0] standby seconds. -/
  standbyS : Nat := 0
  deriving DecidableEq, Repr

/-- Every persistent value of the module. The state holds two: the values in effect and the values committed to flash. -/
structure Persist where
  /-- [16 b | R42 | 64] 0x2001:0001 stream.headroom -/
  headroom : Nat := 64
  /-- [32 b | R42 | 500000] 0x2001:0002 stream.reserve_default_ns -/
  reserveDefault : Nat := 500000
  /-- [16 b | R42 | 870] 0x2001:0003 stream.hbm_fraction -/
  hbmFraction : Nat := 870
  /-- [16 b | R42 | 870] 0x2001:0004 stream.bridge_fraction -/
  bridgeFraction : Nat := 870
  /-- [16 b | R42 | 768] 0x2001:0005 stream.port_fraction -/
  portFraction : Nat := 768
  /-- [BOOL | R42 | 0] 0x2001:0006 stream.miss_alert -/
  missAlert : Bool := false
  /-- [8 x U16 | R164 | 64] 0x5001 numeric.clip_threshold, keyed by partition; unlisted reads 64 -/
  clipThreshold : KMap Nat := []
  /-- [8 x U8 | R164 | 2] 0x5002 numeric.adapter_state; unlisted reads 2 -/
  adapterState : KMap Nat := []
  /-- [8 x U8 | R324 | 2] 0x9010 link.exw11_flush_max; unlisted reads 2 -/
  flushMax : KMap Nat := []
  /-- [8 x U8 | R381 | 0] 0x8021:0001 core.pool_first_bank -/
  poolFirst : KMap Nat := []
  /-- [8 x U8 | R381 | 0] 0x8021:0002 core.pool_banks -/
  poolBanks : KMap Nat := []
  /-- [8 x U8 | R425 | 0] 0x3100 partition.kv_spill -/
  kvSpill : KMap Nat := []
  /-- [128 x U64 | R425 | 0] 0x3101 partition.kv_peer -/
  kvPeer : KMap Nat := []
  /-- [8 x U32 | R425 | 15000] 0x3102 partition.kv_walk_bound_ns; unlisted reads 15000 -/
  kvWalkBound : KMap Nat := []
  /-- [8 x U32 | R425 | 0] 0x3103 partition.kv_staging -/
  kvStaging : KMap Nat := []
  /-- [8 x 32 B | R435 | 0] 0x3001 partition.config -/
  parts : KMap PartRec := []
  /-- [288 x U8 | R500 | 0xFF free] 0x3003 partition.extent, keyed die x 144 + extent; unlisted reads 0xFF, and the
  module's extents 0 to 3 of each die read 0xFE (R461) -/
  extents : KMap Nat := []
  /-- [256 records | R453 R639 | none] tenant slots -/
  tenants : KMap TenantRec := []
  /-- [32 b | R534 | 100000] 0x6000:0001 recovery.window_ns -/
  windowNs : Nat := 100000
  /-- [16 b | R534 | 256] 0x6000:0002 recovery.dump_part_cycles -/
  dumpPartCycles : Nat := 256
  /-- [32 b | R534 | 86400] 0x6000:0003 recovery.scrub_period_s -/
  scrubPeriodS : Nat := 86400
  /-- [64 b | R534 | 0] 0x6004 recovery.module_resets -/
  moduleResets : Nat := 0
  /-- [8 x U16 | R231 | 0] 0x8012 core.me_quarantine, keyed by core -/
  quarantine : KMap Nat := []
  /-- [2 records | R580 | Clotha on, UDP 50830, no addresses] 0x1100 comm.port; unlisted reads the default -/
  commPort : KMap CommPort := []
  /-- [8 b | R580 | 0] 0x1201 time.source -/
  timeSource : Nat := 0
  /-- [16 records | R575 | default] 0x1300 telemetry.map; unlisted reads the default -/
  telMaps : KMap TelMap := []
  /-- [64 b | R561 | 0] floor of health.event_head in flash -/
  eventFloor : Nat := 0
  /-- [2 records | R629 | default] 0x9000 port.config -/
  portConfig : KMap PortConfig := []
  /-- [8 records | R629 | default] 0x9012 link.config -/
  linkConfig : KMap LinkConfig := []
  /-- [8 b | R629 | 0] ptp.config domain number -/
  ptpDomain : Nat := 0
  /-- [8 b | R629 | 0] ptp.config transport -/
  ptpTransport : Nat := 0
  /-- [32 b | R629 | 60] ptp.config HOLDOVER_S -/
  holdoverS : Nat := 60
  /-- [256 records | R635 R657 | none] 0x7001 sec.key by record number -/
  keys : KMap KeyRec := []
  /-- [wrap key generation | R633 R638 | 0] counts decommissions: each generates a new wrap key -/
  wrapGen : Nat := 0
  /-- [8 x 133 B | R657 | 0] 0x7030 sec.link_peer; unlisted reads all zero -/
  linkPeer : KMap (List Byte) := []
  /-- [own 20 | R553 R633 R637 | 0] counter window of the claim key, KEY_ID 0 -/
  claimKey : KeyRec := { keyId := 0, role := 0, tenant := 0, enrolledNs := 0, wrapped := [], high := 0, seen := 0, reserve := 0x100000 }
  /-- [4 slots | R647 R657 | DC 41: slots 0 and 2 active with the images of manufacture, 1 and 3 empty] 0x7005 fw.slot -/
  fwSlots : KMap FwSlot := [(0, { state := 3, factory := true }), (2, { state := 3, factory := true })]
  /-- [U16 | R657 | 1] 0x7007:0001 fw.floor of Ligature -/
  floorLig : Nat := 1
  /-- [U16 | R657 | 1] 0x7007:0002 fw.floor of the service firmware -/
  floorSf : Nat := 1
  /-- [16 B | R693 | 0] 0xA002 power.last_shutdown -/
  lastShutdown : ShutdownRec := {}
  /-- [3 x U64 | R693 | 0] 0xA003 power.shutdowns: power faults, thermal trips, coolant trips -/
  shutdowns : List Nat := [0, 0, 0]
  deriving DecidableEq, Repr

/-! ### Streams -/

/-- Progress of a chunk's current step. -/
inductive StepPhase where
  /-- The step's predecessors have not completed (R55, R57). -/
  | waiting
  /-- In its ready queue (R440). -/
  | ready
  /-- In a round (R441). -/
  | inRound
  /-- The last step has completed; the chunk awaits its commit (R56). -/
  | done
  /-- Committed; the result is in the egress queue (R56). -/
  | committed
  deriving DecidableEq, Repr

/-- An accepted chunk that has not been delivered or discarded. -/
structure Chunk where
  /-- [64 b | R47 | -] index in its stream -/
  idx : Nat
  /-- [64 b | R13 | -] instant of acceptance -/
  accept : Nat
  /-- [64 b | R13 | -] deadline; all ones for a BE chunk -/
  deadline : Nat
  /-- [16 b | R77 | 0] result flags -/
  flags : Word16
  /-- [own 20 | R434 | 0] stage of the current step -/
  stage : Nat := 0
  /-- [own 20 | R55 R57 | waiting] -/
  phase : StepPhase := .waiting
  /-- [64 b | R440 | -] instant the current step became eligible -/
  eligibleAt : Nat := 0
  /-- [1 b | R74 | VARIANT] the remaining stages run on the fallback variant -/
  onFallback : Bool := false
  /-- [1 b | R442 | 0] OPT_OFF -/
  optOff : Bool := false
  /-- [own 20 | R72 | none] of the latest evaluated checkpoint: remaining path and engine-cycles of the primary variant, then
  of the fallback -/
  rem : Option (Nat × Nat × Nat × Nat) := none
  /-- [1 b | R507 | 0] the current step's poison has been re-run once -/
  poisonRerun : Bool := false
  /-- [1 b | R507 | 0] the chunk carries a standing poison -/
  standingPoison : Bool := false
  /-- [1 b | R507 | 0] the current step completed with POISON -/
  stepPoison : Bool := false
  /-- [own 105 | R172 | none] checkpoints of the current step at which the clip share has been tested -/
  clipTested : NSet := []
  /-- [1 b | R507 | 0] the current step's re-run has been granted and not yet run -/
  rerunDue : Bool := false
  /-- [1 b | R44 | 0] counted in RERUN_CHUNKS -/
  rerunCounted : Bool := false
  /-- [64 b | R58 | -] instant of the commit -/
  committedAt : Nat := 0
  /-- [1 b | R80 | 0] a miss has been counted -/
  missed : Bool := false
  /-- [4 b x n | R83 | none] conditions of R83 that have held since acceptance, as CAUSE values -/
  causes : NSet := []
  deriving DecidableEq, Repr

/-- A media packet accepted for chunks not yet closed: extended first timestamp, samples, arrival (R46 to R51). -/
structure Arrived where
  /-- [64 b | R46 | -] -/
  ts : Int
  /-- [own 20 | R50 | -] timestamp units -/
  len : Nat
  /-- [own 20 | R55 R592 | -] payload bytes, samples as received -/
  data : List Byte
  /-- [64 b | R14 | -] -/
  at_ : Nat
  /-- [16 b | R597 R605 | -] sequence number -/
  seq : Nat
  deriving DecidableEq, Repr

/-- A stream context record (R43) with the ingress machinery of the stream it holds. -/
structure StreamCtx where
  /-- [2 b | R43 | 0] STATE: 1 open, 2 closing; a free context is not listed -/
  closing : Bool := false
  /-- [1 b | R43 | 0] CLASS BE -/
  be : Bool := false
  /-- [1 b | R43 | 0] VARIANT -/
  variantFb : Bool := false
  /-- [1 b | R43 | 0] ON_FALLBACK -/
  onFallback : Bool := false
  /-- [1 b | R43 R420 | 0] SPILL_OK -/
  spillOk : Bool := false
  /-- [3 b | R43 | 0] PERIOD -/
  period : Nat := 0
  /-- [3 b | R43 | 0] PARTITION -/
  part : Nat := 0
  /-- [3 b | R43 | 0] HOME_CORE -/
  core : Nat := 0
  /-- [1 b | R43 | 0] PORT -/
  port : Nat := 0
  /-- [3 b | R43 | 0] PAYLOAD -/
  payload : Nat := 0
  /-- [2 b | R43 | 0] RATE -/
  rate : Nat := 0
  /-- [1 b | R43 | 0] SRTP -/
  srtp : Bool := false
  /-- [1 b | R43 | 0] LATE_DISCARD -/
  lateDiscard : Bool := false
  /-- [16 b | R43 | 0] TENANT_ID -/
  tenant : Nat := 0
  /-- [16 b | R43 | 0] MODEL_ID -/
  modelId : Nat := 0
  /-- [6 b | R705 | 0] the model slot the open is bound to -/
  modelSlot : Nat := 0
  /-- [16 b | R43 | 0] KEY_SLOT -/
  keySlot : Nat := 0
  /-- [32 b | R43 | 0] PROMISE_NS -/
  promise : Nat := 0
  /-- [32 b | R43 | 0] RESERVE_NS in effect -/
  reserve : Nat := 0
  /-- [32 b | R43 | 0] LATE_LIMIT_NS in effect -/
  lateLimit : Nat := 0
  /-- [32 b | R43 | 0] SSRC_IN -/
  ssrcIn : Word32 := 0
  /-- [32 b | R43 | 0] SSRC_OUT -/
  ssrcOut : Word32 := 0
  /-- [32 b | R43 | 0] MAX_CONTEXT -/
  maxContext : Nat := 0
  /-- [32 b | R43 | 0] SLACK_NS -/
  slack : Nat := 0
  /-- [64 b | R43 | 0] OPEN_NS -/
  openNs : Nat := 0
  /-- [16 b | R37 | 0] LOCAL_UDP_PORT -/
  localPort : Word16 := 0
  /-- [128 b | R37 | 0] REMOTE_ADDR -/
  remoteAddr : IpAddr := 0
  /-- [16 b | R37 | 0] REMOTE_UDP_PORT -/
  remotePort : Word16 := 0
  /-- [64 b | R43 R46 | 0] ANCHOR_NS; meaningful once anchored -/
  anchorNs : Int := 0
  /-- [64 b | R43 R46 | 0] ANCHOR_TS, extended -/
  anchorTs : Int := 0
  /-- [1 b | R46 | 0] the first packet has been accepted -/
  anchored : Bool := false
  /-- [64 b | R46 R47 | 0] extended timestamp of the first sample of chunk 0 -/
  firstTs : Int := 0
  /-- [32 b | R43 | 0] NEXT_CHUNK: index of the chunk now open -/
  nextChunk : Nat := 0
  /-- [64 b | R49 | 0] instant of the last chunk close -/
  lastClose : Nat := 0
  /-- [64 b | R43 | 0] LAST_DEADLINE_NS -/
  lastDeadline : Nat := 0
  /-- [3 b | R43 R454 | 0] chunk indices in the ingress ring not yet served -/
  ring : List Nat := []
  /-- [own 20 | R46 to R51 | none] packets accepted that carry samples of unclosed chunks -/
  arrived : List Arrived := []
  /-- [16 lags | R52 | none] lags of consecutive chunks closed by arrival late enough, newest first -/
  lagRun : List Nat := []
  /-- [5 b | R53 | 0] consecutive chunks whose last packet came a period early -/
  earlyRun : Nat := 0
  /-- [1 b | R54 | 0] the next chunk to close carries REANCHORED -/
  reanchorDue : Bool := false
  /-- [own 20 | R55 | 0] place of the ring in which the next accepted chunk is put -/
  ringWr : Nat := 0
  /-- [40 b | R43 R56 | 0] STATE_HANDLE: HBM address of the committed recurrent state -/
  stateAddr : Nat := 0
  /-- [40 b | R56 | 0] HBM address of the shadow copy -/
  shadowAddr : Nat := 0
  /-- [40 b | R55 | 0] HBM address of the ingress ring of four chunks -/
  ringAddr : Nat := 0
  /-- [7 b | R599 | none] payload type of the first accepted packet -/
  payloadType : Option Nat := none
  /-- [16 b | R599 | DC 4: 0] sequence number of the next result packet -/
  outSeq : Nat := 0
  /-- [32 b | R599 | DC 4: 0] sample count of the output -/
  outTs : Nat := 0
  /-- [R600 | R600 | none] indices of inbound SRTP packets within the replay window of 128 -/
  srtpSeen : NSet := []
  /-- [32 b | R600 | 0] rollover counter and highest sequence number, as one index -/
  srtpHigh : Option Nat := none
  /-- [64 b | R604 | none] instant of the last SRTP_AUTH_FAIL event -/
  authEventAt : Option Nat := none
  /-- [64 b | R79 | none] end of the clearance interval -/
  clearanceEnd : Option Nat := none
  /-- [64 b | R79 | none] end of the last clearance interval, once it has ended -/
  clearedAt : Option Nat := none
  /-- [own 20 | R72 R80 | none] accepted chunks not yet delivered or discarded, oldest first -/
  chunks : List Chunk := []
  deriving DecidableEq, Repr

/-- A stream.stats record (R44). -/
structure StreamStats where
  /-- [64 b | R44 | 0] -/
  accepted : Nat := 0
  /-- [64 b | R44 | 0] -/
  delivered : Nat := 0
  /-- [64 b | R44 | 0] -/
  degraded : Nat := 0
  /-- [64 b | R44 | 0] -/
  misses : Nat := 0
  /-- [64 b | R44 | 0] -/
  gaps : Nat := 0
  /-- [64 b | R44 | 0] -/
  latePackets : Nat := 0
  /-- [64 b | R44 | 0] -/
  earlyPackets : Nat := 0
  /-- [64 b | R44 | 0] -/
  rerunChunks : Nat := 0
  /-- [64 b | R44 | 0] -/
  maxLatency : Nat := 0
  deriving DecidableEq, Repr

/-- A miss record (R82). -/
structure MissRec where
  /-- [64 b | R82 | -] -/
  accept : Nat
  /-- [64 b | R82 | -] -/
  deadline : Nat
  /-- [64 b | R82 | -] DELIVER_NS; `none` reads all ones -/
  deliver : Option Nat
  /-- [14 b | R82 | -] -/
  stream : Nat
  /-- [4 b | R82 | -] -/
  cause : Nat
  /-- [16 b | R82 | -] -/
  flags : Word16
  /-- [16 b | R82 | -] CHUNK_SEQ, kept whole -/
  chunk : Nat
  deriving DecidableEq, Repr

/-- A result waiting in a port's egress queue (R56, R596). -/
structure EgressResult where
  /-- [own 20 | R596 | -] -/
  stream : Nat
  /-- [own 20 | R596 | -] -/
  chunk : Nat
  /-- [1 b | R596 | -] -/
  be : Bool
  /-- [64 b | R596 | -] -/
  deadline : Nat
  /-- [13 b | R594 | -] buffers that it takes -/
  want : Nat
  /-- [1 b | R594 | 0] it holds its buffers -/
  held : Bool := false
  /-- [own 39 | R56 R59 | -] draw of its bytes -/
  draw : Nat
  deriving DecidableEq, Repr

/-- The streams and the admission and deadline unit's totals. -/
structure Streams where
  /-- [16384 x 128 B | R43 | free] stream context table -/
  ctx : KMap StreamCtx := []
  /-- [16384 x 72 B | R44 | 0] stream.stats -/
  stats : KMap StreamStats := []
  /-- [256 x 32 B | R81 R82 | none] stream.miss_log, newest first -/
  missLog : List MissRec := []
  /-- [64 b | R42 | 0] stream.miss_total -/
  missTotal : Nat := 0
  /-- [64 b | R42 | 0] stream.degraded_total -/
  degradedTotal : Nat := 0
  /-- [64 b | R42 | 0] stream.refused_total -/
  refusedTotal : Nat := 0
  /-- [P0, P1 | R596 | none] results waiting for egress, by port -/
  egress : KMap (List EgressResult) := []
  /-- [16 b x n | R527 | none] streams ended by the last module reset, answered with REC_MODULE_RESET -/
  lost : NSet := []
  deriving DecidableEq, Repr

/-! ### Compute cores -/

/-- A handle-table entry (R338), fields as words so that RSVD bits stay zero. -/
structure HandleEntry where
  /-- [64 b | R338 | 0] bits [63:0]: VALID, PARTITION, RING, POOL, FIRST_BANK, BANK_LOG2, FIRST_LINE, SIZE_LINES, SLOT_MINUS1 -/
  w0 : Word64 := 0
  /-- [64 b | R338 | 0] bits [127:64] but for WR_PTR: SLOT_LINES, RESERVE, POOL_MAP -/
  w1 : Word64 := 0
  /-- [6 b | R338 | 0] WR_PTR -/
  wrPtr : Nat := 0
  /-- [64 b | R338 | 0] FULL -/
  full : Word64 := 0
  /-- [64 b | R338 | 0] bits [255:192]: EXT_BASE, EXT_STRIDE -/
  w3 : Word64 := 0
  /-- [64 b | R340 | none] bits [127:64] as stored and not yet applied -/
  next1 : Option Word64 := none
  /-- [64 b | R340 | none] bits [255:192] as stored and not yet applied -/
  next3 : Option Word64 := none
  deriving DecidableEq, Repr

/-- What a tile statistics record gathers (R161, R162), and what a tensor's totals gather from its records (R163). -/
structure TileStats where
  /-- [32 x 16 b | R161 | 0] -/
  hist : List Nat := List.replicate 32 0
  /-- [64 x 8 b | R161 | 0] -/
  rowClip : List Nat := List.replicate 64 0
  /-- [32 b | R161 | 0] MAXABS, kept exactly until it is written -/
  maxAbs : Frac := ⟨0, 1⟩
  /-- [16 b | R161 | 0] CLIP_COUNT -/
  clips : Nat := 0
  /-- [16 b | R161 | 0] ELEM_COUNT -/
  elems : Nat := 0
  deriving DecidableEq, Repr

/-- A work item (R216, R283). -/
structure WorkItem where
  /-- [16 b | R436 | -] context of its command -/
  ctx : Nat
  /-- [16 b | R188 | -] SEQ of its command -/
  seq : Nat
  /-- [2 b | R197 | -] stage of its command -/
  stage : Nat
  /-- [own 20 | R216 | -] row tile; run number of a VEC_RUN -/
  rt : Nat
  /-- [own 20 | R216 | -] column tile -/
  ct : Nat
  /-- [3 b | R221 | -] core of its command -/
  home : Nat
  /-- [4 b | R207 | -] engine the router first gave it -/
  first : Nat
  /-- [1 b | R207 | 0] STOLEN -/
  stolen : Bool := false
  /-- [1 b | R223 | 0] CHECK_FAIL -/
  checkFail : Bool := false
  /-- [4 b | R223 | none] engine excluded from the re-run -/
  excluded : Option Nat := none
  /-- [own 20 | R308 | none] Bell slot and version its blocks are tagged with -/
  tag : Option (Nat × Bool) := none
  /-- [own 14 | R709 | 0] instant at which it started on its engine -/
  started : Nat := 0
  /-- [own 14 | R709 R226 | 0] instant of the grant of a stolen or re-run item -/
  granted : Nat := 0
  deriving DecidableEq, Repr

/-- State of an accumulator set (R183). -/
inductive SetState where
  | free | filling | converting | veHeld
  deriving DecidableEq, Repr

/-- An accumulator set: words below M_ROWS and N_COLS of its tile, by row (R183, R234). -/
structure AccSet where
  /-- [2 b | R183 | DC 4: FREE] -/
  state : SetState := .free
  /-- [own 20 | R185 | none] the work item that filled it -/
  item : Option WorkItem := none
  /-- [64 x 32 x 32 b | R22 R183 | DC 4: 0] -/
  rows : List (List Word32) := []
  /-- [16 b | R207 | 0] tile status gathered so far -/
  status : Word16 := 0
  /-- [own 20 | R238 R312 | 0] its words are FP32 -/
  float : Bool := false
  deriving DecidableEq, Repr

/-- A body of a vector program under way: what is left of it where a port waits (R248, R356). -/
structure VeBody where
  /-- [own 20 | R283 | -] the work item whose body runs -/
  item : WorkItem
  /-- [1 b | R248 | -] accumulator set that it still holds; none for a VEC_RUN and after RELEASE -/
  set : Option Nat
  /-- [own 20 | R245 | -] instructions left, each with its loop index -/
  left : List (Nat × Nat)
  /-- [16 b | R285 | 0] tile status so far -/
  status : Word16 := 0
  /-- [144 B | R266 | 0] -/
  stats : TileStats := {}
  /-- [own 20 | R266 | 0] max-abs for the slot -/
  maxAbs : Frac := ⟨0, 1⟩
  /-- [own 20 | R276 | 0] the last instruction issued, where a port instruction may share its slot -/
  last : Option (Nat × Nat) := none
  deriving DecidableEq, Repr

/-- A vector engine's state (R234, R237). -/
structure VeState where
  /-- [own 20 | R237 | none] command whose program runs: its serial number and stage -/
  cmd : Option (Nat × Nat) := none
  /-- [own 20 | R248 R356 | none] the body under way -/
  body : Option VeBody := none
  /-- [own 20 | R243 | none] column tile of the last body -/
  lastCol : Option Nat := none
  /-- [own 20 | R283 | none] the work item of a VEC_RUN now running -/
  item : Option WorkItem := none
  /-- [32 x 8 x 32 x 32 b | R235 | 0] T0 to T31; an unlisted register is all zero -/
  tregs : KMap (List Word32) := []
  /-- [3 x 256 b | R234 R237 | 0] M1 to M3 -/
  masks : KMap (BitVec 256) := []
  /-- [8 x 32 b | R241 | DC 4: 0] Q0 to Q7 -/
  qs : List Word32 := []
  /-- [32 exact sums | R234 R269 | 0] check accumulator, WS -/
  ckS : KMap Frac := []
  /-- [32 exact sums | R269 | 0] check accumulator, magnitudes WA -/
  ckA : KMap Frac := []
  /-- [own 20 | R269 | 0] lanes of the check accumulator that have met a NaN -/
  ckNan : NSet := []
  /-- [own 20 | R269 | 0] lanes of the check accumulator that have met +∞ -/
  ckPos : NSet := []
  /-- [own 20 | R269 | 0] lanes of the check accumulator that have met −∞ -/
  ckNeg : NSet := []
  /-- [32 b | R234 R237 | 0] poisoned tile registers -/
  poisonT : NSet := []
  /-- [4 b | R234 R237 | 0] poisoned masks -/
  poisonM : NSet := []
  /-- [32 x 8 b | R234 R259 | 0] empty tags of rows, register x 8 + row -/
  emptyRow : NSet := []
  /-- [32 x 32 b | R234 R259 | 0] empty tags of lanes, register x 32 + lane -/
  emptyLane : NSet := []
  deriving DecidableEq, Repr

/-- A codebook slot of a Bell (R308). -/
structure BellSlot where
  /-- [own 20 | R308 | empty] identity: core, partition, B_CB_HANDLE, CODEBOOK_ID -/
  ident : Option (Nat × Nat × Nat × Nat) := none
  /-- [1 b | R308 R314 | 0] VERSION -/
  version : Bool := false
  /-- [R308 | R308 R314 | 0] TAG_COUNT -/
  tagCount : Nat := 0
  /-- [8 B + entries | R159 R297 | none] the record loaded -/
  record : List Byte := []
  /-- [own 20 | R309 | 0] order of loading, larger is more recent -/
  loadedAt : Nat := 0
  /-- [own 20 | R317 | 0] the load consumed a poisoned beat -/
  poison : Bool := false
  deriving DecidableEq, Repr

/-- The Bell of an engine (R302 to R310). -/
structure BellState where
  /-- [2 slots | R308 R314 | empty] -/
  slot0 : BellSlot := {}
  /-- [2 slots | R308 R314 | empty] -/
  slot1 : BellSlot := {}
  /-- [own 20 | R309 R310 | none] work items waiting for a codebook load, oldest first -/
  waiting : List WorkItem := []
  /-- [own 20 | R309 | none] load under way: slot and work item -/
  loading : Option (Nat × WorkItem) := none
  /-- [8 x 8 reads | R304 | none] extension reads outstanding: decoder and HBM address of the line -/
  extReads : List (Nat × Nat) := []
  /-- [own 20 | R288 R304 R317 | none] extension lines returned for the running work item: address, bytes, poison -/
  extDone : List (Nat × List Byte × Bool) := []
  /-- [own 20 | R302 R308 | 0] 32-step segments of the running work item decoded -/
  seg : Nat := 0
  /-- [own 20 | R308 | none] record of the codebook that the running work item is decoded with -/
  book : List Byte := []
  /-- [own 20 | R317 | 0] that record's load consumed a poisoned beat -/
  bookPoison : Bool := false
  /-- [own 20 | R310 R324 | none] since when the loader stalls -/
  stallSince : Option Nat := none
  /-- [5 x U64 | R324 | 0] core.bell_stats -/
  stats : List Nat := [0, 0, 0, 0, 0]
  deriving DecidableEq, Repr

/-- A matrix engine with its vector engine and Bell. -/
structure Engine where
  /-- [32 entries | R218 | none] work-item queue -/
  queue : List WorkItem := []
  /-- [own 20 | R219 R224 | none] a granted work item, stolen or re-run, that starts before those of the queue -/
  taken : Option WorkItem := none
  /-- [own 20 | R183 | none] the running work item and the set it fills -/
  running : Option (WorkItem × Nat) := none
  /-- [own 20 | R214 | 0] segments of the running work item done -/
  segs : Nat := 0
  /-- [2 sets | R183 | DC 4: FREE] S0 -/
  set0 : AccSet := {}
  /-- [2 sets | R183 | DC 4: FREE] S1 -/
  set1 : AccSet := {}
  /-- [vector engine | R234 | 0] -/
  ve : VeState := {}
  /-- [Bell | R308 | empty] -/
  bell : BellState := {}
  deriving DecidableEq, Repr

/-- Where a command stands (R233, R437). -/
inductive CmdPhase where
  /-- Validated and dispatched; its opcode's work is not yet done. -/
  | validated
  /-- Its work items or its operation are under way. -/
  | running
  /-- Everything it started has ended; only its completion is left. -/
  | drained
  deriving DecidableEq, Repr

/-- A walk of a MATMUL_GATHER or MATMUL_SCORE in progress (R410 to R418). -/
structure Walk where
  /-- [64 b | R412 | -] epoch of its registration -/
  epoch : Nat
  /-- [own 20 | R197 | -] stage of its command -/
  stage : Nat
  /-- [own 20 | R418 | -] spilled pairs not yet fetched: PEER, SLOT, even logical page, both GENs, first column, member -/
  pairs : List (Nat × Nat × Nat × Nat × Nat × Nat)
  /-- [64 b | R418 | none] instant of the pair request under way, with its link tags -/
  asked : Option Nat := none
  /-- [own 20 | R418 | 0] the request under way has come to the extensions of raw blocks -/
  ext : Bool := false
  deriving DecidableEq, Repr

/-- A command of an execution context between its dispatch and its completion record. -/
structure Cmd where
  /-- [16 b | R188 | -] -/
  ctx : Nat
  /-- [16 b | R188 | -] -/
  seq : Nat
  /-- [n x 64 B | R188 R197 | -] descriptors of its stages -/
  descs : List (BitVec 512)
  /-- [own 9 | R237 | -] a number that no other command bears: the draw made at its dispatch -/
  serial : Nat := 0
  /-- [n x 2056 B | R250 | none] vector programs as loaded, by stage -/
  progs : KMap (List Byte) := []
  /-- [2 b | R197 | 0] stage now issuing -/
  stage : Nat := 0
  /-- [own 20 | R233 | validated] -/
  phase : CmdPhase := .validated
  /-- [own 20 | R342 | -] mappings copied at validation, keyed stage x 256 + handle -/
  maps : KMap HandleEntry := []
  /-- [16 b each | R155 | none] latched scale of each stage that names a slot, BF16 -/
  latch : KMap Word16 := []
  /-- [own 20 | R155 | none] constant-channel marks, by stage -/
  constant : NSet := []
  /-- [own 105 | R169 R172 | none] stages that are wider re-runs of their layer -/
  wide : NSet := []
  /-- [32 b | R442 | none] the round it belongs to -/
  round : Option Nat := none
  /-- [own 20 | R218 | none] work items still with the router: engine and item -/
  held : List (Nat × WorkItem) := []
  /-- [own 20 | R218 | 0] work items of the current stage not yet completed -/
  left : Nat := 0
  /-- [own 20 | R206 R199 | none] tiles written: stage, row tile, column tile -/
  written : List (Nat × Nat × Nat) := []
  /-- [16 b | R207 R233 | 0] STATUS -/
  status : Word16 := 0
  /-- [16 b | R233 | 0] RERUNS -/
  reruns : Nat := 0
  /-- [32 b | R233 | 0] TILES -/
  tiles : Nat := 0
  /-- [32 b | R233 | 0] STOLEN -/
  stolen : Nat := 0
  /-- [64 b | R709 | -] end of dispatch -/
  dispatchedAt : Nat := 0
  /-- [own 14 | R709 | none] of each engine that has or had a work item, core x 16 + engine: the instant from which it
  counts and the end of its last work item -/
  spans : KMap (Nat × Nat) := []
  /-- [own 14 | R709 | none] intervals to remove from an engine's span: checksum re-runs and other commands' work items -/
  cuts : KMap (List (Nat × Nat)) := []
  /-- [own 14 | R126 | 0] numeric events of its tiles, by STATUS bit 0 to 4 -/
  events : List Nat := [0, 0, 0, 0, 0]
  /-- [16 b | R233 | 0] code it will complete with -/
  code : Word16 := 0
  /-- [own 20 | R356 | none] ring slots read: handle, slot -/
  ringRead : List (Nat × Nat) := []
  /-- [own 20 | R356 | none] ring slots written: handle, slot -/
  ringWrote : List (Nat × Nat) := []
  /-- [own 20 | R156 | none] max-abs in real units by scale slot -/
  maxAbs : KMap Frac := []
  /-- [own 20 | R410 | none] -/
  walk : Option Walk := none
  /-- [own 20 | R71 | 0] checkpoint decisions still to be written -/
  decisions : Nat := 0
  /-- [own 20 | R370 | none] credits of a CREDIT_ACQUIRE granted so far -/
  credits : Nat := 0
  deriving DecidableEq, Repr

/-- A piece of a stream-channel pass (R347). -/
structure Piece where
  /-- [own 20 | R347 | -] byte position in the pass -/
  pos : Nat
  /-- [12 b | R347 | -] bytes -/
  len : Nat
  /-- [len B | R349 | -] data read at the source, once it has been read -/
  data : List Byte
  /-- [own 20 | R378 | -] poison of each 64-byte beat -/
  poison : List Bool
  deriving DecidableEq, Repr

/-- State of a stream channel (R381). -/
inductive ChanState where
  | free | running | idle | failed
  deriving DecidableEq, Repr

/-- A stream channel (R344 to R363). -/
structure Channel where
  /-- [2 b | R381 | 0 free] -/
  state : ChanState := .free
  /-- [256 b | R344 | DC 4: 0] stream descriptor, addresses as last re-armed -/
  desc : BitVec 256 := 0
  /-- [16 b | R345 | DC 4: 0] context that started it -/
  ctx : Nat := 0
  /-- [16 b | R380 | DC 4: 0] SEQ of the command that armed the pass -/
  seq : Nat := 0
  /-- [own 20 | R342 | -] source mapping copied at the pass's start -/
  srcMap : HandleEntry := {}
  /-- [own 20 | R342 | -] destination mapping copied at the pass's start -/
  dstMap : HandleEntry := {}
  /-- [own 20 | R349 | 0] bytes of the pass issued -/
  issued : Nat := 0
  /-- [own 20 | R349 | none] pieces, or their parts within one ring slot, issued and not yet written -/
  flight : List Piece := []
  /-- [own 20 | R347 R476 | 0] transfer tags that its pieces hold -/
  tags : Nat := 0
  /-- [own 20 | R354 | 0] ring slot in which the pass began to write -/
  dstSlot : Nat := 0
  /-- [6 b | R355 | 0] next ring slot to drain -/
  srcSlot : Nat := 0
  /-- [1 b | R366 | 0] a credit request is with the target router -/
  creditAsked : Bool := false
  /-- [64 b | R375 | none] since when it waits for a pool buffer -/
  poolSince : Option Nat := none
  /-- [1 b | R362 | 0] PENDING, with the re-arm: new SRC_ADDR, new DST_ADDR, STOP, SEQ -/
  pending : Option (Option Nat × Option Nat × Bool × Nat) := none
  /-- [1 b | R362 | 0] OVERRUN -/
  overrun : Bool := false
  /-- [16 b | R381 | 0] code of the failure -/
  code : Word16 := 0
  /-- [own 20 | R380 | none] of a failed channel: slots of its destination ring, by ordinal of the pass, not yet marked full -/
  owed : List Nat := []
  deriving DecidableEq, Repr

/-- A holder of credits of a target handle (R367, R371). -/
inductive CreditHolder where
  | channel (core chan : Nat) | context (ctx : Nat)
  deriving DecidableEq, Repr

/-- A semaphore operation on its way to or at a semaphore store (R495). -/
inductive SemOp where
  | set (v : Word32) | add (v : Word32) | give (v : Word32) (ctx : Nat)
  deriving DecidableEq, Repr

/-- A wait kept at a semaphore store (R492, R495). -/
structure SemWait where
  /-- [16 b | R492 | -] -/
  ctx : Nat
  /-- [3 b | R495 | -] core of the waiting context -/
  core : Nat
  /-- [4 b | R495 | -] its slot, for the order of TAKEs -/
  slot : Nat
  /-- [12 b | R492 | -] -/
  index : Nat
  /-- [1 b | R492 | -] TAKE rather than GE -/
  take : Bool
  /-- [32 b | R492 | -] -/
  value : Word32
  deriving DecidableEq, Repr

/-- A TAKE not yet given back (R516). -/
structure TakeRec where
  /-- [16 b | R516 | -] -/
  ctx : Nat
  /-- [3 b | R516 | -] core of the context -/
  core : Nat
  /-- [12 b | R516 | -] -/
  index : Nat
  /-- [32 b | R516 | -] -/
  value : Word32
  deriving DecidableEq, Repr

/-- A semaphore store (R491). -/
structure SemStore where
  /-- [4096 x 32 b | R491 | 0] -/
  vals : KMap Word32 := []
  /-- [own 20 | R495 | none] operations that have reached the store and are not yet applied, in arrival order -/
  ops : List (Nat × SemOp) := []
  /-- [own 20 | R495 | none] waits -/
  waits : List SemWait := []
  /-- [records | R516 | none] TAKE records -/
  takes : List TakeRec := []
  /-- [8 x U32 | R500 | 0] core.sem_range by partition: first, count -/
  ranges : KMap (Nat × Nat) := []
  deriving DecidableEq, Repr

/-- A step named by a round record entry or a ready queue (R440, R442). -/
structure StepRef where
  /-- [14 b | R442 | -] STREAM_ID, or JOB_ID of a job step -/
  id : Nat
  /-- [R442 | R442 | -] chunk index, or job step index -/
  chunk : Nat
  /-- [1 b | R455 | 0] a job's step -/
  job : Bool := false
  deriving DecidableEq, Repr

/-- A step in a ready queue; its queue is (model slot, stage, variant, class) (R440). -/
structure ReadyStep where
  step : StepRef
  /-- [6 b | R440 | -] model slot -/
  slot : Nat
  /-- [8 b | R440 | -] -/
  stage : Nat
  /-- [1 b | R440 | -] -/
  fallback : Bool
  /-- [1 b | R440 | -] -/
  be : Bool
  /-- [64 b | R440 | -] -/
  deadline : Nat
  /-- [64 b | R440 | -] instant of eligibility -/
  since : Nat
  /-- [16 b | R440 | -] tenant -/
  tenant : Nat
  /-- [1 b | R447 R523 | 0] returned to the head of its queue -/
  returned : Bool := false
  deriving DecidableEq, Repr

/-- A round (R440 to R447). -/
structure Round where
  /-- [32 b | R442 | -] ROUND_SEQ -/
  seq : Nat
  /-- [16 b | R440 | -] context that serves it -/
  ctx : Nat
  /-- [6 b | R440 | -] -/
  slot : Nat
  /-- [8 b | R442 | -] -/
  stage : Nat
  /-- [1 b | R442 | -] -/
  fallback : Bool
  /-- [1 b | R442 | -] -/
  be : Bool
  /-- [own 20 | R442 | -] steps with their OPT_OFF bit -/
  steps : List ReadyStep
  /-- [64 b | R442 | -] earliest deadline -/
  deadline : Nat
  /-- [64 b | R442 | -] -/
  formedNs : Nat
  /-- [1 b | R441 | 0] its first command has been dispatched -/
  inFlight : Bool := false
  /-- [1 b | R446 | 0] ordered to yield -/
  yielding : Bool := false
  /-- [1 b | R447 | 0] it has yielded -/
  yielded : Bool := false
  /-- [1 b | R441 | 0] its round-end store has been made -/
  ended : Bool := false
  /-- [1 b | R457 | 0] its job has been cancelled: its steps are not returned -/
  cancelled : Bool := false
  /-- [1 b | R523 | 0] a command or channel of it received a REC_FENCED answer: its steps return at the resume -/
  fenced : Bool := false
  /-- [own 20 | R155 | none] latched scale, constant mark and max-abs of each slot its commands named; the slot table's base with the slot number -/
  latches : KMap (Word16 × Bool × Frac) := []
  /-- [16 b | R166 R458 | -] clip threshold latched at formation -/
  clipThreshold : Nat := 64
  /-- [1 b | R169 | 0] a wider re-run has been granted for a chunk of the round -/
  wider : Bool := false
  /-- [own 14 | R126 | 0] numeric events of its completed commands -/
  events : List Nat := [0, 0, 0, 0, 0]
  /-- [own 105 | R163 | none] totals of the tensors whose tile records the round wrote, by VEC_HANDLE x 65,536 + VEC_OFFSET -/
  tensors : KMap TileStats := []
  deriving DecidableEq, Repr

/-- State of a recovery sequencer (R512, R534). -/
inductive RecState where
  | running | fenced | resetting | resuming
  deriving DecidableEq, Repr

/-- A recovery sequencer of a core or a die (R512). -/
structure Sequencer where
  /-- [8 b | R534 | 0 running] -/
  state : RecState := .running
  /-- [64 b | R512 | DC 4: 0] D -/
  declared : Nat := 0
  /-- [64 b | R79 R512 | DC 4: 0] L, or the instant the request was applied -/
  lastProgress : Nat := 0
  /-- [3 b | R519 | 0] CAUSE -/
  cause : Nat := 0
  /-- [64 b | R525 | DC 4: 0] start of the reset -/
  resetAt : Nat := 0
  /-- [64 b | R512 | none] instant at which latency-critical service resumes -/
  serviceAt : Option Nat := none
  /-- [4 b | R518 | none] dump slot of the sample under way -/
  dump : Option Nat := none
  /-- [own 20 | R520 | none] parts of the sample not yet read, in order: banks by number, 32 handle table, 33 queue
  pointers, 34 progress counters -/
  unread : List Nat := []
  /-- [own 20 | R520 | 0] instant at which the sample last timed out on a part, or began -/
  dumpLast : Nat := 0
  /-- [64 b | R534 | 0] resets counted -/
  resets : Nat := 0
  /-- [64 b | R534 | 0] instant of the last -/
  lastNs : Nat := 0
  /-- [1 b | R525 | 0] handled by its die's sequencer -/
  byDie : Bool := false
  /-- [64 b | R512 | DC 4: 0] instant at which the reset was complete -/
  doneAt : Nat := 0
  /-- [1 b | R79 | 0] declared before latency-critical service resumed after the reset before -/
  gap : Bool := false
  deriving DecidableEq, Repr

/-- Progress counter of a unit (R501). -/
structure Progress where
  /-- [32 b | R518 | 0] -/
  count : Nat := 0
  /-- [64 b | R502 | 0] instant of the last advance -/
  last : Nat := 0
  /-- [64 b | R502 | none] start of the current pending period -/
  since : Option Nat := none
  deriving DecidableEq, Repr

/-- A checkpoint report on its way to the deadline monitor (R71). -/
structure CkptReport where
  /-- [16 b | R71 | -] context of the CHECKPOINT -/
  ctx : Nat
  /-- [16 b | R71 | -] SEQ of the CHECKPOINT -/
  seq : Nat
  /-- [8 b | R71 | -] record number -/
  n : Nat
  /-- [6 b | R69 | -] CHECKPOINT -/
  ckpt : Nat
  /-- [1 b | R69 | -] VARIANT -/
  fallback : Bool
  /-- [14 b | R70 | -] -/
  stream : Nat
  /-- [1 b | R70 | -] -/
  poison : Bool
  /-- [1 b | R70 | -] -/
  clip : Bool
  /-- [own 20 | R70 | -] chunk index -/
  chunk : Nat
  /-- [1 b | R171 | -] -/
  be : Bool
  deriving DecidableEq, Repr

/-- A compute core with its fabric port, semaphore store, Drone slice and the hub's records of it. -/
structure Core where
  /-- [16 | R20 | idle] engines; an unlisted engine is as after reset -/
  engines : KMap Engine := []
  /-- [4 MiB | R325 | DC 5: 0] bore memory by physical address -/
  bore : Mem := []
  /-- [65536 b | R329 | DC 4: 0] poisoned bore lines, bank x 2048 + line -/
  borePoison : NSet := []
  /-- [256 x 32 B | R338 | 0] handle table -/
  handles : KMap HandleEntry := []
  /-- [256 x 32 B | R511 | 0] shadow of the handle table -/
  shadow : KMap HandleEntry := []
  /-- [512 B | R373 | DC 4: 0] pool-map table -/
  poolMap : Mem := []
  /-- [own 20 | R375 | none] pool buffers in use: handle x 64 + slot to buffer -/
  poolUsed : KMap Nat := []
  /-- [64 channels | R344 | free] -/
  channels : KMap Channel := []
  /-- [16 slots | R436 | empty] context store: slot to CONTEXT_ID -/
  slots : KMap Nat := []
  /-- [own 20 | R448 | none] swaps under way: CONTEXT_ID, slot, start -/
  swaps : List (Nat × Nat × Nat) := []
  /-- [own 20 | R233 | none] commands in flight, oldest first -/
  cmds : List Cmd := []
  /-- [own 20 | R223 | none] re-run queue -/
  rerun : List WorkItem := []
  /-- [16384 tags | R476 | 0] tags in use -/
  tags : Nat := 0
  /-- [64 b | R500 | 0] peak of tags in use -/
  tagPeak : Nat := 0
  /-- [64 b | R500 | 0] cycles that requesters waited for a tag -/
  tagWait : Nat := 0
  /-- [own 20 | R477 | none] units that wait for a tag, numbered as in R518, with the instant since which they do -/
  tagSince : KMap Nat := []
  /-- [semaphore store | R491 | 0] -/
  sems : SemStore := {}
  /-- [own 20 | R367 | none] credit requests to this core's handles, in order: handle, holder, count, instant -/
  creditReqs : List (Nat × CreditHolder × Nat × Nat) := []
  /-- [own 20 | R367 | none] credits granted and not yet spent or returned: handle, holder, count -/
  credits : List (Nat × CreditHolder × Nat) := []
  /-- [own 20 | R367 | none] ring slots covered by a spent credit and not yet filled, handle x 64 + slot, with the holder's core -/
  spent : KMap Nat := []
  /-- [own 20 | R440 | none] ready queues of the core, in order of arrival -/
  ready : List ReadyStep := []
  /-- [own 20 | R441 | none] rounds formed and not yet gone, oldest first -/
  rounds : List Round := []
  /-- [32 b | R442 | DC 4: 0] ROUND_SEQ of the next round -/
  roundSeq : Nat := 0
  /-- [own 20 | R451 | 0] virtual time by tenant -/
  vtime : KMap Frac := []
  /-- [4 x U8 | R453 | 0xFF] core.prep_partition; unlisted reads 0xFF -/
  preps : KMap Nat := []
  /-- [own 130 | R406 R704 | none] partial flushes that wait for room in the system context's queue: partition, descriptor -/
  flushes : List (Nat × BitVec 512) := []
  /-- [4 b | R379 | DC 4: 0] prep cores whose current step has POISON_SEEN -/
  poisonSeen : NSet := []
  /-- [own 20 | R71 | none] checkpoint reports waiting at the monitor -/
  reports : List CkptReport := []
  /-- [117 counters | R501 | 0] progress counters, numbered as in R518 -/
  progress : KMap Progress := []
  /-- [16 x times | R227 R229 | none] mismatch instants by engine -/
  mismatch : KMap (List Nat) := []
  /-- [16 x U64 | R231 | 0] core.me_mismatch_total -/
  mismatchTotal : KMap Nat := []
  /-- [4 x U64 | R231 | 0] core.steal_stats -/
  stealStats : List Nat := [0, 0, 0, 0]
  /-- [4 x U64 | R381 | 0] core.pool_stats -/
  poolStats : List Nat := [0, 0, 0, 0]
  /-- [4 x U64 | R453 | 0] core.sched_stats -/
  schedStats : List Nat := [0, 0, 0, 0]
  /-- [2 x U64 | R534 | 0] health.bore_errors -/
  boreErrors : List Nat := [0, 0]
  /-- [sequencer | R512 | running] -/
  seqr : Sequencer := {}
  /-- [64 b x n | R531 | none] first-error units of compute resets, numbered as in R518, and instants -/
  hangs : List (Nat × Nat) := []
  /-- [1 b | R67 | 0] OVERCOMMIT already reported -/
  overcommit : Bool := false
  /-- [own 20 | R304 R513 | none] reads of the core answered by the fence -/
  fencedReads : Nat := 0
  deriving DecidableEq, Repr

/-- An execution-context image (R436). -/
structure Ctx where
  /-- [3 b | R436 | -] core it belongs to -/
  core : Nat := 0
  /-- [3 b | R436 | -] -/
  part : Nat := 0
  /-- [2 b | R436 | -] -/
  cls : Nat := 0
  /-- [1 b | R436 | -] -/
  pin : Bool := false
  /-- [2 b | R436 | -] -/
  prep : Nat := 0
  /-- [16 b | R436 | -] -/
  tenant : Nat := 0
  /-- [1 b | R436 R437 | 0] HALTED -/
  halted : Bool := false
  /-- [16 b | R191 R436 | 0] -/
  seqNext : Nat := 0
  /-- [40 b | R436 | -] -/
  queueBase : Nat := 0
  /-- [4 b | R436 | -] -/
  queueLog2 : Nat := 0
  /-- [4 b | R436 | -] -/
  cringLog2 : Nat := 0
  /-- [16 b | R436 R708 | 0] -/
  head : Nat := 0
  /-- [16 b | R436 R708 | 0] -/
  tail : Nat := 0
  /-- [40 b | R436 | -] -/
  cringBase : Nat := 0
  /-- [16 b | R436 R708 | 0] -/
  cringWr : Nat := 0
  /-- [16 b | R436 R708 | 0] -/
  cringRd : Nat := 0
  /-- [8 b | R436 R444 | 0] -/
  holdCount : Nat := 0
  /-- [40 b | R436 | -] -/
  semsetBase : Nat := 0
  /-- [16 b | R436 | -] -/
  semsetCount : Nat := 0
  /-- [40 b | R436 | -] -/
  inboxBase : Nat := 0
  /-- [64 b | R436 | 0] WAIT_SINCE_NS -/
  waitSince : Nat := 0
  /-- [64 b | R436 | all ones] ROUND_DEADLINE_NS -/
  roundDeadline : Nat := 2^64 - 1
  /-- [8 b | R434 | -] stage it serves -/
  stage : Nat := 0
  /-- [1 b | R434 | -] -/
  fallback : Bool := false
  /-- [6 b | R434 | none] model slot it serves; none for a system context -/
  slot : Option Nat := none
  /-- [own 20 | R443 | 0] instant its head command became dispatchable -/
  readySince : Nat := 0
  /-- [own 20 | R448 | 0] instant it last ran -/
  lastRun : Nat := 0
  /-- [1 b | R437 R492 | 0] a SEMSET or SEM_WAIT of its head command is registered at a store; `some` with the timeout's end -/
  waiting : Option (Option Nat) := none
  /-- [1 b | R492 | 0] the wait of its head command has been satisfied -/
  satisfied : Bool := false
  /-- [1 b | R447 | 0] commands appended are discarded until the round-end store -/
  dropping : Bool := false
  deriving DecidableEq, Repr

/-! ### Memory system -/

/-- A line being fetched by a Windchest slice (R473). -/
structure Miss where
  /-- [33 b | R470 | -] line number, address / 128 -/
  line : Nat
  /-- [3 b | R472 | -] partition of the first reader -/
  part : Option Nat
  deriving DecidableEq, Repr

/-- HBM, the Windchest and the walk-epoch logic. -/
structure MemSys where
  /-- [288 GiB | R461 | DC 5: 0] plaintext bytes by HBM address -/
  hbm : Mem := []
  /-- [64-byte lines | R467 | DC 4: none] lines that hold the poison signature -/
  poison : NSet := []
  /-- [49152 sets x 16 ways | R470 | DC 4: empty] Windchest: slice x 3072 + set to (way, line), least recently used first -/
  sets : KMap (List (Nat × Nat)) := []
  /-- [16 x 64 trackers | R473 | none] misses by slice -/
  misses : KMap (List Miss) := []
  /-- [16 x 4 x U64 | R500 | 0] partition.wc_stats by slice -/
  wcStats : KMap (List Nat) := []
  /-- [12 x 4 x U64 | R534 | 0] health.hbm_errors by stack -/
  hbmErrors : KMap (List Nat) := []
  /-- [12 | R469 | DC 4: 0] next line of each stack's scrub pass -/
  scrub : KMap Nat := []
  /-- [12 x 64 b | R506 | DC 4: 0] start of each stack's scrub pass -/
  scrubStart : KMap Nat := []
  /-- [8 x 64 b | R412 | 0] walk epoch by partition -/
  epoch : KMap Nat := []
  /-- [own 20 | R412 | none] freed values in quarantine by partition, oldest first: value, epoch -/
  freed : KMap (List (Word64 × Nat)) := []
  /-- [12 b | R414 | DC 4: 0] next entry of each release ring -/
  releaseWr : KMap Nat := []
  /-- [8 x 8 x U64 | R425 | 0] partition.kv_stats -/
  kvStats : KMap (List Nat) := []
  /-- [4096 tags | R478 | 0] hub tags in use -/
  hubTags : Nat := 0
  /-- [12 x key | R465 | none] generation of each extent's key; counts Ligature's key creations -/
  keyGen : Nat := 0
  deriving DecidableEq, Repr

/-! ### Event log, recovery and dumps -/

/-- An event record (R497). DETAIL as its items with their widths in bits (R584). -/
structure EventRec where
  /-- [64 b | R497 | -] -/
  time : Nat
  /-- [16 b | R497 | -] -/
  event : Word16
  /-- [16 b | R497 | -] -/
  code : Word16
  /-- [8 b | R497 | -] -/
  kind : BitVec 8
  /-- [16 b | R497 | -] -/
  index : Nat
  /-- [1 b | R497 | -] -/
  late : Bool
  /-- [128 b | R497 R584 | -] -/
  detail : List (Nat × Int)
  deriving DecidableEq, Repr

/-- A first-error record (R528). -/
structure FirstError where
  /-- [64 b | R528 | 0] -/
  time : Nat := 0
  /-- [16 b | R528 | 0] -/
  event : Word16 := 0
  /-- [16 b | R528 | 0] -/
  code : Word16 := 0
  /-- [8 b | R528 | 0] -/
  kind : BitVec 8 := 0
  /-- [16 b | R528 | 0] -/
  index : Nat := 0
  /-- [32 b | R528 | 0] -/
  later : Nat := 0
  deriving DecidableEq, Repr

/-- A queue-pointer record of a dump (R518). -/
structure QpRec where
  /-- [16 b | R518 | -] -/
  ctxId : Nat
  /-- [16 b | R518 | -] -/
  head : Nat
  /-- [16 b | R518 | -] -/
  tail : Nat
  /-- [16 b | R518 | -] -/
  cringWr : Nat
  /-- [16 b | R518 | -] -/
  cringRd : Nat
  /-- [16 b | R518 | -] -/
  seqNext : Nat
  /-- [3 b | R518 | -] -/
  state : Nat
  /-- [8 b | R518 | -] -/
  hold : Nat
  deriving DecidableEq, Repr

/-- A crash-dump slot (R518, R519). -/
structure Dump where
  /-- [64 b | R519 | 0] -/
  detect : Nat := 0
  /-- [64 b | R519 | 0] -/
  endNs : Nat := 0
  /-- [3 b | R519 | 0] -/
  core : Nat := 0
  /-- [2 b | R519 | 0] -/
  level : Nat := 0
  /-- [3 b | R519 | 0] -/
  cause : Nat := 0
  /-- [8 b | R519 | 0] -/
  unitKind : Nat := 0
  /-- [8 b | R519 | 0] -/
  unitIndex : Nat := 0
  /-- [1 b | R519 | 0] -/
  complete : Bool := false
  /-- [1 b | R519 R521 | 0] -/
  locked : Bool := false
  /-- [32 b | R519 | 0] unreadable banks -/
  bankBad : NSet := []
  /-- [1 b | R519 | 0] -/
  htBad : Bool := false
  /-- [1 b | R519 | 0] -/
  qpBad : Bool := false
  /-- [1 b | R519 | 0] -/
  pcBad : Bool := false
  /-- [32 b | R519 | 0] SEQUENCE -/
  sequence : Nat := 0
  /-- [16 records | R518 | 0] -/
  qps : KMap QpRec := []
  /-- [192 records | R518 | 0] -/
  pcs : KMap Progress := []
  /-- [256 entries | R518 | 0] -/
  hts : KMap HandleEntry := []
  /-- [32 x 4 KiB | R518 | 0] bytes of the banks by physical bore address -/
  banks : Mem := []
  deriving DecidableEq, Repr

/-- Event log, error queue, dump slots and die sequencers of the hub. -/
structure Recovery where
  /-- [own 20 | R498 | none] event records held by the hub, in order of issue -/
  heldEvents : List EventRec := []
  /-- [262144 x 32 B | R498 | none] the log, newest first, by record number -/
  log : List (Nat × EventRec) := []
  /-- [64 b | R561 R580 | 0] health.event_head -/
  eventHead : Nat := 0
  /-- [64 b | R561 | 0] first record number since power-on or module reset -/
  firstRecord : Nat := 0
  /-- [11 x 32 B | R528 | 0] first-error records by domain: 0-7 core, 8-9 die, 10 module -/
  first : KMap FirstError := []
  /-- [own 20 | R530 | none] error queue in TIME_NS order -/
  errors : List EventRec := []
  /-- [16 x 144 KiB | R518 R521 | 0] dump slots, die x 8 + slot -/
  dumps : KMap Dump := []
  /-- [2 x 32 b | R519 | DC 4: 0] dump number of each die -/
  dumpSeq : KMap Nat := []
  /-- [2 sequencers | R512 R525 | running] -/
  dies : KMap Sequencer := []
  /-- [64 b | R227 | none] last instant of PACKET_POOL_DROP by port -/
  poolDropAt : KMap Nat := []
  /-- [8 x 5 x U64 | R534 | 0] health.poison_stats by partition -/
  poisonStats : KMap (List Nat) := []
  deriving DecidableEq, Repr

/-! ### Clotha, management port and telemetry -/

/-- Where a request came from and where its response goes (R562, R567). -/
inductive Via where
  | udp (port : Nat) (addr : IpAddr) (udpPort : Word16)
  | mgmt
  deriving DecidableEq, Repr

/-- A request waiting for application (R568). -/
structure Req where
  /-- [own 20 | R562 | -] -/
  via : Via
  /-- [8 b | R548 | -] -/
  opcode : Nat
  /-- [16 b | R548 | -] -/
  keyId : Nat
  /-- [64 b | R548 | -] -/
  counter : Nat
  /-- [32 b | R548 | -] -/
  reqId : Nat
  /-- [n B | R548 | -] -/
  body : List Byte
  /-- [1 b | R573 R636 | 0] its key has been revoked since it arrived -/
  revoked : Bool := false
  deriving DecidableEq, Repr

/-- A response or telemetry message as sent (R548, R552, R554). -/
structure Msg where
  /-- [own 20 | R562 | -] -/
  via : Via
  /-- [8 b | R548 | -] -/
  opcode : Nat
  /-- [16 b | R548 | -] -/
  keyId : Nat
  /-- [64 b | R548 | -] -/
  counter : Nat
  /-- [32 b | R548 | -] -/
  reqId : Nat
  /-- [16 b | R548 | -] -/
  code : Word16
  /-- [64 b | R548 | -] -/
  time : Nat
  /-- [n B | R548 | -] -/
  body : List Byte
  /-- [n B | R549 | -] bulk data of a management-port response -/
  bulk : List Byte
  /-- [own 6 | R552 R554 | -] tagged with the key it names -/
  tagged : Bool
  deriving DecidableEq, Repr

/-- A kept response (R555); `resp` is none while the request is being applied. -/
structure Kept where
  /-- [own 20 | R555 | -] -/
  req : Req
  /-- [own 20 | R555 | -] -/
  resp : Option Msg
  /-- [64 b | R555 | -] instant it was kept -/
  since : Nat
  /-- [own 20 | R555 | none] matching requests that wait for the response -/
  waiters : List Req := []
  deriving DecidableEq, Repr

/-- A commit of persistent values to flash under way (R542, R543). -/
structure Commit where
  /-- [own 20 | R542 | -] the values to commit -/
  snap : Persist
  /-- [own 20 | R542 | -] the WRITE that is answered when it completes -/
  answer : Option Msg
  /-- [64 b | R542 | -] instant of the change -/
  since : Nat
  deriving DecidableEq, Repr

/-- Sampling state of a telemetry map (R577, R578). -/
structure TelState where
  /-- [64 b | R577 | 0] COUNTER of the last message -/
  counter : Nat := 0
  /-- [64 b | R580 | 0] messages sent -/
  sent : Nat := 0
  /-- [64 b | R580 | 0] samples skipped -/
  skipped : Nat := 0
  /-- [own 20 | R578 | none] message that its port has not been able to send -/
  unsent : Option Msg := none
  /-- [64 b | R577 | none] instant of the last sample -/
  lastAt : Option Nat := none
  deriving DecidableEq, Repr

/-- The object dictionary's transports (R562 to R579). -/
structure Clotha where
  /-- [256 per port | R563 R568 | none] the hub's request queue in arrival order -/
  queue : List Req := []
  /-- [1024 per key | R555 | none] kept responses, oldest first -/
  kept : List Kept := []
  /-- [3 x 6 x U64 | R580 | 0] comm.stats -/
  stats : KMap (List Nat) := []
  /-- [2 x 64 b | R554 | none] last CLO_AUTH_FAIL event by transport -/
  authEventAt : KMap Nat := []
  /-- [2 | R554 | none] untagged replay answers in the current second: second and count, by port -/
  replayRate : KMap (Nat × Nat) := []
  /-- [own 20 | R542 | none] flash commits under way, oldest first -/
  commits : List Commit := []
  /-- [4096 B | R565 | DC 4: 0] request mailbox -/
  mailbox : Mem := []
  /-- [4096 B | R565 | DC 4: 0] response mailbox -/
  respBox : List Byte := []
  /-- [64 KiB | R565 | DC 4: 0] bulk window -/
  bulk : List Byte := []
  /-- [1 b | R566 | 0] REQ_BUSY -/
  reqBusy : Bool := false
  /-- [1 b | R566 | 0] RESP_VALID -/
  respValid : Bool := false
  /-- [16 b | R566 | 0] RESP_BYTES -/
  respBytes : Nat := 0
  /-- [16 b | R566 | 0] TLM_FRESH -/
  fresh : NSet := []
  /-- [16 x 4 KiB | R565 R579 | DC 4: 0] telemetry windows -/
  windows : KMap (List Byte) := []
  /-- [16 maps | R577 | 0] -/
  tel : KMap TelState := []
  /-- [DICT_READY | R566 R574 | 0] -/
  dictReady : Bool := false
  /-- [own 17 | R564 R565 | none] bytes driven on OCT_DQ in the last transaction of the management port -/
  ocRead : List Byte := []
  deriving DecidableEq, Repr

/-! ### Network, links and time -/

/-- A frame or pulse the module has put out, for an observer (log entry 17). -/
inductive TxItem where
  | clotha (m : Msg)
  | result (port : Nat) (be : Bool) (addr : IpAddr) (udpPort srcPort : Word16) (header : List Byte) (payload : List Byte)
  | arpReply (port : Nat) (toMac : BitVec 48) (ip : BitVec 32)
  | neighbourAdvert (port : Nat) (toMac : BitVec 48) (ip : IpAddr)
  | echoReply (port : Nat) (dest : IpAddr) (src : IpAddr) (data : List Byte)
  | resolve (port : Nat) (ip : IpAddr)
  | delayReq (port : Nat)
  | ppsOut
  | link (l : Nat) (header : BitVec 128) (payload : List Byte)
  | linkNak (l lastGood : Nat)
  | linkKey (l : Nat)
  | linkRekey (l : Nat)
  deriving DecidableEq, Repr

/-- What an Ethernet frame that a port sends is marked with (R587, R596). -/
structure TxTag where
  /-- [6 b | R596 | -] DSCP of an IP packet; none of another frame -/
  dscp : Option (BitVec 8)
  /-- [12 b and 3 b | R587 R596 | -] VLAN ID and priority of the 802.1Q tag; none of an untagged frame -/
  vlan : Option (Word16 × BitVec 8)
  deriving DecidableEq, Repr

/-- A registered frame that waits in a receive FIFO for a pool buffer (R593). -/
structure FifoFrame where
  /-- [own 20 | R590 | -] media rather than control -/
  media : Bool
  /-- [own 20 | R593 | -] bytes -/
  bytes : Nat
  /-- [64 b | R593 | -] instant of arrival -/
  since : Nat
  /-- [own 20 | R592 | -] the packet -/
  pkt : RxPacket
  /-- [own 20 | R604 | -] -/
  authOk : Bool
  deriving DecidableEq, Repr

/-- An Ethernet port (R585 to R596). -/
structure Port where
  /-- [8 b | R629 | 0] link up -/
  up : Bool := false
  /-- [9 x U64 | R629 | 0] port.state counters: FEC corrected, FEC uncorrectable, frames received, frames sent, drops by
  FCS, size, classification, FIFO, pool -/
  counts : List Nat := [0, 0, 0, 0, 0, 0, 0, 0, 0]
  /-- [64 b | R629 | 0] PAUSE and PFC holds -/
  holds : Nat := 0
  /-- [64 b | R588 | none] end of the transmission hold -/
  holdUntil : Option Nat := none
  /-- [256 KiB | R593 | empty] receive FIFO -/
  fifo : List FifoFrame := []
  /-- [own 20 | R589 | none] resolved next hops -/
  hops : List (IpAddr × BitVec 48) := []
  /-- [own 20 | R589 | none] next hops being resolved -/
  resolving : List IpAddr := []
  /-- [own 20 | R588 R589 | none] frames that wait for their next hop, or for the end of a hold -/
  txWait : List (Option IpAddr × TxItem) := []
  deriving DecidableEq, Repr

/-- An SRTP key slot (R601 to R603). -/
structure SrtpSlot where
  /-- [16 b | R602 | none] owner -/
  owner : Nat
  /-- [56 B | R601 | 0] keys in effect -/
  keys : List Byte
  /-- [56 B | R603 | none] keys written and taking effect at the stream's next chunk -/
  next : Option (List Byte) := none
  /-- [64 b | R603 | none] end of the overlap, with the old keys -/
  old : Option (Nat × List Byte) := none
  deriving DecidableEq, Repr

/-- The network side of the hub. -/
structure Net where
  /-- [2 ports | R585 | down] -/
  ports : KMap Port := []
  /-- [8192 buffers | R591 | 0] packet-pool buffers in use by channel: 0-1 media, 2-3 control, 4-5 egress, 6-13 link receive,
  14-15 best-effort results of each port, which have no reserve (R594) -/
  pool : KMap Nat := []
  /-- [4096 slots | R601 R602 | no owner] -/
  srtp : KMap SrtpSlot := []
  /-- [own 17 | R562 | none] frames sent, newest first -/
  tx : List TxItem := []
  /-- [own 17 | R587 R596 | none] marking of the Ethernet frames sent, newest first -/
  tags : List TxTag := []
  deriving DecidableEq, Repr

/-- A link message waiting for its acknowledgement or response (R624). -/
structure LinkWait where
  /-- [10 b | R621 | -] TAG -/
  tag : Nat
  /-- [own 20 | R625 | -] link request it belongs to: partition and ring index; none for a pair request -/
  req : Option (Nat × Nat)
  /-- [own 20 | R418 | -] pair request it belongs to: context -/
  ctx : Option Nat
  /-- [own 20 | R621 | -] 0 write, 2 read -/
  op : Nat
  /-- [40 b | R626 | -] where a read response is written -/
  dest : Nat
  /-- [own 20 | R621 | -] bytes -/
  len : Nat
  /-- [3 b | R624 | -] partition -/
  part : Nat
  /-- [64 b | R624 | -] instant sent -/
  since : Nat
  /-- [64 b | R646 | 0] epoch of the key it was sent under -/
  epoch : Nat := 0
  deriving DecidableEq, Repr

/-- A scale link (R614 to R629). -/
structure Link where
  /-- [8 b | R629 | 0] up: trained and keyed -/
  up : Bool := false
  /-- [1 b | R617 | 0] all eight lanes are trained -/
  trained : Bool := false
  /-- [own 6 | R645 | none] epoch of the key in use; none while not keyed -/
  epoch : Option Nat := none
  /-- [own 6 | R645 | 0] epochs made -/
  epochs : Nat := 0
  /-- [64 b | R622 | 0] messages sent under the key -/
  txCounter : Nat := 0
  /-- [own 6 | R646 | none] old epoch still accepted on receive -/
  oldEpoch : Option Nat := none
  /-- [12 b | R615 | 0] SEQ of the next data flit -/
  txSeq : Nat := 0
  /-- [12 b | R616 | 0] SEQ expected next -/
  rxSeq : Nat := 0
  /-- [1 b | R616 | 0] discarding until the replay -/
  nakSent : Bool := false
  /-- [512 flits | R616 | empty] replay buffer: SEQ, TC -/
  replay : List (Nat × Nat) := []
  /-- [own 20 | R616 | 0] replays of the oldest flit without an acknowledgement -/
  replayed : Nat := 0
  /-- [5 | R618 R619 | 16, 192, 160, 64, 64] transmit credits by class -/
  credits : List Nat := [16, 192, 160, 64, 64]
  /-- [own 20 | R619 | 0] received flits whose credit is still owed, by class -/
  owed : List Nat := [0, 0, 0, 0, 0]
  /-- [own 20 | R619 | none] flits waiting to be sent, by class -/
  txq : List (Nat × Nat) := []
  /-- [own 140 | R619 | 0, 0] flits of classes 1 and 2 sent since both had none waiting -/
  served : Nat × Nat := (0, 0)
  /-- [own 20 | R625 | none] link requests queued and not yet sent whole: partition, ring index, bytes sent -/
  reqs : List (Nat × Nat × Nat) := []
  /-- [1024 tags | R621 R624 | none] messages outstanding -/
  waits : List LinkWait := []
  /-- [10 b | R621 | 0] next TAG -/
  nextTag : Nat := 0
  /-- [16 B | R629 | empty] peer serial -/
  peerSerial : List Byte := []
  /-- [3 x U64 | R629 | 0] CRC errors, replays, downs -/
  counts : List Nat := [0, 0, 0]
  /-- [64 b | R617 | none] instant the link went down or began to train -/
  trainSince : Option Nat := none
  /-- [1 b | R617 | 0] the peer has been reported absent -/
  peerAbsent : Bool := false
  /-- [own 20 | R459 | 2] exw11_flush_max in effect at the current payload -/
  flushEff : Nat := 2
  deriving DecidableEq, Repr

/-- A link request taken from a partition's link ring and not yet completed (R625). -/
structure LinkReq where
  /-- [3 b | R625 | -] -/
  part : Nat
  /-- [10 b | R625 | -] ring index -/
  idx : Nat
  /-- [256 b | R625 | -] the request -/
  word : BitVec 256
  /-- [own 20 | R626 | -] messages not yet acknowledged -/
  left : Nat
  /-- [16 b | R625 | 0] code so far -/
  code : Word16 := 0
  deriving DecidableEq, Repr

/-- A PTP transmitter that the module hears (R608). -/
structure PtpPeer where
  ident : Word64
  /-- [own 21 | R608 | -] its dataset as the best master clock algorithm ranks it -/
  rank : Nat
  /-- [R610 | R610 | -] announce interval -/
  interval : Nat
  /-- [64 b | R610 | -] last Announce heard -/
  heard : Nat
  deriving DecidableEq, Repr

/-- The timebase (R24, R608 to R613). -/
structure TimeBase where
  /-- [64 b | R24 | DC 4: 0] timebase in ns -/
  now : Nat := 0
  /-- [1 b | R24 | 0] the TIME domain runs -/
  running : Bool := false
  /-- [8 b | R610 | 0 free-running] time.state: 0 free-running, 1 acquiring, 2 disciplined, 3 holdover -/
  state : Nat := 0
  /-- [1 b | R613 | 0] free-running was entered from holdover and discipline has not been regained -/
  lost : Bool := false
  /-- [64 b | R610 | 0] start of the current run of in-bound measurements -/
  goodSince : Nat := 0
  /-- [64 b | R610 | 0] last offset measurement -/
  lastMeas : Nat := 0
  /-- [own 20 | R610 | 0] seconds of the run that hold a measurement -/
  goodSecs : NSet := []
  /-- [64 b | R610 | 0] last Sync or PPS_IN edge -/
  lastSync : Nat := 0
  /-- [64 b | R610 | none] start of the holdover -/
  holdSince : Option Nat := none
  /-- [64 b | R612 | none] instant, in ns, of the whole second that the next PPS_IN edge marks -/
  ppsNext : Option Nat := none
  /-- [1 b | R610 | 0] time.pps_epoch has been written and no edge has come since -/
  ppsArmed : Bool := false
  /-- [transmitters | R608 | none] -/
  peers : List PtpPeer := []
  /-- [64 b | R608 R629 | none] identity of the selected transmitter -/
  master : Option Word64 := none
  /-- [64 b | R629 | 0] offset ns -/
  offset : Int := 0
  /-- [64 b | R629 | 0] mean path delay ns -/
  delay : Int := 0
  /-- [64 b | R629 | 0] Sync messages received -/
  syncs : Nat := 0
  /-- [own 21 | R608 | none] Sync awaiting its Follow_Up: identity, SEQ, arrival -/
  twoStep : Option (Word64 × Nat × Nat) := none
  /-- [own 21 | R608 | none] last Sync's origin and arrival -/
  t1t2 : Option (Nat × Nat) := none
  /-- [own 21 | R608 | none] instant of the last Delay_Req -/
  t3 : Option Nat := none
  /-- [own 21 | R611 | 0] offset still to be slewed, ns -/
  slew : Int := 0
  /-- [own 21 | R611 | 0] ticks of the TIME domain modulo 10,000, by which an offset is slewed at 100 ppm -/
  ticks : Nat := 0
  /-- [64 b | R36 R612 | none] timestamp of the last PPS_IN edge -/
  ppsStamp : Option Nat := none
  /-- [1 b | R612 | low] PPS_OUT pulses -/
  ppsOn : Bool := false
  /-- [64 b | R612 | none] end of the current PPS_OUT pulse -/
  ppsHighUntil : Option Nat := none
  deriving DecidableEq, Repr

/-! ### Power, boot, partitions, models and jobs -/

/-- Phase of the always-on controller, after the columns of R675. -/
inductive Phase where
  /-- Absent or unpowered: the input lies outside the standby range. -/
  | unpowered
  /-- PWR_EN low, or waiting for the input to enter the operating range. -/
  | standby
  | sequencing
  | running
  /-- A module reset under R526. -/
  | internalReset
  /-- MOD_RST# low with no shutdown latched. -/
  | resetHeld
  | shutdown
  deriving DecidableEq, Repr

/-- Stage of the boot chain (R641). -/
inductive BootStage where
  | off | rom | ligature | hbm | firmware | ready | halted
  deriving DecidableEq, Repr

/-- The always-on controller (R658 to R689). -/
structure Aon where
  /-- [R675 | R675 | unpowered] -/
  phase : Phase := .unpowered
  /-- [own 2 | R24 R27 | 0] AON nanoseconds since the standby supply came up -/
  clock : Nat := 0
  /-- [1 b | R668 | low] accepted level of PWR_EN -/
  pwrEn : Bool := false
  /-- [own 20 | R670 | none] start of the current PWR_EN low -/
  lowSince : Option Nat := some 0
  /-- [1 b | R670 R685 | 0] a PWR_EN high that came too soon, with the straps it sampled -/
  highWaits : Option Straps := none
  /-- [1 b | R668 | released] accepted level of MOD_RST#: low -/
  rstLow : Bool := false
  /-- [6 b | R672 | 0] held straps -/
  straps : Straps := ⟨0, 0⟩
  /-- [3 b | R662 | 0] rail groups in regulation -/
  groups : Nat := 0
  /-- [own 20 | R662 | 0] instant PWR_EN was accepted for this sequence -/
  seqStart : Nat := 0
  /-- [3 b | R665 | none] rail group being turned off -/
  downGroup : Option Nat := none
  /-- [32 b | R677 | 0] cause register -/
  alert : BitVec 32 := 0
  /-- [32 b | R693 | 0] power.input_mv -/
  inputMv : Nat := 0
  /-- [32 b | R693 | 0] power.input_ma -/
  inputMa : Nat := 0
  /-- [25 x I32 | R693 | 0] thermal.sensor -/
  temps : List Int := []
  /-- [32 b | R693 | 0] thermal.coolant_flow -/
  flow : Nat := 0
  /-- [own 20 | R681 | none] since when each limit has been passed in every sample -/
  since : KMap Nat := []
  /-- [own 20 | R660 R682 | none] warnings whose event stands written while the condition holds -/
  warned : NSet := []
  /-- [16 B | R687 | none] shutdown record not yet committed -/
  pending : Option ShutdownRec := none
  /-- [own 20 | R686 | none] instant of the last shutdown decision -/
  decided : Option Nat := none
  /-- [1 b | R687 | 0] the last shutdown's events have still to be written at start-up -/
  shutdownNew : Bool := false
  /-- [boot | R641 | off] -/
  boot : BootStage := .off
  /-- [1 b | R566 | 0] HUB_UP -/
  hubUp : Bool := false
  /-- [1 b | R675 R694 | low] MOD_READY -/
  ready : Bool := false
  /-- [2 b | R644 | none] Ligature slot running -/
  ligSlot : Option Nat := none
  /-- [2 b | R644 R649 | none] service-firmware slot running -/
  sfSlot : Option Nat := none
  /-- [own 20 | R649 | none] activation under way: new slot, previous slot, instant -/
  activating : Option (Nat × Nat × Nat) := none
  /-- [8 b | R707 | 0] power.drain_state -/
  drain : Nat := 0
  /-- [64 b | R699 R701 | none] end of the grace period -/
  drainEnd : Option Nat := none
  /-- [1 b | R699 | 0] the grace period has elapsed -/
  graceOver : Bool := false
  /-- [11 rails | R693 | off] rail mV and mA as last sampled -/
  rails : KMap (Nat × Nat) := []
  deriving DecidableEq, Repr

/-- A model slot (R433, R435, R652). -/
structure ModelSlot where
  /-- [8 b | R435 | 0 absent] 1 loading, 2 resident, 3 removing; an absent slot is not listed -/
  state : Nat
  /-- [16 b | R435 | -] -/
  modelId : Nat
  /-- [8 b | R435 | -] -/
  part : Nat
  /-- [8 b | R435 | -] -/
  die : Nat
  /-- [64 b | R435 | -] HBM bytes -/
  bytes : Nat
  /-- [manifest | R651 R653 | empty] manifest bytes staged -/
  manifest : Mem := []
  /-- [own 12 | R653 | none] ranges of the staging region written: offset and length -/
  covered : List (Nat × Nat) := []
  /-- [own 12 | R653 | none] segments staged, with the outcome of their tag and hash -/
  segs : KMap Bool := []
  /-- [own 12 | R433 | none] the package, once resident -/
  pkg : Option Package := none
  /-- [40 b | R652 | -] the slot's allocation: HBM address and bytes of each part -/
  alloc : List (Nat × Nat) := []
  deriving DecidableEq, Repr

/-- What Ligature grants (R631). -/
inductive GrantUse where
  | ingressRing | linkRing | linkWindow | queue | completionRing | inbox | releaseRing | control | allocation
  deriving DecidableEq, Repr

/-- A grant: hub agents may reach a range of one partition's extents (R631). Its agents and rights follow from its use. -/
structure Grant where
  /-- [own 135 | R631 | -] -/
  use : GrantUse
  /-- [3 b | R631 | -] -/
  part : Nat
  /-- [own 135 | R631 | -] stream, context or model slot that it serves; 0 where the partition alone does -/
  key : Nat
  /-- [40 b | R631 | -] HBM address and bytes; a link window's are those of R623 -/
  base : Nat
  len : Nat
  deriving DecidableEq, Repr

/-- An adapter-training job (R455 to R457). -/
structure Job where
  /-- [8 b | R453 | -] 1 queued, 2 running, 3 done, 4 cancelled, 5 failed -/
  state : Nat
  /-- [16 b | R455 | -] -/
  tenant : Nat
  /-- [3 b | R455 | -] -/
  part : Nat
  /-- [8 b | R455 | -] -/
  cores : Nat
  /-- [16 b | R455 | -] -/
  modelId : Nat
  /-- [32 b | R455 | -] -/
  steps : Nat
  /-- [8 b | R455 | -] -/
  peers : Nat
  /-- [64 b | R455 | -] -/
  memBytes : Nat
  /-- [64 b | R453 | 0] -/
  done : Nat := 0
  /-- [64 b | R453 | 0] engine-cycles, published in engine-microseconds -/
  usage : Nat := 0
  /-- [16 b | R453 | 0] -/
  code : Word16 := 0
  /-- [1 b | R178 | -] narrow state format -/
  narrow : Bool := false
  /-- [1 b | R457 | 0] the memory grant is held -/
  grant : Bool := true
  deriving DecidableEq, Repr

/-- Partitions' running state, models, jobs, usage and counters that firmware publishes. -/
structure Service where
  /-- [8 b | R430 | none] partitions ready -/
  partReady : NSet := []
  /-- [own 20 | R430 | none] partitions being made ready: instant of completion of the write -/
  partSince : KMap Nat := []
  /-- [64 slots | R435 | absent] -/
  models : KMap ModelSlot := []
  /-- [64 jobs | R453 | free] by job slot; JOB_ID is slot + 1 -/
  jobs : KMap Job := []
  /-- [256 x 2 x U64 | R453 | 0] sched.usage by tenant slot: LC and BE engine-cycles, published in engine-microseconds -/
  usage : KMap (Nat × Nat) := []
  /-- [8 x 5 x U64 | R127 | 0] numeric.events by partition -/
  numEvents : KMap (List Nat) := []
  /-- [8 x 5 x U64 | R164 | 0] numeric.safeguards by partition -/
  safeguards : KMap (List Nat) := []
  /-- [256 | R163 | none] numeric.tensor_stats -/
  tensorStats : KMap (List Byte) := []
  /-- [8 x 16 b | R459 | 64] numeric.clip_threshold in effect by core x 8 + partition -/
  clipEff : KMap Nat := []
  /-- [link ring tail | R625 | 0] by partition -/
  linkTail : KMap Nat := []
  /-- [own 20 | R625 | none] link requests not yet completed -/
  linkReqs : List LinkReq := []
  /-- [own 135 | R464 R631 | none] grants that Ligature has installed -/
  grants : List Grant := []
  /-- [1 b | R574 R703 | 0] the service firmware runs -/
  sfRunning : Bool := false
  deriving DecidableEq, Repr

/-! ### The machine -/

/-- The state of the module and the queue of commands that wait for it. -/
structure State where
  /-- [own 2 | host interface | empty] commands waiting, first in, first out -/
  pending : List Instr := []
  /-- [own 9 | R105 R123 | DC 9: 0] draws made of free values -/
  draws : Nat := 0
  aon : Aon := {}
  time : TimeBase := {}
  /-- Persistent values in effect (R541). -/
  persist : Persist := {}
  /-- Persistent values committed to module flash (R541, R542). -/
  flash : Persist := {}
  streams : Streams := {}
  /-- The eight cores; an unlisted core is as after reset. -/
  cores : KMap Core := []
  /-- [1024 per core | R436 | none] context images by CONTEXT_ID -/
  ctxs : KMap Ctx := []
  mem : MemSys := {}
  recov : Recovery := {}
  clotha : Clotha := {}
  net : Net := {}
  /-- The eight scale links; an unlisted link is as after reset. -/
  links : KMap Link := []
  svc : Service := {}
  deriving DecidableEq, Repr

/-- The module right after its supply first comes: the input outside the standby range, every object at the default
its entry gives, every register at its stated reset value, and the values that log entries 4 and 5 name. -/
def State.reset : State := {}

end Sys2Proof.Machine
end

