-- ==== Sys2Proof/Machine/Maps.lean ====
section
/-! DEFINITION. Finite maps, sets of numbers and addressed bytes held as plain data in one canonical form, and the
byte-order and bit-field helpers that every other file of the machine uses. -/

namespace Sys2Proof.Machine

variable {α : Type}

/-! ### Maps -/

/-- The entry at a key. -/
def kget? : KMap α → Nat → Option α
  | [], _ => none
  | (k, a) :: m, i => if k = i then some a else kget? m i

/-- The entry at a key, or what an unlisted key reads as. -/
def kgetD (m : KMap α) (i : Nat) (d : α) : α := (kget? m i).getD d

/-- The map with an entry written: keys stay strictly rising. -/
def kset : KMap α → Nat → α → KMap α
  | [], i, a => [(i, a)]
  | (k, b) :: m, i, a => if i < k then (i, a) :: (k, b) :: m else if i = k then (i, a) :: m else (k, b) :: kset m i a

/-- The map without a key. -/
def kdel (m : KMap α) (i : Nat) : KMap α := m.filter (fun p => p.1 ≠ i)

/-- The map with one entry changed, from the default where the key is unlisted. -/
def kmod (m : KMap α) (i : Nat) (d : α) (f : α → α) : KMap α := kset m i (f (kgetD m i d))

/-- The map with one entry changed if it is listed. -/
def kmod? (m : KMap α) (i : Nat) (f : α → α) : KMap α :=
  match kget? m i with
  | none => m
  | some a => kset m i (f a)

/-- Keys listed. -/
def kkeys (m : KMap α) : List Nat := m.map Prod.fst

/-- The map of the keys of a list. -/
def kofList (l : List (Nat × α)) : KMap α := l.foldl (fun m p => kset m p.1 p.2) []

/-- The canonical form of a map: keys strictly rising. -/
def krising : KMap α → Bool
  | [] => true
  | [_] => true
  | (k, _) :: (l, b) :: m => decide (k < l) && krising ((l, b) :: m)

/-! ### Sets of numbers -/

/-- The set with a member. -/
def nins : NSet → Nat → NSet
  | [], i => [i]
  | k :: m, i => if i < k then i :: k :: m else if i = k then k :: m else k :: nins m i

/-- The set without a member. -/
def ndel (m : NSet) (i : Nat) : NSet := m.filter (fun k => k ≠ i)

/-- The set with a member or without it. -/
def nput (m : NSet) (i : Nat) (b : Bool) : NSet := if b then nins m i else ndel m i

/-! ### Addressed bytes -/

/-- What a byte of module memory that nothing has written reads as (log entry 5). -/
def emptyByte : Byte := 0

/-- One byte. -/
def rdByte (m : Mem) (a : Nat) : Byte := kgetD m a emptyByte

/-- Writes one byte: a byte equal to what an unlisted address reads as is not listed. -/
def wrByte (m : Mem) (a : Nat) (b : Byte) : Mem := if b = emptyByte then kdel m a else kset m a b

/-- `n` bytes from an address. -/
def rdBytes (m : Mem) (a : Nat) : Nat → List Byte
  | 0 => []
  | n + 1 => rdByte m a :: rdBytes m (a + 1) n

/-- Writes bytes from an address. -/
def wrBytes (m : Mem) (a : Nat) : List Byte → Mem
  | [] => m
  | b :: bs => wrBytes (wrByte m a b) (a + 1) bs

/-- The bytes outside `[a, a + n)`. -/
def memDrop (m : Mem) (a n : Nat) : Mem := m.filter (fun p => decide (p.1 < a) || decide (a + n ≤ p.1))

/-- The bytes of `[a, a + n)` replaced, each listed one by a function of its address and value. -/
def memRemap (m : Mem) (a n : Nat) (f : Nat → Byte → Byte) : Mem :=
  (m.map (fun p => if a ≤ p.1 ∧ p.1 < a + n then (p.1, f p.1 p.2) else p)).filter (fun p => decide (p.2 ≠ emptyByte))

/-- No byte is listed that equals what an unlisted address reads as. -/
def memSparse (m : Mem) : Bool := m.all (fun p => decide (p.2 ≠ emptyByte))

/-- The canonical form of memory: addresses strictly rising, and no byte listed that an unlisted address reads as. -/
def Memory.wf (m : Mem) : Bool := krising m && memSparse m

/-! ### Byte order and bit fields -/

/-- Little-endian number of bytes (R8, R536). -/
def ofLe : List Byte → Nat
  | [] => 0
  | b :: bs => b.toNat + 256 * ofLe bs

/-- `n` little-endian bytes of a number. -/
def toLe : Nat → Nat → List Byte
  | 0, _ => []
  | n + 1, v => BitVec.ofNat 8 v :: toLe n (v / 256)

/-- Network-order number of bytes. -/
def ofBe (bs : List Byte) : Nat := ofLe bs.reverse

/-- `n` network-order bytes of a number. -/
def toBe (n v : Nat) : List Byte := (toLe n v).reverse

/-- Two's complement of a number in `n` bytes, for a signed dictionary value. -/
def leInt (n : Nat) (v : Int) : List Byte := toLe n (v % (256 ^ n : Int)).toNat

/-- Bits [hi:lo] of a number. -/
def bits (v hi lo : Nat) : Nat := (v >>> lo) % 2 ^ (hi + 1 - lo)

/-- One bit of a number. -/
def bit (v i : Nat) : Bool := (v >>> i) % 2 = 1

/-- Two's complement reading of the low `w` bits of a number. -/
def sext (w v : Nat) : Int := if (v % 2 ^ w) < 2 ^ (w - 1) then (v % 2 ^ w : Nat) else (v % 2 ^ w : Nat) - (2 ^ w : Nat)

/-- 0 or 1. -/
def b2n (b : Bool) : Nat := if b then 1 else 0

/-- Bytes `[a, a + n)` of a byte string, zero past its end. -/
def slice (bs : List Byte) (a n : Nat) : List Byte :=
  let t := (bs.drop a).take n
  t ++ List.replicate (n - t.length) 0

/-- Little-endian number of bytes `[a, a + n)` of a byte string. -/
def leAt (bs : List Byte) (a n : Nat) : Nat := ofLe (slice bs a n)

/-- Network-order number of bytes `[a, a + n)` of a byte string. -/
def beAt (bs : List Byte) (a n : Nat) : Nat := ofBe (slice bs a n)

/-- Rounded-up quotient. -/
def cdiv (a b : Nat) : Nat := (a + b - 1) / b

/-- A list with the entry at an index replaced. -/
def lset (l : List α) (i : Nat) (a : α) : List α := l.set i a

/-- A list with the entry at an index changed. -/
def lmod (l : List α) (i : Nat) (f : α → α) : List α := l.modify i f

/-- A counter of a list of counters, incremented. -/
def lbump (l : List Nat) (i n : Nat) : List Nat := l.modify i (· + n)

/-- The first entry that satisfies a test, and the list without it. -/
def takeFirst (p : α → Bool) : List α → Option (α × List α)
  | [] => none
  | a :: l =>
    if p a then some (a, l)
    else match takeFirst p l with
      | none => none
      | some (b, l') => some (b, a :: l')

/-- The entry that a comparison puts before every other; the earliest of equals. -/
def bestBy (lt : α → α → Bool) : List α → Option α
  | [] => none
  | a :: l =>
    match bestBy lt l with
    | none => some a
    | some b => some (if lt b a then b else a)

/-- A list with an entry inserted before the first that it precedes. -/
def insBy (lt : α → α → Bool) (a : α) : List α → List α
  | [] => [a]
  | b :: l => if lt a b then a :: b :: l else b :: insBy lt a l

/-- Sum of a list. -/
def sumNat (l : List Nat) : Nat := l.foldl (· + ·) 0

/-- A list in order; equals keep their order. -/
def sortBy (lt : α → α → Bool) (l : List α) : List α := l.foldl (fun m a => insBy lt a m) []

end Sys2Proof.Machine
end

