-- ==== Sys2Proof/Machine/Ops.lean ====
section
/-! DEFINITION. Shared operations: access to the parts of the state, the event log's intake, the cause register, and
what stops and what runs in each phase of the module. -/

namespace Sys2Proof.Machine

/-! ### Access to the parts -/

/-- The timebase in ns (R24). -/
def State.now (s : State) : Nat := s.time.now

/-- A core. -/
def State.core (s : State) (c : Nat) : Core := kgetD s.cores c {}

/-- A core replaced by its image. -/
def State.modCore (s : State) (c : Nat) (f : Core → Core) : State := { s with cores := kmod s.cores c {} f }

/-- Every core replaced by its image. -/
def State.modCores (s : State) (f : Nat → Core → Core) : State :=
  (List.range 8).foldl (fun t c => t.modCore c (f c)) s

/-- An execution context's image, if the context exists. -/
def State.ctx? (s : State) (i : Nat) : Option Ctx := kget? s.ctxs i

/-- An existing context's image changed. -/
def State.modCtx (s : State) (i : Nat) (f : Ctx → Ctx) : State := { s with ctxs := kmod? s.ctxs i f }

/-- A stream context, if it is open or closing. -/
def State.stream? (s : State) (i : Nat) : Option StreamCtx := kget? s.streams.ctx i

/-- A stream context that is not free, changed. -/
def State.modStream (s : State) (i : Nat) (f : StreamCtx → StreamCtx) : State :=
  { s with streams := { s.streams with ctx := kmod? s.streams.ctx i f } }

/-- A stream.stats record changed (R44). -/
def State.modStats (s : State) (i : Nat) (f : StreamStats → StreamStats) : State :=
  { s with streams := { s.streams with stats := kmod s.streams.stats i {} f } }

/-- An engine of a core. -/
def Core.engine (k : Core) (e : Nat) : Engine := kgetD k.engines e {}

/-- An engine of a core changed. -/
def Core.modEngine (k : Core) (e : Nat) (f : Engine → Engine) : Core := { k with engines := kmod k.engines e {} f }

/-- An engine. -/
def State.engine (s : State) (c e : Nat) : Engine := (s.core c).engine e

/-- An engine changed. -/
def State.modEngine (s : State) (c e : Nat) (f : Engine → Engine) : State := s.modCore c (·.modEngine e f)

/-- A port. -/
def State.port (s : State) (p : Nat) : Port := kgetD s.net.ports p {}

/-- A port changed. -/
def State.modPort (s : State) (p : Nat) (f : Port → Port) : State :=
  { s with net := { s.net with ports := kmod s.net.ports p {} f } }

/-- A scale link. -/
def State.link (s : State) (l : Nat) : Link := kgetD s.links l {}

/-- A scale link changed. -/
def State.modLink (s : State) (l : Nat) (f : Link → Link) : State := { s with links := kmod s.links l {} f }

/-- The model slot of a number, if it is not absent. -/
def State.model? (s : State) (i : Nat) : Option ModelSlot := kget? s.svc.models i

/-- A model slot that is not absent, changed. -/
def State.modModel (s : State) (i : Nat) (f : ModelSlot → ModelSlot) : State :=
  { s with svc := { s.svc with models := kmod? s.svc.models i f } }

/-- The matrix engine's or another per-partition counter list bumped: list `i` of a keyed family of `n` counters. -/
def bumpIn (m : KMap (List Nat)) (n k i by_ : Nat) : KMap (List Nat) :=
  kmod m k (List.replicate n 0) (fun l => lbump l i by_)

/-- A counter of a keyed family read. -/
def countIn (m : KMap (List Nat)) (k i : Nat) : Nat := ((kget? m k).getD []).getD i 0

/-- The die that holds a core (R20). -/
def dieOf (core : Nat) : Nat := core / 4

/-- Port of an Ethernet frame, its row in the table of R596, and whether it is an IP packet. An echo reply, which no row names, goes
with control traffic (DESIGN CHOICE, log entry 139). -/
def TxItem.marking (transport : Nat) : TxItem → Option (Nat × Nat × Bool)
  | .clotha m => (match m.via with | .udp p _ _ => some (p, 1, true) | .mgmt => none)
  | .result p be _ _ _ _ _ => some (p, if be then 2 else 0, true)
  | .arpReply p _ _ => some (p, 1, false)
  | .neighbourAdvert p _ _ => some (p, 1, true)
  | .echoReply p _ _ _ => some (p, 1, true)
  | .resolve p ip => some (p, 1, ip.toNat / 2 ^ 32 != 0xFFFF)
  | .delayReq p => some (p, 0, transport != 2)
  | .ppsOut | .link .. | .linkNak .. | .linkKey .. | .linkRekey .. => none

/-- The marking of a frame: DSCP and priority of its class from port.config, with a tag where the port has a VLAN ID (R587, R596). -/
def State.tagsOf (s : State) (x : TxItem) : List TxTag :=
  match x.marking s.persist.ptpTransport with
  | none => []
  | some (p, row, ip) =>
    let c := kgetD s.persist.portConfig p {}
    [{ dscp := if ip then some (c.dscp.getD row 0) else none
       vlan := if c.vlan = 0 then none else some (c.vlan, c.prio.getD row 0) }]

/-- A frame or pulse leaves the module (log entry 17). -/
def State.send (s : State) (x : TxItem) : State := { s with net := { s.net with tx := x :: s.net.tx, tags := s.tagsOf x ++ s.net.tags } }

/-! ### Events and alerts -/

/-- Clock domain of a source: a core's (0 to 7), a port's, a link's, a stack's, or the hub's (R24, R480). -/
def clockDomain (kind index : Nat) : Nat :=
  if kind ≤ 0x03 then index / 16
  else if kind = 0x04 then index / 64
  else if kind = 0x06 then index / 4
  else if kind ≤ 0x08 then index
  else if kind = 0x10 then 8 + index
  else if kind = 0x11 then 16 + index
  else if kind = 0x15 then 32 + index
  else 64

/-- The timebase in the local copy of a source's clock domain, within 2 ns of the count of the TIME domain (R35, R497). -/
def State.localTime (s : State) (kind index : Nat) : Nat :=
  ((s.now : Int) + ((Config.copyOffset (clockDomain kind index) s.now % 5 : Nat) : Int) - 2).toNat

/-- An event record is issued: the hub holds it for its commit (R497, R498). -/
def State.logEvent (s : State) (event code kind index : Nat) (detail : List (Nat × Int)) : State :=
  { s with recov := { s.recov with heldEvents := s.recov.heldEvents ++
    [{ time := s.localTime kind index, event := BitVec.ofNat 16 event, code := BitVec.ofNat 16 code, kind := BitVec.ofNat 8 kind,
       index := index, late := false, detail := detail }] } }

/-- An event whose source is service core 1, which runs the service firmware's object dictionary (R480, log entry 22). -/
def State.logFw (s : State) (event code : Nat) (detail : List (Nat × Int)) : State := s.logEvent event code 0x13 1 detail

/-- Bits of the cause register (R677). -/
def alertMiss : Nat := 0
def alertQuarantine : Nat := 1
def alertReset : Nat := 2
def alertRepeatedHang : Nat := 3
def alertInputWarn : Nat := 4
def alertThermalWarn : Nat := 5
def alertCoolantWarn : Nat := 6
def alertShutdown : Nat := 7

/-- A bit of the cause register set (R677). -/
def State.alertSet (s : State) (i : Nat) : State :=
  { s with aon := { s.aon with alert := s.aon.alert ||| BitVec.ofNat 32 (2 ^ i) } }

/-- The service firmware runs and answers (R574). -/
def State.fw (s : State) : Bool := s.svc.sfRunning

/-- A draw of a free value: its number, and the state after it (log entry 9). -/
def State.draw (s : State) : Nat × State := (s.draws, { s with draws := s.draws + 1 })

/-! ### Condition codes (R583) -/

def cOK : Word16 := 0x0000
def cVERSION : Word16 := 0x1001
def cLENGTH : Word16 := 0x1002
def cOPCODE : Word16 := 0x1003
def cRSVD : Word16 := 0x1004
def cTYPE : Word16 := 0x1005
def cFIELD : Word16 := 0x1006
def cACTION : Word16 := 0x1007
def cREQID : Word16 := 0x1008
def cmdRSVD : Word16 := 0x1010
def cmdSEQUENCE : Word16 := 0x1011
def cmdCONTEXT : Word16 := 0x1012
def cmdOPCODE : Word16 := 0x1013
def cmdFUSED : Word16 := 0x1014
def cmdSHAPE : Word16 := 0x1015
def cmdCONTROL : Word16 := 0x1016
def cmdVPROG : Word16 := 0x1017
def cmdSTREAM : Word16 := 0x1018
def accNO_OBJECT : Word16 := 0x2001
def accREAD_ONLY : Word16 := 0x2002
def accWRITE_ONLY : Word16 := 0x2003
def accRIGHTS : Word16 := 0x2004
def accRANGE : Word16 := 0x2005
def accOWNER : Word16 := 0x2006
def accID_IN_USE : Word16 := 0x2007
def accPARTITION : Word16 := 0x2010
def accBUSY : Word16 := 0x2011
def accCONFIG : Word16 := 0x2012
def schBE_YIELD : Word16 := 0x3010
def schJOB_FULL : Word16 := 0x3011
def numFORMAT : Word16 := 0x4001
def numROUND : Word16 := 0x4002
def numSCALE : Word16 := 0x4003
def numSLOT : Word16 := 0x4004
def memHANDLE : Word16 := 0x5010
def memBOUNDS : Word16 := 0x5011
def memPOOL_RESERVE : Word16 := 0x5012
def memPOOL_EXHAUSTED : Word16 := 0x5013
def memCREDIT_TIMEOUT : Word16 := 0x5014
def memQUOTA : Word16 := 0x5015
def memRANGE : Word16 := 0x5016
def memSEM_TIMEOUT : Word16 := 0x5017
def lnkPORT_DOWN : Word16 := 0x6001
def lnkSCALE_DOWN : Word16 := 0x6002
def lnkREPLAY : Word16 := 0x6003
def lnkAUTH : Word16 := 0x6004
def lnkPEER_ABSENT : Word16 := 0x6005
def lnkTIMEBASE : Word16 := 0x6006
def recFENCED : Word16 := 0x7001
def recDISCARD : Word16 := 0x7002
def recIN_PROGRESS : Word16 := 0x7010
def recNO_ENGINE : Word16 := 0x7012
def recMODULE_RESET : Word16 := 0x7020
def secAUTH : Word16 := 0x8001
def secREPLAY : Word16 := 0x8002
def secKEY_UNKNOWN : Word16 := 0x8003
def secSIGNATURE : Word16 := 0x8004
def secROLLBACK : Word16 := 0x8005
def secNOT_GRANTED : Word16 := 0x8006

/-! ### Extents (R461, R463) -/

/-- Bytes of an extent. -/
def extentBytes : Nat := 0x40000000

/-- Owner of an extent, as 0x3003 numbers it: 0–7 a partition, 0xFE the module, 0xFF none. -/
def Persist.extentOwner (p : Persist) (die ext : Nat) : Nat :=
  if ext < 4 then 0xFE else kgetD p.extents (die * 144 + ext) 0xFF

/-- Die and die offset of an HBM address that is mapped (R461). -/
def hbmPlace (a : Nat) : Option (Nat × Nat) :=
  if a < 0x2400000000 then some (0, a)
  else if 0x4000000000 ≤ a ∧ a < 0x6400000000 then some (1, a - 0x4000000000)
  else none

/-- Owner of the extent that holds an HBM address; `none` where unmapped. -/
def State.hbmOwner (s : State) (a : Nat) : Option Nat :=
  match hbmPlace a with
  | none => none
  | some (d, o) => some (s.persist.extentOwner d (o / extentBytes))

/-- Every byte of a range lies in extents of one owner (R463, R464). -/
def State.ownedBy (s : State) (owner a n : Nat) : Bool :=
  s.hbmOwner a == some owner && (n == 0 || s.hbmOwner (a + n - 1) == some owner) && decide (n ≤ extentBytes)

/-- HBM address of a byte of a partition's window on a link: the window's extents are of the 140 of each die that partitions
own (R463; log entry 36). -/
def windowAddr (l part off : Nat) : Nat :=
  let e := Config.windowExtent l part (off / extentBytes) % 280
  e / 140 * 0x4000000000 + (4 + e % 140) * extentBytes + off % extentBytes

/-! ### Grants (R464, R631) -/

/-- The agents that hold a grant of a use. -/
def GrantUse.agent : GrantUse → HubAgent
  | .ingressRing | .linkRing | .linkWindow => .engines
  | .queue | .completionRing | .inbox | .releaseRing | .control => .serviceCores
  | .allocation => .packageEngine

/-- What a grant of a use allows: the control section is read only, a model slot's allocation write only. -/
def GrantUse.allows (u : GrantUse) (write : Bool) : Bool :=
  match u with
  | .control => !write
  | .allocation => write
  | _ => true

/-- A grant covers a range: a link window is a set of extents, one for each GiB of each link's window (R623). -/
def Grant.covers (g : Grant) (a n : Nat) : Bool :=
  match g.use with
  | .linkWindow => (List.range 8).any (fun l => (List.range 140).any (fun k =>
      let b := windowAddr l g.part (k * extentBytes)
      decide (b ≤ a) && decide (a + n ≤ b + extentBytes)))
  | _ => decide (g.base ≤ a) && decide (a + n ≤ g.base + g.len)

/-- Hub agents hold a grant of a range, which lies in extents of the partition that it names. -/
def State.granted (s : State) (agent : HubAgent) (a n : Nat) (write : Bool) : Bool :=
  s.svc.grants.any (fun g => g.use.agent == agent && g.use.allows write && g.covers a n && s.ownedBy g.part a n)

/-- Ligature installs grants. -/
def State.install (s : State) (l : List Grant) : State := { s with svc := { s.svc with grants := s.svc.grants ++ l } }

/-- Ligature removes the grants that a test names. -/
def State.uninstall (s : State) (p : Grant → Bool) : State :=
  { s with svc := { s.svc with grants := s.svc.grants.filter (fun g => !p g) } }

/-- Bytes from an address lie in one of some extents, named by die and number. -/
def inExtents (l : List (Nat × Nat)) (a n : Nat) : Bool :=
  l.any (fun q =>
    let base := q.1 * 0x4000000000 + q.2 * extentBytes
    decide (base ≤ a) && decide (a + n ≤ base + extentBytes))

/-- Extents of a partition. -/
def Persist.extentsOf (p : Persist) (part : Nat) : List (Nat × Nat) :=
  (p.extents.filter (fun q => q.2 == part)).map (fun q => (q.1 / 144, q.1 % 144))

/-- Ligature accepts requests for grants: each names memory of the partition's own extents. It refuses any other with
SEC_NOT_GRANTED. -/
def grantsOk (ext : List (Nat × Nat)) (l : List Grant) : Bool :=
  l.all (fun g => g.use == .linkWindow || inExtents ext g.base g.len)

/-- A stack of HBM: block, then stack in rotation (R462). -/
def stackOf (a : Nat) : Nat :=
  match hbmPlace a with
  | none => 0
  | some (d, o) => 6 * d + (o / 4096) % 6

/-! ### HBM bytes and poison (R465 to R468) -/

/-- Bytes of HBM. -/
def State.hbmRead (s : State) (a n : Nat) : List Byte := rdBytes s.mem.hbm a n

/-- Lines of 64 bytes that a range touches. -/
def linesOf (a n : Nat) : List Nat := if n = 0 then [] else (List.range ((a + n - 1) / 64 - a / 64 + 1)).map (· + a / 64)

/-- A range touches a line with the poison signature. -/
def State.hbmPoisoned (s : State) (a n : Nat) : Bool := (linesOf a n).any (s.mem.poison.contains ·)

/-- A write to HBM: poisoned beats leave the signature, a whole unpoisoned line clears it, a part of a line leaves the
line as it was (R467, R468). -/
def State.hbmWrite (s : State) (a : Nat) (bs : List Byte) (poison : Bool) : State :=
  let n := bs.length
  let ps := (linesOf a n).foldl (fun q l =>
    if poison then nins q l
    else if a ≤ l * 64 ∧ l * 64 + 64 ≤ a + n then ndel q l
    else q) s.mem.poison
  { s with mem := { s.mem with hbm := wrBytes s.mem.hbm a bs, poison := ps } }

/-- A little-endian number of HBM. -/
def State.hbmNat (s : State) (a n : Nat) : Nat := ofLe (s.hbmRead a n)

/-- The contents of an extent are no plaintext any more, because its key is created or destroyed: each byte that something has
written is free, and nothing clears the range, so that a poison signature stays (R430, R465, R467; log entry 5). -/
def MemSys.dropExtent (m : MemSys) (die ext : Nat) : MemSys :=
  { m with hbm := memRemap m.hbm (die * 0x4000000000 + ext * extentBytes) extentBytes (Config.rekeyByte m.keyGen) }

/-! ### Progress of the units (R501, R518) -/

/-- Number of a unit's progress record in a dump (R518): ME 0–15, VE 16–31, Bell 32–47, channel 48–111, prep 112–115,
router 116, arbiter 117. -/
def unitIndex : DroneUnit → Nat
  | .me e => e
  | .ve e => 16 + e
  | .bell e => 32 + e
  | .channel n => 48 + n
  | .prep n => 112 + n
  | .router => 116
  | .arbiter => 117

/-- A unit's progress counter advances (R501, R502). -/
def State.progress (s : State) (core unit : Nat) : State :=
  s.modCore core (fun k => { k with progress := kmod k.progress unit {} (fun p =>
    { p with count := (p.count + 1) % 2 ^ 32, last := s.now }) })

/-! ### Causes of misses (R83) -/

/-- A condition of R83 holds for the undelivered chunks of the latency-critical streams that a test names. -/
def State.markCause (s : State) (n : Nat) (p : Nat → StreamCtx → Bool) : State :=
  { s with streams := { s.streams with ctx := s.streams.ctx.map (fun q =>
      if !q.2.be && p q.1 q.2 then (q.1, { q.2 with chunks := q.2.chunks.map (fun c => { c with causes := nins c.causes n }) })
      else q) } }

/-- The promise to a stream does not cover a reset of its core with this last progress: it lies before the end of the clearance
interval of the reset before, which may not even have begun (R79, R83). -/
def StreamCtx.uncovered (x : StreamCtx) (gap : Bool) (last : Nat) : Bool :=
  gap || x.clearanceEnd.any (fun e => decide (last < e)) || x.clearedAt.any (fun e => decide (last < e))

/-- The parts of a context's pair that are still outstanding on a link. -/
def Link.pairWaits (k : Link) (ctx : Nat) : List LinkWait := k.waits.filter (fun w => w.ctx == some ctx)

/-! ### Persistent values (R542, R543) -/

/-- Commits of persistent values that the module changes itself (R542, R543). -/
def State.commitPersist (s : State) : State :=
  { s with clotha := { s.clotha with commits := s.clotha.commits ++ [{ snap := s.persist, answer := none, since := s.now }] } }

/-! ### Phases -/

/-- Latency-critical streams open or closing (R85, R503). -/
def State.lcOpen (s : State) : List (Nat × StreamCtx) := s.streams.ctx.filter (fun p => !p.2.be)

/-- Core `c` is being recovered, on its own or with its die (R512, R524). -/
def State.recovering (s : State) (c : Nat) : Bool :=
  (s.core c).seqr.state != .running || (kgetD s.recov.dies (dieOf c) {}).state != .running

/-- The fence of a core stands: from the declaration until the end of resume (R513). -/
def State.fenced (s : State) (c : Nat) : Bool := s.recovering c

/-- The partition that holds a core. -/
def Persist.partOfCore (p : Persist) (c : Nat) : Option (Nat × PartRec) := p.parts.find? (fun q => bit q.2.cores c)

/-- Cores of a mask, ascending. -/
def coresOf (mask : Nat) : List Nat := (List.range 8).filter (fun c => bit mask c)

/-- Quarantined engines of a core (R228). -/
def State.quarantined (s : State) (c e : Nat) : Bool := bit (kgetD s.persist.quarantine c 0) e

/-- Engines of a core that are not quarantined, ascending. -/
def State.liveEngines (s : State) (c : Nat) : List Nat := (List.range 16).filter (fun e => !s.quarantined c e)

end Sys2Proof.Machine
end

