-- ==== Sys2Proof/Machine/Handles.lean ====
section
/-! DEFINITION. Bore memory by handle (08): the handle table's fields, the mapping of a buffer's lines, reads and writes
with poison, ring bits, and the prep cores' narrow view and table stores. -/

namespace Sys2Proof.Machine

/-! ### Fields of an entry (R338) -/

def HandleEntry.valid (h : HandleEntry) : Bool := bit h.w0.toNat 0
def HandleEntry.part (h : HandleEntry) : Nat := bits h.w0.toNat 3 1
def HandleEntry.ring (h : HandleEntry) : Bool := bit h.w0.toNat 4
def HandleEntry.pool (h : HandleEntry) : Bool := bit h.w0.toNat 5
def HandleEntry.firstBank (h : HandleEntry) : Nat := bits h.w0.toNat 12 8
def HandleEntry.bankLog2 (h : HandleEntry) : Nat := bits h.w0.toNat 14 13
def HandleEntry.firstLine (h : HandleEntry) : Nat := bits h.w0.toNat 26 16
def HandleEntry.sizeLines (h : HandleEntry) : Nat := bits h.w0.toNat 46 32
def HandleEntry.slots (h : HandleEntry) : Nat := bits h.w0.toNat 53 48 + 1
def HandleEntry.slotLines (h : HandleEntry) : Nat := bits h.w1.toNat 14 0
def HandleEntry.poolReserve (h : HandleEntry) : Nat := bits h.w1.toNat 27 24
def HandleEntry.poolMapRec (h : HandleEntry) : Nat := bits h.w1.toNat 36 32
def HandleEntry.extBase (h : HandleEntry) : Nat := bits h.w3.toNat 39 0
def HandleEntry.extStride (h : HandleEntry) : Nat := bits h.w3.toNat 63 40
def HandleEntry.bytes (h : HandleEntry) : Nat := h.sizeLines * 64
def HandleEntry.slotBytes (h : HandleEntry) : Nat := h.slotLines * 64
def HandleEntry.isFull (h : HandleEntry) (slot : Nat) : Bool := bit h.full.toNat slot

/-- Bits of word 0 that are RSVD, and of word 1 (R338): they stay zero. -/
def entryMask0 : Word64 := 0x003F7FFF07FF7F3F
def entryMask1 : Word64 := 0x0000001F0F007FFF

/-- An entry is well formed (R337, R338, R339). -/
def HandleEntry.wellFormed (h : HandleEntry) : Bool :=
  let k := 2 ^ h.bankLog2
  h.firstBank % k == 0 && h.firstBank / 8 == (h.firstBank + k - 1) / 8
    && decide (1 ≤ h.sizeLines) && decide (h.sizeLines ≤ 16384)
    && decide (h.firstLine + cdiv h.sizeLines k ≤ 2048)
    && (!h.ring || (decide (1 ≤ h.slotLines) && decide (h.slots * h.slotLines ≤ h.sizeLines)))
    && (!h.pool || (h.ring && decide (h.slots ≤ 16) && h.slotLines == 32))

/-- A core's entry. -/
def Core.handle (k : Core) (i : Nat) : HandleEntry := kgetD k.handles i {}

/-- The entry a command of a partition names, where it is valid, well formed and the partition's own (R194, R339). -/
def State.usable (s : State) (core part i : Nat) : Option HandleEntry :=
  let h := (s.core core).handle i
  if i ≠ 0 ∧ h.valid ∧ h.part = part ∧ h.wellFormed then some h else none

/-! ### Mapping (R325, R337, R373) -/

/-- Physical line (bank × 2,048 + line) of line `n` of a buffer of a core; a pool ring's slot lies in the pool buffer
that the pool-map table names. -/
def State.physLine (s : State) (core : Nat) (h : HandleEntry) (n : Nat) : Nat :=
  if h.pool then
    let slot := n / 32
    let buf := (rdByte (s.core core).poolMap (h.poolMapRec * 16 + slot)).toNat
    let first := kgetD s.persist.poolFirst core 0
    let banks := Nat.max 1 (kgetD s.persist.poolBanks core 0)
    let m := 32 * buf + n % 32
    (first + m % banks) * 2048 + m / banks
  else
    let k := 2 ^ h.bankLog2
    (h.firstBank + n % k) * 2048 + h.firstLine + n / k

/-- Physical address of a byte of a buffer. -/
def State.physByte (s : State) (core : Nat) (h : HandleEntry) (o : Nat) : Nat :=
  s.physLine core h (o / 64) * 64 + o % 64

/-- A slot of a pool ring holds no buffer: a failed pass marked it full without data, and a read of it returns zero beats
marked poisoned (R380). -/
def State.poolHole (s : State) (core : Nat) (h : HandleEntry) (o : Nat) : Bool :=
  let k := s.core core
  h.pool && !k.poolUsed.any (fun p => p.1 % 64 == o / 2048 && (k.handle (p.1 / 64)).poolMapRec == h.poolMapRec)

/-- Bytes of a buffer. -/
def State.bufRead (s : State) (core : Nat) (h : HandleEntry) (o n : Nat) : List Byte :=
  (List.range n).map (fun i =>
    if s.poolHole core h (o + i) then 0 else rdByte (s.core core).bore (s.physByte core h (o + i)))

/-- A little-endian number of a buffer. -/
def State.bufNat (s : State) (core : Nat) (h : HandleEntry) (o n : Nat) : Nat := ofLe (s.bufRead core h o n)

/-- Lines of a buffer that a byte range touches. -/
def bufLines (o n : Nat) : List Nat := linesOf o n

/-- A range of a buffer touches a poisoned line (R377). -/
def State.bufPoisoned (s : State) (core : Nat) (h : HandleEntry) (o n : Nat) : Bool :=
  (bufLines o n).any (fun l => s.poolHole core h (l * 64) || (s.core core).borePoison.contains (s.physLine core h l))

/-- The read of ranges of buffers of a core finds errors in the lines that it touches: each is counted, and a line whose error
is beyond correction is poisoned and read so (R329, R377). -/
def State.boreFinds (s : State) (core : Nat) (ranges : List (HandleEntry × Nat × Nat)) (errs : BoreErrs) : State :=
  errs.foldl (fun t q =>
    if ranges.any (fun r => (bufLines r.2.1 r.2.2).any (fun l => s.physLine core r.1 l == q.1.val)) then
      t.modCore core (fun k => { k with
        boreErrors := lbump k.boreErrors (b2n q.2) 1, borePoison := if q.2 then nins k.borePoison q.1.val else k.borePoison })
    else t) s

/-- Poison of a line after a write of bytes [o, o + n) with a poison bit: a poisoned beat sets it, a whole unpoisoned
line clears it, part of a line leaves a poisoned line poisoned (R378). -/
def poisonAfter (was poison whole : Bool) : Bool := poison || (was && !whole)

/-- Writes bytes into a buffer. -/
def State.bufWrite (s : State) (core : Nat) (h : HandleEntry) (o : Nat) (bs : List Byte) (poison : Bool) : State :=
  let n := bs.length
  s.modCore core (fun k =>
    { k with
      bore := (List.range n).foldl (fun m i => wrByte m (s.physByte core h (o + i)) (bs.getD i 0)) k.bore
      borePoison := (bufLines o n).foldl (fun q l =>
        let pl := s.physLine core h l
        nput q pl (poisonAfter (q.contains pl) poison (decide (o ≤ l * 64) && decide (l * 64 + 64 ≤ o + n)))) k.borePoison })

/-! ### Ring slots (R353 to R359) -/

/-- Slots of a ring that a byte range touches. -/
def HandleEntry.slotsOf (h : HandleEntry) (o n : Nat) : List Nat :=
  if h.slotBytes = 0 ∨ n = 0 then []
  else (List.range ((o + n - 1) / h.slotBytes - o / h.slotBytes + 1)).map (· + o / h.slotBytes)

/-- A full bit set or cleared. -/
def HandleEntry.putFull (h : HandleEntry) (slot : Nat) (b : Bool) : HandleEntry :=
  let m := BitVec.ofNat 64 (2 ^ slot)
  { h with full := if b then h.full ||| m else h.full &&& ~~~m }

/-- A handle entry of a core changed. -/
def State.modHandle (s : State) (core i : Nat) (f : HandleEntry → HandleEntry) : State :=
  s.modCore core (fun k => { k with handles := kmod k.handles i {} f })

/-- A slot drains: its full bit clears, and a pool ring's buffer goes back to the pool (R355, R356, R375). -/
def State.drainSlot (s : State) (core i slot : Nat) : State :=
  let s := s.modHandle core i (·.putFull slot false)
  s.modCore core (fun k => { k with poolUsed := kdel k.poolUsed (i * 64 + slot) })

/-- A slot is filled: its full bit is set and the credit spent on it is at an end (R354, R356, R367). -/
def State.fillSlot (s : State) (core i slot : Nat) : State :=
  let s := s.modHandle core i (·.putFull slot true)
  s.modCore core (fun k => { k with spent := kdel k.spent (i * 64 + slot) })

/-! ### Pool buffers (R373 to R375) -/

/-- Buffers of a core's pool. -/
def State.poolSize (s : State) (core : Nat) : Nat := 64 * kgetD s.persist.poolBanks core 0

/-- Buffers that a pool ring holds. -/
def Core.poolHeld (k : Core) (i : Nat) : Nat := (k.poolUsed.filter (fun p => p.1 / 64 = i)).length

/-- Valid pool rings of a core. -/
def Core.poolRings (k : Core) : List (Nat × HandleEntry) := k.handles.filter (fun p => p.2.valid && p.2.pool)

/-- A buffer is grantable to a pool ring: below its RESERVE at once, otherwise only one that is free and held back for
no other ring's RESERVE (R375). -/
def State.poolGrantable (s : State) (core i : Nat) : Bool :=
  let k := s.core core
  let h := k.handle i
  let free := s.poolSize core - k.poolUsed.length
  if k.poolHeld i < h.poolReserve then decide (0 < free)
  else
    let back := ((k.poolRings.filter (fun p => p.1 ≠ i)).map (fun p => p.2.poolReserve - k.poolHeld p.1)).foldl (· + ·) 0
    decide (back < free)

/-- A pool buffer goes to a slot: the lowest-numbered free one (log entry 23). -/
def State.poolTake (s : State) (core i slot : Nat) : State :=
  let k := s.core core
  let h := k.handle i
  let used := k.poolUsed.map Prod.snd
  let b := ((List.range (s.poolSize core)).find? (fun b => !used.contains b)).getD 0
  let beyond := decide (h.poolReserve ≤ k.poolHeld i)
  s.modCore core (fun k =>
    let u := kset k.poolUsed (i * 64 + slot) b
    { k with
      poolUsed := u
      poolMap := wrByte k.poolMap (h.poolMapRec * 16 + slot) (BitVec.ofNat 8 b)
      poolStats := lset (lbump k.poolStats 0 (b2n beyond)) 3 (Nat.max (k.poolStats.getD 3 0) u.length) })

/-! ### Prep-core accesses -/

/-- Partition that a prep core serves, if any (R427, R453). -/
def State.prepPart (s : State) (core prep : Nat) : Option Nat :=
  let p := kgetD (s.core core).preps prep 0xFF
  if p = 0xFF then none else some p

/-- Some running or re-armed channel names handle `i` of a core: the core's own by kind 0b01, another core's by kind
0b10 (R341, R344). -/
def State.handleBusy (s : State) (core i : Nat) : Bool :=
  (List.range 8).any (fun c => ((s.core c).channels.map Prod.snd).any (fun ch =>
    (ch.state = .running || ch.pending.isSome) &&
      (let d := ch.desc.toNat
       let kind := if c = core then 1 else 2
       let there := c == core || bits d 10 8 == core
       there && ((bits d 1 0 == kind && bits d 23 16 == i) || (bits d 3 2 == kind && bits d 31 24 == i)))))

/-- Word `w` of an entry stored by a prep core that serves a partition: PARTITION, WR_PTR and FULL are kept. Words 1 and 3
take effect as a store of word 0 sets VALID; that store clears WR_PTR and FULL where the entry was not valid (R340). -/
def HandleEntry.store (h : HandleEntry) (part w : Nat) (v : Word64) : HandleEntry :=
  match w with
  | 0 =>
    let h' := { h with w0 := (v &&& entryMask0 &&& ~~~(0xE : Word64)) ||| BitVec.ofNat 64 (part * 2) }
    if !h'.valid then h'
    else
      let h' := { h' with w1 := h.next1.getD h.w1, w3 := h.next3.getD h.w3, next1 := none, next3 := none }
      if h.valid then h' else { h' with wrPtr := 0, full := 0 }
  | 1 => { h with next1 := some (v &&& entryMask1) }
  | 3 => { h with next3 := some v }
  | _ => h

/-- HANDLE_ENTRY_STORE: a prep core stores a word of the handle table, or of the pool-map table behind it
(R328, R340, R341, R374, R511). -/
def execHandleEntryStore (core : Fin 8) (prep : Fin 4) (addr : Fin 8704) (value : Word64) (s : State) :
    Host.Outcome State Fault Refusal :=
  .next (match s.prepPart core prep with
  | none => s
  | some part =>
    if addr.val % 8 ≠ 0 ∨ s.fenced core then s
    else
    let s := s.progress core (112 + prep)
    if 8192 ≤ addr.val then
      s.modCore core (fun k => { k with poolMap := wrBytes k.poolMap (addr.val - 8192) (toLe 8 value.toNat) })
    else
      let i := addr.val / 32
      let w := addr.val % 32 / 8
      if i = 0 then s
      else if s.handleBusy core i then s.logEvent 0x8003 0 0x06 (core * 4 + prep) [(8, core), (8, i)]
      else
        let k := s.core core
        let e := (k.handle i).store part w value
        let reserves := ((k.poolRings.filter (fun p => p.1 ≠ i)).map (fun p => p.2.poolReserve)).foldl (· + ·) 0
        let tooMany := w == 0 && e.valid && e.pool && decide (s.poolSize core < reserves + e.poolReserve)
        let e' := if tooMany then { e with w0 := e.w0 &&& ~~~(1 : Word64) } else e
        let t := s.modCore core (fun k =>
          { k with handles := kset k.handles i e'
                   shadow := kset k.shadow i { e' with wrPtr := 0, full := 0 } })
        if tooMany then t.logEvent 0x8006 memPOOL_RESERVE.toNat 0x06 (core * 4 + prep) [(8, core), (8, i)] else t)

end Sys2Proof.Machine
end

