-- ==== Sys2Proof/Machine/Numeric.lean ====
section
/-! DEFINITION. Number formats (03): exact values, encodings, rounding, FP32 arithmetic, conversions with their numeric
events, and the identities of reductions. -/

namespace Sys2Proof

/-! ### Exact numbers -/

/-- A fraction in lowest terms. -/
def Frac.norm (q : Frac) : Frac :=
  let g := Nat.gcd q.num.natAbs q.den
  if g = 0 then ⟨0, 1⟩ else ⟨q.num / g, q.den / g⟩

def Frac.ofInt (i : Int) : Frac := ⟨i, 1⟩
def Frac.zero : Frac := ⟨0, 1⟩
def Frac.one : Frac := ⟨1, 1⟩
def Frac.add (a b : Frac) : Frac := Frac.norm ⟨a.num * b.den + b.num * a.den, a.den * b.den⟩
def Frac.neg (a : Frac) : Frac := ⟨-a.num, a.den⟩
def Frac.sub (a b : Frac) : Frac := Frac.add a (Frac.neg b)
def Frac.mul (a b : Frac) : Frac := Frac.norm ⟨a.num * b.num, a.den * b.den⟩
def Frac.abs (a : Frac) : Frac := ⟨a.num.natAbs, a.den⟩
/-- Quotient by a fraction that is not zero. -/
def Frac.div (a b : Frac) : Frac :=
  if b.num < 0 then Frac.norm ⟨-(a.num * b.den), a.den * b.num.natAbs⟩ else Frac.norm ⟨a.num * b.den, a.den * b.num.natAbs⟩
def Frac.lt (a b : Frac) : Bool := decide (a.num * b.den < b.num * a.den)
def Frac.le (a b : Frac) : Bool := decide (a.num * b.den ≤ b.num * a.den)
def Frac.isZero (a : Frac) : Bool := decide (a.num = 0)
def Frac.max (a b : Frac) : Frac := if Frac.lt a b then b else a

/-- 2 to a power. -/
def Frac.pow2 (e : Int) : Frac := if 0 ≤ e then ⟨2 ^ e.toNat, 1⟩ else ⟨1, 2 ^ (-e).toNat⟩

/-- floor(log2 q) of a positive fraction. -/
def Frac.ilog2 (q : Frac) : Int :=
  let e : Int := (Nat.log2 q.num.natAbs : Int) - (Nat.log2 q.den : Int)
  if Frac.lt q (Frac.pow2 e) then e - 1 else e

/-- Integer part (towards zero) of a fraction that is not negative. -/
def Frac.trunc (q : Frac) : Nat := q.num.natAbs / q.den

/-- floor of a fraction. -/
def Frac.floor (q : Frac) : Int := q.num / (q.den : Int)

/-- ceiling of a fraction. -/
def Frac.ceil (q : Frac) : Int := -((-q.num) / (q.den : Int))

end Sys2Proof

namespace Sys2Proof.Machine

/-- A value of a format: NaN, an infinity, or a sign with an exact magnitude (R93). -/
inductive FVal where
  | nan
  | inf (neg : Bool)
  | fin (neg : Bool) (mag : Frac)
  deriving DecidableEq, Repr

/-- An exact value as a signed fraction; zero where it has none. -/
def FVal.frac : FVal → Frac
  | .fin true m => Frac.neg m
  | .fin false m => m
  | _ => Frac.zero

/-- A signed fraction as a value; zero is +0. -/
def FVal.ofFrac (q : Frac) : FVal := .fin (decide (q.num < 0)) (Frac.abs q)

/-- A signed fraction as a value, with the sign that a zero takes. -/
def FVal.ofFracSigned (q : Frac) (negZero : Bool) : FVal :=
  if q.num = 0 then .fin negZero Frac.zero else FVal.ofFrac q

def FVal.isNan : FVal → Bool
  | .nan => true
  | _ => false

def FVal.isFinite : FVal → Bool
  | .fin _ _ => true
  | _ => false

/-- Sign of a value; NaN counts as positive. -/
def FVal.signNeg : FVal → Bool
  | .nan => false
  | .inf n => n
  | .fin n _ => n

/-- A value is a zero. -/
def FVal.isZero : FVal → Bool
  | .fin _ m => Frac.isZero m
  | _ => false

def FVal.neg : FVal → FVal
  | .nan => .nan
  | .inf n => .inf (!n)
  | .fin n m => .fin (!n) m

def FVal.abs : FVal → FVal
  | .nan => .nan
  | .inf _ => .inf false
  | .fin _ m => .fin false m

/-- Exact product (R101). -/
def FVal.mul : FVal → FVal → FVal
  | .nan, _ => .nan
  | _, .nan => .nan
  | .inf a, .inf b => .inf (a != b)
  | .inf a, .fin b m => if Frac.isZero m then .nan else .inf (a != b)
  | .fin a m, .inf b => if Frac.isZero m then .nan else .inf (a != b)
  | .fin a m, .fin b n => .fin (a != b) (Frac.mul m n)

/-- Exact sum, with the signed zero of round to nearest. -/
def FVal.add : FVal → FVal → FVal
  | .nan, _ => .nan
  | _, .nan => .nan
  | .inf a, .inf b => if a = b then .inf a else .nan
  | .inf a, .fin _ _ => .inf a
  | .fin _ _, .inf b => .inf b
  | .fin a m, .fin b n =>
    FVal.ofFracSigned (Frac.add (FVal.frac (.fin a m)) (FVal.frac (.fin b n))) (a && b)

/-- Order of values that are not NaN, with −0 below +0 (R132). -/
def FVal.lt : FVal → FVal → Bool
  | .nan, _ => false
  | _, .nan => false
  | .inf a, .inf b => a && !b
  | .inf a, .fin _ _ => a
  | .fin _ _, .inf b => !b
  | .fin a m, .fin b n =>
    if Frac.isZero m && Frac.isZero n then a && !b
    else Frac.lt (FVal.frac (.fin a m)) (FVal.frac (.fin b n))

/-- Order of values that are not NaN, zeros equal. -/
def FVal.ltNum (a b : FVal) : Bool := FVal.lt a b && !(a.isZero && b.isZero)

/-! ### Formats -/

/-- Parameters of a floating-point format (R93). -/
structure FFmt where
  eb : Nat
  mb : Nat
  bias : Nat
  hasInf : Bool
  hasNan : Bool
  /-- Code of the largest finite value. -/
  maxCode : Nat
  nanCode : Nat
  deriving DecidableEq, Repr

def fp32 : FFmt := ⟨8, 23, 127, true, true, 0x7F7FFFFF, 0x7FC00000⟩
def bf16 : FFmt := ⟨8, 7, 127, true, true, 0x7F7F, 0x7FC0⟩
def fp16 : FFmt := ⟨5, 10, 15, true, true, 0x7BFF, 0x7E00⟩
def e5m2 : FFmt := ⟨5, 2, 15, true, true, 0x7B, 0x7E⟩
def e4m3 : FFmt := ⟨4, 3, 7, false, true, 0x7E, 0x7F⟩
def e2m1 : FFmt := ⟨2, 1, 1, false, false, 0x7, 0x0⟩

/-- Bits of a format. -/
def FFmt.width (f : FFmt) : Nat := 1 + f.eb + f.mb

/-- Magnitude of the code without its sign bit. -/
def FFmt.mag (f : FFmt) (c : Nat) : Frac :=
  let e := c / 2 ^ f.mb
  let m := c % 2 ^ f.mb
  if e = 0 then Frac.mul ⟨m, 1⟩ (Frac.pow2 (1 - (f.bias : Int) - f.mb))
  else Frac.mul ⟨2 ^ f.mb + m, 1⟩ (Frac.pow2 ((e : Int) - f.bias - f.mb))

/-- Value of a code (R93, R94). -/
def FFmt.decode (f : FFmt) (c : Nat) : FVal :=
  let neg := bit c (f.width - 1)
  let u := c % 2 ^ (f.width - 1)
  if u ≤ f.maxCode then .fin neg (f.mag u)
  else if f.hasInf && u == (2 ^ f.eb - 1) * 2 ^ f.mb then .inf neg
  else .nan

/-- Largest finite magnitude. -/
def FFmt.maxMag (f : FFmt) : Frac := f.mag f.maxCode

/-- Smallest normal magnitude. -/
def FFmt.minNormal (f : FFmt) : Frac := Frac.pow2 (1 - (f.bias : Int))

/-- Code, without sign, of a magnitude that the format represents. -/
def FFmt.encodeMag (f : FFmt) (q : Frac) : Nat :=
  if Frac.isZero q then 0
  else
    let e := Frac.ilog2 q
    if e < 1 - (f.bias : Int) then (Frac.mul q (Frac.pow2 ((f.bias : Int) + f.mb - 1))).trunc
    else
      let m := (Frac.mul q (Frac.pow2 ((f.mb : Int) - e))).trunc
      (e + f.bias).toNat * 2 ^ f.mb + (m - 2 ^ f.mb)

/-- A code with its sign bit. -/
def FFmt.signed (f : FFmt) (neg : Bool) (u : Nat) : Nat := (if neg then 2 ^ (f.width - 1) else 0) + u

/-- Rounding modes (R108). -/
inductive Rnd where
  | rne | rna | rto
  /-- Towards +∞, outside the conversions that carry ROUND (R113). -/
  | up
  deriving DecidableEq, Repr

/-- A non-negative fraction rounded to an integer; `odd` values in RTO. -/
def roundNat (mode : Rnd) (q : Frac) : Nat :=
  let n := q.trunc
  let r := Frac.sub q ⟨n, 1⟩
  if Frac.isZero r then n
  else match mode with
    | .rne => if Frac.lt r ⟨1, 2⟩ then n else if Frac.lt ⟨1, 2⟩ r then n + 1 else if n % 2 = 0 then n else n + 1
    | .rna => if Frac.lt r ⟨1, 2⟩ then n else n + 1
    | .rto => if n % 2 = 0 then n + 1 else n
    | .up => n + 1

/-- A positive magnitude rounded to a format's precision; with `sub` the quantum is that of subnormals below the
smallest normal, otherwise the exponent is unbounded below (R112, R113). -/
def FFmt.roundMag (f : FFmt) (mode : Rnd) (sub : Bool) (q : Frac) : Frac :=
  if Frac.isZero q then Frac.zero
  else
    let e := Frac.ilog2 q
    let emin : Int := 1 - f.bias
    let u := (if sub && e < emin then emin else e) - f.mb
    Frac.mul ⟨roundNat mode (Frac.mul q (Frac.pow2 (-u))), 1⟩ (Frac.pow2 u)

/-! ### FP32 arithmetic (R105 to R107) -/

/-- Value of an FP32 word. -/
def f32 (w : Word32) : FVal := fp32.decode w.toNat

/-- An exact value rounded to FP32, to nearest, ties to even; overflow is infinite, subnormals stay (R107, R114). -/
def toF32 : FVal → Word32
  | .nan => BitVec.ofNat 32 fp32.nanCode
  | .inf n => BitVec.ofNat 32 (fp32.signed n 0x7F800000)
  | .fin n m =>
    let q := fp32.roundMag .rne true m
    if Frac.lt fp32.maxMag q then BitVec.ofNat 32 (fp32.signed n 0x7F800000)
    else BitVec.ofNat 32 (fp32.signed n (fp32.encodeMag q))

def f32Add (a b : Word32) : Word32 := toF32 (FVal.add (f32 a) (f32 b))
def f32Sub (a b : Word32) : Word32 := toF32 (FVal.add (f32 a) (FVal.neg (f32 b)))
def f32Mul (a b : Word32) : Word32 := toF32 (FVal.mul (f32 a) (f32 b))
/-- a × b + c, rounded once (R107). -/
def f32Fma (a b c : Word32) : Word32 := toF32 (FVal.add (FVal.mul (f32 a) (f32 b)) (f32 c))

/-- BF16 value of a word, and a non-negative fraction rounded towards +∞ to BF16, its subnormal results kept (R113). -/
def bf16Val (w : Nat) : FVal := bf16.decode w

def bf16Up (q : Frac) : Nat :=
  let r := bf16.roundMag .up true q
  if Frac.lt bf16.maxMag r then 0x7F80 else bf16.encodeMag r

/-- Sum of FP32 words in an order that the spec leaves open: at each addition two of the terms left are chosen
(R105, log entry 9). -/
def f32SumAny (draw : Nat) : Nat → List Word32 → Word32
  | 0, l => l.headD 0
  | n + 1, l =>
    match l with
    | [] => 0
    | [a] => a
    | a :: b :: rest =>
      let len := rest.length + 2
      let i := Config.sumPick draw (2 * n) % len
      let l' := (a :: b :: rest).eraseIdx i
      let j := Config.sumPick draw (2 * n + 1) % (len - 1)
      f32SumAny draw n (l'.eraseIdx j ++ [f32Add ((a :: b :: rest).getD i 0) (l'.getD j 0)])

/-- The canonical NaN for any NaN word; every other word as it is (R118). -/
def canonNan (w : Word32) : Word32 := if (f32 w).isNan then BitVec.ofNat 32 fp32.nanCode else w

/-- Sum of FP32 words in an open order. -/
def f32Sum (draw : Nat) (l : List Word32) : Word32 := f32SumAny draw (l.length - 1) l

/-! ### Integer formats (R91) -/

/-- Bits, signedness and range of an integer format code. -/
def intRange (fmt : Nat) : Option (Int × Int) :=
  match fmt with
  | 0 => some (-128, 127)
  | 1 => some (0, 255)
  | 2 => some (-8, 7)
  | 3 => some (0, 15)
  | 7 => some (-2, 1)
  | _ => none

/-- Bits per element of a format code; EXW11 and VQ are stored in blocks (R88). -/
def fmtBits (fmt : Nat) : Nat :=
  match fmt with
  | 0 | 1 | 4 | 5 | 0xA => 8
  | 2 | 3 | 6 | 9 => 4
  | 7 | 8 => 2
  | 0xB | 0xC => 16
  | 0xD => 32
  | _ => 11

/-- Floating-point parameters of a format code that a conversion may produce (R88, R93). -/
def fmtFloat (fmt : Nat) : Option FFmt :=
  match fmt with
  | 4 => some e4m3
  | 5 => some e5m2
  | 6 => some e2m1
  | 0xB => some bf16
  | 0xC => some fp16
  | 0xD => some fp32
  | _ => none

/-- A conversion may produce the format (R88). -/
def fmtOutput (fmt : Nat) : Bool := (intRange fmt).isSome || (fmtFloat fmt).isSome

/-- Signed formats among the integers. -/
def intSigned (fmt : Nat) : Bool := fmt == 0 || fmt == 2 || fmt == 7

/-- Element `i` of packed elements of 2, 4, 8, 16 or 32 bits (R90). -/
def packedAt (bytes : List Byte) (w i : Nat) : Nat :=
  if w < 8 then ((bytes.getD (i * w / 8) 0).toNat >>> (i * w % 8)) % 2 ^ w
  else leAt bytes (i * w / 8) (w / 8)

/-- Packed bytes of elements, the last byte filled up with zeros (R90). -/
def packElems (w : Nat) (l : List Nat) : List Byte :=
  toLe ((l.length * w + 7) / 8) (l.reverse.foldl (fun acc e => acc * 2 ^ w + e % 2 ^ w) 0)

/-- An operand element: the value it stands for, and whether its code is the invalid TERN2 code (R91, R92, R93).
`codebook` holds the entries of a LUT operand with their format (R96). -/
def decodeElem (fmt : Nat) (codebook : Option (Nat × List Byte)) (c : Nat) : FVal × Bool :=
  match fmt with
  | 0 => (FVal.ofFrac (Frac.ofInt (sext 8 c)), false)
  | 1 => (FVal.ofFrac ⟨c, 1⟩, false)
  | 2 => (FVal.ofFrac (Frac.ofInt (sext 4 c)), false)
  | 3 => (FVal.ofFrac ⟨c, 1⟩, false)
  | 4 => (e4m3.decode c, false)
  | 5 => (e5m2.decode c, false)
  | 6 => (e2m1.decode c, false)
  | 7 => (FVal.ofFrac (Frac.ofInt (sext 2 c)), false)
  | 8 => if c = 2 then (FVal.ofFrac Frac.zero, true) else (FVal.ofFrac (Frac.ofInt (sext 2 c)), false)
  | 0xB => (bf16.decode c, false)
  | 0xC => (fp16.decode c, false)
  | 0xD => (fp32.decode c, false)
  | _ =>
    match codebook with
    | none => (FVal.ofFrac Frac.zero, false)
    | some (ef, entries) =>
      let e := (entries.getD c 0).toNat
      match ef with
      | 0 => (FVal.ofFrac (Frac.ofInt (sext 8 e)), false)
      | 4 => (e4m3.decode e, false)
      | _ => (e5m2.decode e, false)

/-- Value of an E8M0 scale; `nan` for 0xFF (R95). -/
def e8m0 (e : Nat) : FVal := if e = 0xFF then .nan else .fin false (Frac.pow2 ((e : Int) - 127))

/-! ### Conversions (R108 to R114) -/

/-- Numeric events of R125, one per conversion at most of each kind. -/
structure NumEv where
  nanOut : Bool := false
  saturated : Bool := false
  nanToZero : Bool := false
  deriving DecidableEq, Repr

/-- ROUND field (R108); 0b11 is rejected before it comes here. -/
def roundOf (r : Nat) : Rnd := if r = 1 then .rna else if r = 2 then .rto else .rne

/-- Conversion to a floating-point format (R109, R112 to R114). -/
def convFloat (f : FFmt) (mode : Rnd) (sat : Bool) (v : FVal) : Nat × NumEv :=
  match v with
  | .nan => if f.hasNan then (f.nanCode, {}) else (0, { nanToZero := true })
  | .inf n =>
    if f.hasInf then (f.signed n ((2 ^ f.eb - 1) * 2 ^ f.mb), {})
    else if !f.hasNan || sat then (f.signed n f.maxCode, { saturated := true })
    else (f.nanCode, { nanOut := true })
  | .fin n m =>
    let flush := f == bf16 || f == fp16
    let q := f.roundMag mode (!flush) m
    if mode = .rto ∧ Frac.lt f.maxMag m then (f.signed n f.maxCode, { saturated := true })
    else if Frac.lt f.maxMag q then
      if sat || !f.hasNan then (f.signed n f.maxCode, { saturated := true })
      else if f.hasInf then (f.signed n ((2 ^ f.eb - 1) * 2 ^ f.mb), {})
      else (f.nanCode, { nanOut := true })
    else if flush && Frac.lt q f.minNormal then (f.signed n 0, {})
    else (f.signed n (f.encodeMag q), {})

/-- A signed fraction rounded to an integer in a mode. -/
def roundInt (mode : Rnd) (q : Frac) : Int :=
  let m : Int := roundNat mode (Frac.abs q)
  if q.num < 0 then -m else m

/-- Conversion to an integer format with an output zero point: rounding, then the encoding of q + z (R112, R145). DESIGN
CHOICE (log entry 125): a NaN, which R112 makes 0, is taken as q = 0 and stored as z where the output has a zero point. -/
def convInt (fmt : Nat) (mode : Rnd) (z : Int) (v : FVal) : Nat × NumEv :=
  match intRange fmt with
  | none => (0, {})
  | some (lo, hi) =>
    let w := fmtBits fmt
    let enc (i : Int) : Nat := (i % (2 ^ w : Int)).toNat
    match v with
    | .nan => (enc (if z < lo then lo else if hi < z then hi else z), { nanToZero := true })
    | .inf n => (enc (if n then lo else hi), { saturated := true })
    | .fin n m =>
      let q := roundInt mode (FVal.frac (.fin n m)) + z
      if q < lo then (enc lo, { saturated := true })
      else if hi < q then (enc hi, { saturated := true })
      else (enc q, {})

/-- Conversion to an output format (R112). -/
def convert (fmt : Nat) (mode : Rnd) (sat : Bool) (z : Int) (v : FVal) : Nat × NumEv :=
  match fmtFloat fmt with
  | some f => convFloat f mode sat v
  | none => convInt fmt mode z v

/-! ### Reductions over nothing (R128) -/

/-- Kinds of reduction. -/
inductive RedOp where
  | sum | prod | max | min
  deriving DecidableEq, Repr

/-- Identity of a reduction in a destination format; `none` is INT32 (R128). -/
def redIdentity (op : RedOp) (fmt : Option Nat) : Nat :=
  match fmt with
  | none =>
    match op with
    | .sum => 0 | .prod => 1 | .max => 0x80000000 | .min => 0x7FFFFFFF
  | some c =>
    match fmtFloat c with
    | some f =>
      let one := f.bias * 2 ^ f.mb
      let top := if f.hasInf then (2 ^ f.eb - 1) * 2 ^ f.mb else f.maxCode
      match op with
      | .sum => 0 | .prod => one | .max => f.signed true top | .min => top
    | none =>
      match intRange c with
      | none => 0
      | some (lo, hi) =>
        let enc (i : Int) : Nat := (i % (2 ^ fmtBits c : Int)).toNat
        match op with
        | .sum => 0 | .prod => 1 | .max => enc lo | .min => enc hi

end Sys2Proof.Machine
end

