-- ==== Sys2Proof/Machine/Desc.lean ====
section
/-! DEFINITION. Fields of command descriptors (R188, R384, R69, R282, R345, R360, R369, R489, R492) as numbers, and the
places that operands, tensors, blocks and outputs take in their buffers. -/

namespace Sys2Proof.Machine

/-! ### Word 0 and the MATMUL family (R188) -/

def dOp (d : Nat) : Nat := bits d 7 0
def dClass (d : Nat) : Nat := bits d 9 8
def dStages (d : Nat) : Nat := bits d 12 10
def dPart (d : Nat) : Nat := bits d 15 13
def dCtx (d : Nat) : Nat := bits d 31 16
def dSemset (d : Nat) : Nat := bits d 47 32
def dSeq (d : Nat) : Nat := bits d 63 48
def dAH (d : Nat) : Nat := bits d 71 64
def dAFmt (d : Nat) : Nat := bits d 75 72
def dABs (d : Nat) : Bool := bit d 76
def dAMs (d : Nat) : Bool := bit d 77
def dActSel (d : Nat) : Bool := bit d 78
def dHandover (d : Nat) : Bool := bit d 79
def dAMsH (d : Nat) : Nat := bits d 87 80
def dZpA (d : Nat) : Nat := bits d 95 88
def dAOff (d : Nat) : Nat := bits d 127 96
def dBH (d : Nat) : Nat := bits d 135 128
def dBFmt (d : Nat) : Nat := bits d 139 136
def dBBs (d : Nat) : Bool := bit d 140
def dBMs (d : Nat) : Bool := bit d 141
def dRole (d : Nat) : Nat := bits d 143 142
def dBMsH (d : Nat) : Nat := bits d 151 144
def dWalkH (d : Nat) : Nat := bits d 151 144
def dCbH (d : Nat) : Nat := bits d 159 152
def dBOff (d : Nat) : Nat := bits d 191 160
def dM (d : Nat) : Nat := bits d 207 192
def dN (d : Nat) : Nat := bits d 223 208
def dK (d : Nat) : Nat := bits d 244 224
def dMembers (d : Nat) : Nat := if dOp d = 1 then 1 else bits d 251 245
def dAStr (d : Nat) : Nat := bits d 271 256
def dBStr (d : Nat) : Nat := bits d 287 272
def dOStr (d : Nat) : Nat := bits d 303 288
def dOH (d : Nat) : Nat := bits d 311 304
def dVecH (d : Nat) : Nat := bits d 319 312
def dOFmt (d : Nat) : Nat := bits d 323 320
def dRound (d : Nat) : Nat := bits d 325 324
def dSat (d : Nat) : Bool := bit d 326
def dMicro (d : Nat) : Bool := bit d 327
def dStats (d : Nat) : Bool := bit d 328
def dCheck (d : Nat) : Bool := bit d 329
def dClipDef (d : Nat) : Bool := bit d 330
def dRaw (d : Nat) : Bool := bit d 331
def dVeFin (d : Nat) : Bool := bit d 332
def dVecEn (d : Nat) : Bool := bit d 333
def dCausal (d : Nat) : Bool := bit d 334
def dSlot (d : Nat) : Nat := bits d 347 336
def dSlotEn (d : Nat) : Bool := bit d 348
def dZpO (d : Nat) : Nat := bits d 359 352
def dVProg (d : Nat) : Nat := bits d 367 360
def dVecOff (d : Nat) : Nat := bits d 383 368
def dClipLo (d : Nat) : Nat := bits d 415 384
def dClipHi (d : Nat) : Nat := bits d 447 416
def dOOff (d : Nat) : Nat := bits d 479 448
def dSteal (d : Nat) : Nat := bits d 481 480
def dWindow (d : Nat) : Nat := bits d 495 482
def dMask (d : Nat) : Nat := bits d 511 496

/-! ### VEC_RUN (R282) -/

def vrProg (d : Nat) : Nat := bits d 71 64
def vrOff (d : Nat) : Nat := bits d 87 72
def vrRuns (d : Nat) : Nat := bits d 103 88
def vrStride (d : Nat) : Nat := bits d 119 104
def vrClipDef (d : Nat) : Bool := bit d 120
def vrSlotEn (d : Nat) : Bool := bit d 121
def vrSlot (d : Nat) : Nat := bits d 139 128
def vrZpO (d : Nat) : Nat := bits d 151 144
def vrClipLo (d : Nat) : Nat := bits d 191 160
def vrClipHi (d : Nat) : Nat := bits d 223 192
def vrMask (d : Nat) : Nat := bits d 239 224
def vrSteal (d : Nat) : Nat := bits d 241 240
def vrQ (d i : Nat) : Nat := bits d (287 + 32 * i) (256 + 32 * i)

/-! ### CHECKPOINT (R69), credits (R369), streams (R345, R360) -/

def ckH (d : Nat) : Nat := bits d 71 64
def ckOff (d : Nat) : Nat := bits d 87 72
def ckIdx (d : Nat) : Nat := bits d 101 96
def ckVar (d : Nat) : Bool := bit d 102
def ckCount (d : Nat) : Nat := bits d 127 112
def ckRound (d : Nat) : Nat := bits d 159 128
def crH (d : Nat) : Nat := bits d 71 64
def crCore (d : Nat) : Nat := bits d 74 72
def crCount (d : Nat) : Nat := bits d 86 80
def ssDesc (d : Nat) : Nat := bits d 319 64
def ssChan (d : Nat) : Nat := bits d 325 320
def raChan (d : Nat) : Nat := bits d 69 64
def raSetSrc (d : Nat) : Bool := bit d 72
def raSetDst (d : Nat) : Bool := bit d 73
def raStop (d : Nat) : Bool := bit d 74
def raSrc (d : Nat) : Nat := bits d 167 128
def raDst (d : Nat) : Nat := bits d 231 192
def fnChannels (d : Nat) : Bool := bit d 64

/-! ### Stream descriptors (R344) -/

def sdSrcKind (x : Nat) : Nat := bits x 1 0
def sdDstKind (x : Nat) : Nat := bits x 3 2
def sdPersistent (x : Nat) : Bool := bit x 4
def sdRemote (x : Nat) : Nat := bits x 10 8
def sdSrcH (x : Nat) : Nat := bits x 23 16
def sdDstH (x : Nat) : Nat := bits x 31 24
def sdSem (x : Nat) : Nat := bits x 47 32
def sdRows (x : Nat) : Nat := bits x 63 48
def sdSrcAddr (x : Nat) : Nat := bits x 103 64
def sdRowBytes (x : Nat) : Nat := bits x 127 104
def sdDstAddr (x : Nat) : Nat := bits x 167 128
def sdSrcStride (x : Nat) : Nat := bits x 191 168
def sdDstStride (x : Nat) : Nat := bits x 215 192

/-! ### Semaphore and credit set entries (R492) -/

def seWaitIdx (x : Nat) : Nat := bits x 11 0
def seWaitCore (x : Nat) : Nat := bits x 14 12
def seWaitOp (x : Nat) : Nat := bits x 17 16
def seWaitVal (x : Nat) : Nat := bits x 63 32
def seSigIdx (x : Nat) : Nat := bits x 75 64
def seSigCore (x : Nat) : Nat := bits x 78 76
def seSigOp (x : Nat) : Nat := bits x 81 80
def seSigVal (x : Nat) : Nat := bits x 127 96
def seTimeout (x : Nat) : Nat := bits x 143 128
/-- Some RSVD field of an entry is non-zero. -/
def seRsvd (x : Nat) : Bool :=
  bit x 15 || bits x 31 18 != 0 || bit x 79 || bits x 95 82 != 0 || bits x 255 144 != 0

/-! ### RSVD fields by opcode (R12, R189) -/

/-- Ranges [hi:lo] of a descriptor that must be zero. -/
def rsvdOf (op : Nat) : List (Nat × Nat) :=
  match op with
  | 0x00 => [(511, 64)]
  | 0x01 => [(143, 142), (255, 245), (335, 334), (351, 349), (495, 482)]
  | 0x02 => [(255, 252), (335, 334), (351, 349), (495, 482)]
  | 0x03 => [(255, 252), (335, 335), (351, 349)]
  | 0x10 => [(511, 65)]
  | 0x11 | 0x12 => [(511, 320)]
  | 0x13 | 0x14 => [(79, 75), (511, 87)]
  | 0x20 => [(71, 69), (79, 75), (319, 280), (511, 326)]
  | 0x21 => [(71, 70), (127, 75), (191, 168), (511, 232)]
  | 0x30 => [(127, 122), (143, 140), (159, 152), (255, 242)]
  | 0x31 => [(95, 88), (111, 103), (511, 160)]
  | _ => []

/-- Opcodes of R189. -/
def opListed (op : Nat) : Bool :=
  [0x00, 0x01, 0x02, 0x03, 0x10, 0x11, 0x12, 0x13, 0x14, 0x20, 0x21, 0x30, 0x31].contains op

/-- Opcodes of the MATMUL family. -/
def isMatmul (d : Nat) : Bool := dOp d == 1 || dOp d == 2 || dOp d == 3

/-- Opcodes that a fused command may hold (R197). -/
def fusable (d : Nat) : Bool := isMatmul d || dOp d == 0x30

/-! ### Shapes and places -/

def pad64 (n : Nat) : Nat := cdiv n 64 * 64
def dNPad (d : Nat) : Nat := cdiv (dN d) 32 * 32
def dMPad (d : Nat) : Nat := cdiv (dM d) 64 * 64
/-- Column tiles and row tiles of an output. -/
def dCT (d : Nat) : Nat := cdiv (dN d) 32
def dRT (d : Nat) : Nat := cdiv (dM d) 64

/-- Bytes of `n` elements of a row or column as stored, with or without block headers (R90, R142). -/
def storedBytes (fmt n : Nat) (blocks : Bool) : Nat :=
  if blocks then cdiv n 128 * (4 + 16 * fmtBits fmt) else cdiv (n * fmtBits fmt) 8

/-- Coded part and extension of a Bell-format block (R289); `big` is the 256-entry codebook. -/
def bellSize (fmt : Nat) (big : Bool) : Nat × Nat := if fmt = 0xE then (45, 20) else if big then (9, 24) else (5, 28)

/-- B is in a Bell format. -/
def dBell (d : Nat) : Bool := dBFmt d == 0xE || dBFmt d == 0xF

/-- B uses a codebook. -/
def dCoded (d : Nat) : Bool := dBFmt d == 9 || dBFmt d == 0xA || dBFmt d == 0xF

/-- Bytes of a column of B as stored (R181, R290). -/
def colBytes (d : Nat) (big : Bool) : Nat :=
  if dBell d then cdiv (dK d) 32 * (bellSize (dBFmt d) big).1 else storedBytes (dBFmt d) (dK d) (dBBs d)

/-- Bytes of a row of the output as stored (R150, R203). -/
def outBytes (d : Nat) : Nat :=
  if dRaw d then 128 * dCT d else storedBytes (dOFmt d) (dN d) (dMicro d)

/-- Pitch of a micro-scale tensor's rows over `n` elements (R205, R710). -/
def msPitch (n : Nat) : Nat := pad64 (cdiv n 32)

/-- A pair accumulates in FP32 (R98, R102); `ef` is the entry format of B's codebook. -/
def floatFmt (fmt : Nat) (ef : Option Nat) : Option Bool :=
  match fmt with
  | 0 | 1 | 2 | 3 | 7 => some false
  | 8 => none
  | 9 | 0xA =>
    match ef with
    | some 0 => some false
    | some _ => some true
    | none => none
  | _ => some true

/-- Family of a pair; TERN2 takes its partner's. -/
def pairFloat (fa fb : Nat) (ef : Option Nat) : Bool :=
  match floatFmt fa none, floatFmt fb ef with
  | some a, _ => a
  | none, some b => b
  | none, none => false

/-- Bytes of one check vector (R208). -/
def checkBytes (d : Nat) (float : Bool) : Nat := pad64 (if float then 6 * dK d else 2 * dK d)

/-- Offset of the check vectors from a member's block (R208, R710). -/
def checkOff (d : Nat) : Nat :=
  dNPad d * dBStr d * 64 + (if dOp d = 1 && dBMs d && dBMsH d == dBH d then dNPad d * msPitch (dK d) else 0)

/-- Bytes from one member's block of a gather buffer to the next (R386). -/
def memberBytes (d : Nat) (float : Bool) : Nat :=
  dNPad d * dBStr d * 64 + (if dCheck d then dCT d * checkBytes d float else 0)

/-- Length of the vectors of a conversion block: N_pad, M_pad with ACT_SEL (R139), MEMBERS × N_pad for a score (R391). -/
def convLen (d : Nat) : Nat :=
  if dOp d = 3 then dMembers d * dNPad d else if dActSel d then dMPad d else dNPad d

/-- Offset of the tile statistics records from the conversion block (R201, R391). -/
def statsOff (d : Nat) : Nat := pad64 (12 * convLen d + (if dOp d = 3 then 4 * dMPad d else 0))

/-- Bytes of a conversion block. -/
def convBytes (d : Nat) : Nat :=
  if dStats d then statsOff d + dRT d * dCT d * 144
  else 12 * convLen d + (if dOp d = 3 then 4 * dMPad d else 0)

/-- Where operand A of a stage lies: buffer, offset, stride in 64-byte units (R199). -/
def aPlace (ds : List Nat) (st : Nat) : Nat × Nat × Nat :=
  let d := ds.getD st 0
  if dHandover d ∧ 0 < st then
    let p := ds.getD (st - 1) 0
    (dOH p, dOOff p, dOStr p)
  else (dAH d, dAOff d, dAStr d)

/-- Where the micro-scale tensor of A of a stage lies (R710). -/
def aMsPlace (ds : List Nat) (st : Nat) : Nat × Nat :=
  let d := ds.getD st 0
  let a := aPlace ds st
  (dAMsH d, a.2.1 + dM d * a.2.2 * 64)

/-- A field range of a descriptor is non-zero. -/
def anySet (d : Nat) (rs : List (Nat × Nat)) : Bool := rs.any (fun r => bits d r.1 r.2 != 0)

end Sys2Proof.Machine
end

