-- ==== Sys2Proof/Machine/VProg.lean ====
section
/-! DEFINITION. Vector programs (R242 to R255): header, instruction fields, the order in which a program's instructions
issue, the checks of R250 and the places that its port instructions reach. -/

namespace Sys2Proof.Machine

/-- A vector program as loaded (R242). -/
structure VProg where
  proLen : Nat
  bodyLen : Nat
  mode : Nat
  progId : Nat
  /-- The header holds a non-zero RSVD field. -/
  rsvd : Bool
  pro : List Nat
  body : List Nat
  deriving DecidableEq, Repr

/-- A program read from its bytes. -/
def VProg.parse (bytes : List Byte) : VProg :=
  let h := leAt bytes 0 8
  let p := bits h 6 0
  let b := bits h 15 8
  let ins (i n : Nat) : List Nat := (List.range n).map (fun k => leAt bytes (8 + 8 * (i + k)) 8)
  { proLen := p, bodyLen := b, mode := bits h 16 16, progId := bits h 63 32
    rsvd := bit h 7 || bits h 31 17 != 0, pro := ins 0 p, body := ins p b }

/-! ### Fields of the ALU form (R252) -/

def vOp (w : Nat) : Nat := bits w 7 0
def vDst (w : Nat) : Nat := bits w 12 8
def vSrcA (w : Nat) : Nat := bits w 18 13
def vSrcB (w : Nat) : Nat := bits w 24 19
def vSrcC (w : Nat) : Nat := bits w 30 25
def vNegA (w : Nat) : Bool := bit w 31
def vNegB (w : Nat) : Bool := bit w 32
def vAbsA (w : Nat) : Bool := bit w 33
def vRel (w : Nat) : Bool := bit w 34
def vMMode (w : Nat) : Nat := bits w 36 35
def vMSel (w : Nat) : Nat := bits w 38 37
def vAxis (w : Nat) : Bool := bit w 39
def vAcc (w : Nat) : Bool := bit w 40
def vFmt (w : Nat) : Nat := bits w 44 41
def vRound (w : Nat) : Nat := bits w 46 45
def vSat (w : Nat) : Bool := bit w 47
def vImm (w : Nat) : Nat := bits w 63 48
def vCount (w : Nat) : Nat := bits w 53 48 + 1
def vLen (w : Nat) : Nat := bits w 58 54 + 1

/-! ### Fields of the port form (R254) -/

def pReg (w : Nat) : Nat := bits w 12 8
def pRel (w : Nat) : Bool := bit w 13
def pRunRel (w : Nat) : Bool := bit w 14
def pMMode (w : Nat) : Nat := bits w 16 15
def pMSel (w : Nat) : Nat := bits w 18 17
def pFmt (w : Nat) : Nat := bits w 22 19
def pRound (w : Nat) : Nat := bits w 24 23
def pSat (w : Nat) : Bool := bit w 25
def pBase (w : Nat) : Nat := bits w 27 26
def pBcast (w : Nat) : Nat := bits w 29 28
def pMicro (w : Nat) : Bool := bit w 30
def pChk (w : Nat) : Bool := bit w 31
def pHandle (w : Nat) : Nat := bits w 39 32
def pOff (w : Nat) : Nat := bits w 55 40
def pStride (w : Nat) : Nat := bits w 63 56

/-! ### Classes of opcodes -/

def vPort (op : Nat) : Bool := decide (0x40 ≤ op) && decide (op ≤ 0x45)
def vFloatRed (op : Nat) : Bool := decide (0x30 ≤ op) && decide (op ≤ 0x35)
def vIntRed (op : Nat) : Bool := decide (0x50 ≤ op) && decide (op ≤ 0x55)
def vRed (op : Nat) : Bool := vFloatRed op || vIntRed op
def vArg (op : Nat) : Bool := op == 0x34 || op == 0x35 || op == 0x54 || op == 0x55
def vCmp (op : Nat) : Bool := op == 0x0D || op == 0x1B
def vMaskOp (op : Nat) : Bool := decide (0x38 ≤ op) && decide (op ≤ 0x3B)

/-- Opcodes of the instruction set. -/
def vListed (op : Nat) : Bool :=
  decide (op ≤ 0x0E) || (decide (0x10 ≤ op) && decide (op ≤ 0x1B)) || (decide (0x20 ≤ op) && decide (op ≤ 0x22))
    || (decide (0x28 ≤ op) && decide (op ≤ 0x2C)) || (decide (0x30 ≤ op) && decide (op ≤ 0x36))
    || (decide (0x38 ≤ op) && decide (op ≤ 0x3D)) || vPort op || vIntRed op

/-- Sources A, B and C that an ALU instruction reads. -/
def vSources (w : Nat) : List Nat :=
  let op := vOp w
  let a := vSrcA w
  let b := vSrcB w
  if op = 0 ∨ op = 0x3C ∨ op = 0x3D ∨ vMaskOp op = true ∨ vPort op = true then []
  else if op = 4 ∨ (vArg op = true) then (if op = 4 then [a, b, vSrcC w] else [a, vSrcC w])
  else if (7 ≤ op ∧ op ≤ 0xA) ∨ op = 0x20 ∨ op = 0x21 ∨ op = 0x22 ∨ op = 0x29 ∨ op = 0x2A ∨ op = 0x2B ∨ op = 0x2C
      ∨ vRed op = true ∨ op = 0x36 then [a]
  else [a, b]

/-- A source code names an accumulator slice. -/
def srcIsAcc (c : Nat) : Bool := decide (0x20 ≤ c) && decide (c ≤ 0x28)

/-- The instructions of a section in order of issue, each with its loop index (R245, R246). -/
def expandSec : Nat → List Nat → List (Nat × Nat)
  | 0, _ => []
  | _, [] => []
  | n + 1, w :: ws =>
    if vOp w = 0x3C then
      let blk := ws.take (vLen w)
      ((List.range (vCount w)).map (fun i => blk.map (fun x => (x, i)))).flatten ++ expandSec n (ws.drop (vLen w))
    else (w, 0) :: expandSec n ws

def VProg.proSteps (p : VProg) : List (Nat × Nat) := expandSec p.pro.length p.pro
def VProg.bodySteps (p : VProg) : List (Nat × Nat) := expandSec p.body.length p.body

/-- Loops of a section neither nest nor run past it. -/
def loopsOk : Nat → List Nat → Bool
  | 0, _ => true
  | _, [] => true
  | n + 1, w :: ws =>
    if vOp w = 0x3C then
      decide (vLen w ≤ ws.length) && (ws.take (vLen w)).all (fun x => vOp x != 0x3C) && loopsOk n (ws.drop (vLen w))
    else loopsOk n ws

/-- T-register number with the loop index (R246). -/
def relReg (rel : Bool) (r i : Nat) : Nat := if rel then (r + i) % 32 else r

/-- Registers that an instruction reads: T registers, then 32 + mask registers (R250). -/
def vReads (w i : Nat) : List Nat :=
  let op := vOp w
  if vPort op then
    (if op = 0x41 ∨ op = 0x42 then [relReg (pRel w) (pReg w) i] else [])
      ++ (if op = 0x45 then [32 + bits w 9 8] else [])
      ++ (if pMMode w ≠ 0 then [32 + pMSel w] else [])
  else
    ((vSources w).filter (· < 32)).map (fun r => relReg (vRel w) r i)
      ++ (if vMMode w ≠ 0 ∨ op = 0x0E then [32 + vMSel w] else [])
      ++ (if vRed op ∧ vAcc w then
            let d := relReg (vRel w) (vDst w) i
            d :: (if vArg op then [(d + 1) % 32] else [])
          else [])
      ++ (if op = 0x38 ∨ op = 0x39 then [32 + vSrcA w % 4, 32 + vSrcB w % 4] else if op = 0x3A then [32 + vSrcA w % 4] else [])

/-- Registers that an instruction writes. -/
def vWrites (w i : Nat) : List Nat :=
  let op := vOp w
  if vPort op then
    if op = 0x40 then [relReg (pRel w) (pReg w) i] else if op = 0x44 then [32 + bits w 9 8] else []
  else if op = 0 ∨ op = 0x3C ∨ op = 0x3D then []
  else if vCmp op ∨ vMaskOp op then [32 + bits w 9 8]
  else
    let d := relReg (vRel w) (vDst w) i
    d :: (if vArg op then [(d + 1) % 32] else [])

/-- A walk over issued instructions that finds a read of a register not yet written; M0 counts as written. -/
def readsUnwritten : NSet → List (Nat × Nat) → Bool
  | _, [] => false
  | have_, (w, i) :: l =>
    (vReads w i).any (fun r => r != 32 && !have_.contains r) || readsUnwritten ((vWrites w i).foldl nins have_) l

/-- Rounding is permitted for a destination (R108, R110). -/
def roundOk (round fmt : Nat) : Bool := round != 3 && (round != 2 || fmt == 0xB || fmt == 0xC)

/-- Formats that a micro-scaled output may take (R149). -/
def microFmt (fmt : Nat) : Bool := fmt == 6 || fmt == 4 || fmt == 5

/-- Formats that a load accepts (R254). -/
def loadFmt (fmt : Nat) : Bool := decide (fmt ≤ 8) || (decide (0xB ≤ fmt) && decide (fmt ≤ 0xD))

/-- An instruction sets ROUND to 0b11, or to RTO for a destination other than BF16 or FP16: CVTFI, and PACK, whose
destination is its own format or, with BASE OUT, the output's (R108, R110). -/
def vRoundBad (outFmt w : Nat) : Bool :=
  if vOp w = 0x20 then 2 ≤ vRound w
  else if vOp w = 0x42 then !roundOk (pRound w) (if pBase w = 1 then outFmt else pFmt w)
  else false

/-- One instruction passes the checks of R250 that concern it alone; its rounding mode has its own test (R110). -/
def vInstrOk (finishing prologue : Bool) (micro : Bool) (w : Nat) : Bool :=
  let op := vOp w
  let slice := (vSources w).any srcIsAcc
  if !vListed op then false
  else if vPort op then
    let out := pBase w = 1
    (pBase w != 3) && (pMMode w != 3)
      && !(out && (!finishing || prologue)) && !(pBase w == 2 && !finishing)
      && !(pRunRel w && finishing)
      && !((op == 0x44 || op == 0x45) && bits w 12 10 != 0)
      && !(op == 0x44 && bits w 9 8 == 0)
      && (op != 0x40 || loadFmt (pFmt w))
      && (op != 0x42 || (if out then pFmt w == 0 && pRound w == 0 && !pSat w && pMicro w == micro
          else fmtOutput (pFmt w) && (!pMicro w || microFmt (pFmt w))))
  else
    !(slice && (!finishing || prologue)) && !(op == 0x3D && (!finishing || prologue))
      && (vMMode w != 3)
      && (vSources w).all (fun c => decide (c ≤ 0x36))
      && !((vCmp op || vMaskOp op) && (bits w 12 10 != 0 || bits w 9 8 == 0))
      && !(vArg op && vDst w == 31)
      && (!vCmp op || decide (vFmt w ≤ 5))
      && (!vRed op || fmtOutput (vFmt w))
      && (op != 0x20 || vFmt w == 0xD)

/-- The program passes the checks of R250 for a command. -/
def VProg.ok (p : VProg) (finishing micro : Bool) : Bool :=
  !p.rsvd && decide (p.proLen ≤ 64) && decide (1 ≤ p.bodyLen) && decide (p.bodyLen ≤ 192)
    && p.mode == (if finishing then 0 else 1)
    && p.pro.all (vInstrOk finishing true micro) && p.body.all (vInstrOk finishing false micro)
    && loopsOk p.proLen p.pro && loopsOk p.bodyLen p.body
    && !readsUnwritten (p.proSteps.foldl (fun h q => (vWrites q.1 q.2).foldl nins h) []) p.bodySteps

/-! ### Places of port instructions -/

/-- Rows and elements per row that a port instruction of register tiles moves (R254). -/
def portShape (w : Nat) : Nat × Nat :=
  if vOp w = 0x40 then
    (if pBcast w = 1 ∨ pBcast w = 3 then 1 else 8, if pBcast w = 2 ∨ pBcast w = 3 then 1 else 32)
  else (8, 32)

/-- Bits per element in memory of a port instruction. -/
def portBits (w : Nat) : Nat := if vOp w = 0x41 then 32 else fmtBits (pFmt w)

/-- What REL and ROW_STRIDE add to a port instruction's address, whatever its BASE (R254). -/
def portRel (w i : Nat) : Nat :=
  if vOp w = 0x45 then pStride w + (if pRel w then i else 0)
  else if pRel w then i * 8 * pStride w * 64 else 0

/-- Byte offset of a port instruction with BASE 0b00 in its buffer (R254). -/
def portStart (w i run runStride : Nat) : Nat :=
  pOff w * 64 + (if pRunRel w then run * runStride * 64 else 0) + portRel w i

/-- A format is of the integer family. -/
def fmtInt (fmt : Nat) : Bool := (intRange fmt).isSome

/-- The output that CHKST serves is of the float family: that of the program's first PACK with CHK (R271). -/
def VProg.chkFloat (p : VProg) (outFmt : Nat) : Bool :=
  match (p.pro ++ p.body).find? (fun w => vOp w == 0x42 && pChk w) with
  | none => true
  | some w => !fmtInt (if pBase w = 1 then outFmt else pFmt w)

/-- Bytes from its start that a port instruction with BASE 0b00 reaches. -/
def portBytes (w : Nat) (chkFloat : Bool) : Nat :=
  match vOp w with
  | 0x43 => if chkFloat then 192 else 64
  | 0x44 => 32
  | 0x45 => 1
  | _ =>
    let s := portShape w
    (s.1 - 1) * pStride w * 64 + cdiv (s.2 * portBits w) 8

/-- Handles that the program's port instructions store to, or load from, with BASE 0b00. -/
def VProg.handlesOf (p : VProg) (store : Bool) : List Nat :=
  ((p.pro ++ p.body).filter (fun w =>
    vPort (vOp w) && pBase w == 0 && (vOp w == 0x40 || vOp w == 0x44) != store)).map pHandle

/-- Buffers and farthest ends that the program's port instructions reach, over every run. -/
def VProg.reaches (p : VProg) (runs runStride outFmt : Nat) : List (Nat × Nat) :=
  (p.proSteps ++ p.bodySteps).filterMap (fun q =>
    if vPort (vOp q.1) && pBase q.1 == 0 then
      some (pHandle q.1, portStart q.1 q.2 (runs - 1) runStride + portBytes q.1 (p.chkFloat outFmt))
    else none)

end Sys2Proof.Machine
end

