-- ==== Sys2Proof/Machine/Validate.lean ====
section
/-! DEFINITION. Validation of a command by the command router (R194, R195, R197, R198, R250, R346, R361, R370, R385, R493). -/

namespace Sys2Proof.Machine

/-! ### Scale slots (R152, R153) -/

def slHist (x i : Nat) : Nat := bits x (16 * i + 15) (16 * i)
def slHead (x : Nat) : Nat := bits x 259 256
def slCount (x : Nat) : Nat := bits x 264 260
def slWindow (x : Nat) : Nat := bits x 268 265 + 1
def slFmt (x : Nat) : Nat := bits x 272 269
def slPow2 (x : Nat) : Bool := bit x 273
def slMicro (x : Nat) : Bool := bit x 274
def slMargin (x : Nat) : Nat := bits x 303 288
def slInit (x : Nat) : Nat := bits x 319 304
def slZp (x : Nat) : Nat := bits x 327 320
def slConst (x : Nat) : Nat := bits x 367 352

/-- The scale-slot table that a context's commands name on a core: its own model's, or, for a system context, that of
the partition's first resident model that declares one (log entry 25). -/
def State.slotTable (s : State) (core : Nat) (ct : Ctx) : Option SlotTable :=
  let of_ (m : ModelSlot) : Option SlotTable := m.pkg.bind (fun p => p.slotTables.find? (fun t => t.core == core))
  match ct.slot.bind s.model? with
  | some m => of_ m
  | none => ((s.svc.models.map Prod.snd).filter (fun m => m.part == ct.part && m.state == 2)).findSome? of_

/-- Address of a slot's record; `none` beyond the core's table (R154). -/
def State.slotAddr (s : State) (core : Nat) (ct : Ctx) (slot : Nat) : Option Nat :=
  match s.slotTable core ct with
  | none => none
  | some t => if slot < t.count then some (t.base + 64 * slot) else none

/-- A slot's record. -/
def State.slotRec (s : State) (core : Nat) (ct : Ctx) (slot : Nat) : Option Nat :=
  (s.slotAddr core ct slot).map (fun a => s.hbmNat a 64)

/-- Wider form of an output format (R167). -/
def widerFmt (fmt : Nat) : Option Nat :=
  match fmt with
  | 6 => some 4 | 7 => some 2 | 2 => some 0 | 3 => some 1 | 4 | 5 => some 0xB | _ => none

/-- A stage that names slot `x` at `addr` with output format `fmt` repeats a safeguarded layer with its wider form: its
round has been granted a wider re-run and has latched the slot, and the format is the wider form of the slot's (R169). -/
def State.wideUse (s : State) (core ctxId addr x fmt : Nat) : Bool :=
  match (s.core core).rounds.find? (fun r => r.ctx == ctxId) with
  | none => false
  | some r => r.wider && (kget? r.latches addr).isSome && widerFmt (slFmt x) == some fmt

/-! ### The queue of a context (R436, R438) -/

/-- Descriptor of a queue index. -/
def State.queued (s : State) (ct : Ctx) (i : Nat) : Nat :=
  s.hbmNat (ct.queueBase + 64 * (i % 2 ^ (ct.queueLog2 + 4))) 64

/-- Descriptors between HEAD and TAIL. -/
def Ctx.depth (ct : Ctx) : Nat := (ct.tail + 65536 - ct.head) % 65536

/-- Descriptors of the head command: its STAGES when it is the first of a fused command, otherwise one; an opcode that no
fused command may hold takes one, and fails test 5 of R194 (R197, R198; log entry 26). -/
def headLen (d : Nat) : Nat := if fusable d ∧ 1 ≤ dStages d ∧ dStages d ≤ 4 then dStages d else 1

/-- The head command's descriptors, once all of them have been appended (log entry 26). -/
def State.headDescs (s : State) (ct : Ctx) : Option (List Nat) :=
  if ct.depth = 0 then none
  else
    let n := headLen (s.queued ct ct.head)
    if ct.depth < n then none else some ((List.range n).map (fun k => s.queued ct (ct.head + k)))

/-! ### Walk lists (R387) -/

def wePt (x : Nat) : Nat := bits x 39 0
def weFirst (x : Nat) : Nat := bits x 63 48
def weCount (x : Nat) : Nat := bits x 74 64
def weGlobal (x : Nat) : Bool := bit x 75
def weMember (x : Nat) : Nat := bits x 81 76
def weGlobH (x : Nat) : Nat := bits x 95 88
def weGlobOff (x : Nat) : Nat := bits x 111 96
def weFirstCol (x : Nat) : Nat := bits x 127 112
/-- Key columns that an entry fills (R388). -/
def weCols (x : Nat) : Nat := if weGlobal x then weCount x else 16 * weCount x

/-- Entries of a walk list up to its terminating entry; `none` where there is none within `n` entries. -/
def State.walkList (s : State) (core : Nat) (h : HandleEntry) : Nat → Nat → Option (List Nat)
  | 0, _ => none
  | n + 1, o =>
    if h.bytes < o + 16 then none
    else
      let e := s.bufNat core h o 16
      if weCount e = 0 then some [] else (s.walkList core h n (o + 16)).map (e :: ·)

/-- Entries of a walk command's list, as far as its handle is usable and the list terminates. -/
def State.walkOf (s : State) (core part d : Nat) : Option (List Nat) :=
  (s.usable core part (dWalkH d)).bind (fun h => s.walkList core h 256 0)

/-- Key count of a member and head dimension (R384). -/
def keyCount (d : Nat) : Nat := if dRole d = 1 then dK d else dN d
def headDim (d : Nat) : Nat := if dRole d = 1 then dN d else dK d

/-- The entries fill columns that overlap or lie beyond the key count (R385). -/
def walkColsBad (d : Nat) : List Nat → Bool
  | [] => false
  | e :: l =>
    decide (keyCount d < weFirstCol e + weCols e)
      || l.any (fun f => weMember f == weMember e && decide (weFirstCol e < weFirstCol f + weCols f)
          && decide (weFirstCol f < weFirstCol e + weCols e))
      || walkColsBad d l

/-- A walk list breaks the shape rules of R385 and R387. -/
def walkShapeBad (d : Nat) (l : List Nat) : Bool :=
  l.any (fun e => decide (dMembers d ≤ weMember e) || wePt e % 8 != 0
      || (if weGlobal e then decide (1024 < weCount e) else decide (513 < weCount e))
      || (dBFmt d == 0xF && (weGlobal e || weFirst e % 2 == 1 || weCount e % 2 == 1)))
    || walkColsBad d l

/-! ### Codebooks -/

/-- Entry format and size of the codebook that a stage names, as its header gives them (R159, R297). -/
def State.codebookInfo (s : State) (core part d : Nat) : Option Nat × Bool :=
  if dCoded d then
    match s.usable core part (dCbH d) with
    | none => (none, false)
    | some h =>
      let x := s.bufNat core h 0 8
      let e := bits x 3 0
      (if e = 0 ∨ e = 4 ∨ e = 5 then some e else none, bit x 4)
  else (none, false)

/-! ### Tests of one stage -/

/-- The code of the first test that fails. -/
def firstBad (l : List (Bool × Word16)) : Option Word16 := (l.find? Prod.fst).map Prod.snd

/-- The program of a stage, if its buffer is usable: the buffer, the program, its byte offset. -/
def State.programOf (s : State) (core part d : Nat) : Option (HandleEntry × VProg × Nat) :=
  let h := if dOp d = 0x30 then vrProg d else dVProg d
  let o := if dOp d = 0x30 then vrOff d * 256 else 0
  (s.usable core part h).map (fun e => (e, VProg.parse (s.bufRead core e o 2056), o))

/-- The stage runs a vector program. -/
def hasProgram (d : Nat) : Bool := dOp d == 0x30 || (isMatmul d && dVeFin d)

/-- The stage's vector program sets a rounding mode that R110 does not allow: NUM_ROUND_MODE, which the router gives before
the checks of R250 (R110, log entry 127). -/
def State.programRoundBad (s : State) (core part d : Nat) : Bool :=
  hasProgram d && (match s.programOf core part d with
    | none => false
    | some (_, p, _) => (p.pro ++ p.body).any (vRoundBad (dOFmt d)))

/-- Handles that the stage's vector program names, with the ends it reaches; BASE OUT and BASE CB name the output and
the conversion block. -/
def State.programReaches (s : State) (core part d : Nat) : List (Nat × Nat) :=
  if hasProgram d then
    match s.programOf core part d with
    | none => []
    | some (_, p, _) =>
      if dOp d = 0x30 then p.reaches (vrRuns d) (vrStride d) 0
      else
        let ports := (p.pro ++ p.body).filter (fun w => vPort (vOp w))
        p.reaches 1 0 (dOFmt d)
          ++ (if ports.any (fun w => pBase w == 1) then [(dOH d, 0)] else [])
          ++ (if ports.any (fun w => pBase w == 2) then [(dVecH d, 0)] else [])
  else []

/-- Handles that a stage names; 0 in the list is a handle that must be there and is not (R194). -/
def stageHandles (d : Nat) (walk : List Nat) (prog : List (Nat × Nat)) : List Nat :=
  if isMatmul d then
    (if dHandover d then [] else [dAH d]) ++ (if dAMs d then [dAMsH d] else []) ++ [dBH d]
      ++ (if dOp d = 1 ∧ dBMs d then [dBMsH d] else []) ++ (if dCoded d then [dCbH d] else [])
      ++ (if dVeFin d ∧ dOH d = 0 then [] else [dOH d]) ++ (if dVecEn d then [dVecH d] else [])
      ++ (if dVeFin d then [dVProg d] else []) ++ (if dOp d ≠ 1 then [dWalkH d] else [])
      ++ (walk.filter weGlobal).map weGlobH ++ prog.map Prod.fst
  else if dOp d = 0x30 then vrProg d :: prog.map Prod.fst
  else if dOp d = 0x31 then [ckH d]
  else []

/-- Test 6: shapes (R194, R291, R385). -/
def State.shapeBad (s : State) (core part : Nat) (ds : List Nat) (st : Nat) : Bool :=
  let d := ds.getD st 0
  if isMatmul d then
    let cb := s.codebookInfo core part d
    let walk := dOp d ≠ 1
    let needOut := !(dVeFin d && dOH d == 0)
    dM d == 0 || dN d == 0 || dK d == 0 || decide (1048576 < dK d)
      || dAOff d % 64 != 0 || dBOff d % 64 != 0 || dOOff d % 64 != 0
      || (!dHandover d && decide (dAStr d * 64 < storedBytes (dAFmt d) (dK d) (dABs d)))
      || decide (dBStr d * 64 < colBytes d cb.2)
      || (needOut && decide (dOStr d * 64 < outBytes d))
      || (dBell d && (dBStr d == 0 || dBOff d % (dBStr d * 64) != 0))
      || (walk && (dMembers d == 0 || decide (64 < dMembers d)
            || (decide (1 < dMembers d) && dM d != 64 * dMembers d)
            || decide (4096 < keyCount d) || decide (headDim d < 32) || decide (256 < headDim d) || headDim d % 32 != 0
            || (match s.usable core part (dWalkH d) with
                | none => false
                | some h =>
                  match s.walkList core h 256 0 with
                  | none => true
                  | some l => walkShapeBad d l)))
  else if dOp d = 0x30 then vrRuns d == 0
  else false

/-- The clip bounds of a command are inconsistent (R195). -/
def clipBad (def_ : Bool) (lo hi : Nat) : Bool :=
  if def_ then lo != 0 || hi != 0
  else
    let l := fp32.decode lo
    let h := fp32.decode hi
    l.isNan || h.isNan || FVal.ltNum h l

/-- A MATMUL-family stage is a wider re-run of a layer. -/
def State.wideStage (s : State) (core ctxId : Nat) (ct : Ctx) (d : Nat) : Bool :=
  isMatmul d && dSlotEn d && (match s.slotAddr core ct (dSlot d) with
    | none => false
    | some a => s.wideUse core ctxId a (s.hbmNat a 64) (dOFmt d))

/-- A stage is a wider re-run of its layer: of a VEC_RUN, one whose program packs with the wider form (R169). -/
def State.wideRun (s : State) (core ctxId : Nat) (ct : Ctx) (d : Nat) : Bool :=
  if dOp d = 0x30 then
    vrSlotEn d && (match s.slotAddr core ct (vrSlot d), s.programOf core ct.part d with
      | some a, some (_, p, _) => (p.pro ++ p.body).any (fun w =>
          vOp w == 0x42 && s.wideUse core ctxId a (s.hbmNat a 64) (pFmt w))
      | _, _ => false)
  else s.wideStage core ctxId ct d

/-- Test 7: control bits (R195, R385). A wider re-run whose format has no micro-scaled form may use a micro-scaled slot
without MICRO_OUT (R167, R169, log entry 105). -/
def State.controlBad (s : State) (core ctxId : Nat) (ct : Ctx) (ds : List Nat) (st : Nat) : Bool :=
  let d := ds.getD st 0
  dClass d == 3 ||
  (if isMatmul d then
    let slot : Option Nat := if dSlotEn d then s.slotRec core ct (dSlot d) else none
    let op := dOp d
    (dRaw d && (dMicro d || dStats d || dSlotEn d || dVeFin d || dOFmt d != 0 || dRound d != 0 || dSat d || dZpO d != 0
        || dClipLo d != 0 || dClipHi d != 0))
      || (dStats d && !dVecEn d)
      || clipBad (dClipDef d) (dClipLo d) (dClipHi d)
      || (dMicro d && (!dSlotEn d || (match slot with | some x => !slMicro x | none => false)))
      || (!dMicro d && !s.wideStage core ctxId ct d && (match slot with | some x => slMicro x | none => false))
      || (dHandover d && (st == 0 || dAH d != 0 || dAOff d != 0 || dAStr d != 0))
      || dSteal d == 3
      || (!dAMs d && dAMsH d != 0)
      || (op == 1 && !dBMs d && dBMsH d != 0)
      || (!dCoded d && dCbH d != 0)
      || (!dVecEn d && dVecH d != 0)
      || (!dVeFin d && dVProg d != 0)
      || (op != 1 && (dBBs d || dBMs d || (dCheck d && dBFmt d == 0xF)))
      || (op == 2 && (decide (2 ≤ dRole d) || dCausal d))
      || (op == 3 && (dRole d != 0 || dRaw d || dVeFin d || dSlotEn d || dMicro d || !dVecEn d
            || !(dOFmt d == 0xB || dOFmt d == 0xC) || decide (8192 < dWindow d)))
  else if dOp d = 0x30 then
    clipBad (vrClipDef d) (vrClipLo d) (vrClipHi d) || vrSteal d == 3
  else false)

/-- Ends that a stage reaches in the buffers it names, as (handle, end) (test 10 of R194). -/
def State.reachesOf (s : State) (core part : Nat) (ds : List Nat) (st : Nat) : List (Nat × Nat) :=
  let d := ds.getD st 0
  if isMatmul d then
    let cb := s.codebookInfo core part d
    let f := pairFloat (dAFmt d) (dBFmt d) cb.1
    let a := aPlace ds st
    let walk := dOp d ≠ 1
    [(a.1, a.2.1 + (dM d - 1) * a.2.2 * 64 + storedBytes (dAFmt d) (dK d) (dABs d))]
      ++ (if dAMs d then [(dAMsH d, (aMsPlace ds st).2 + dM d * msPitch (dK d))] else [])
      ++ (if walk then
            [(dBH d, dBOff d + (dMembers d - 1) * memberBytes d f
              + (if dCheck d then memberBytes d f else (dNPad d - 1) * dBStr d * 64 + colBytes d cb.2))]
          else
            [(dBH d, dBOff d + (dNPad d - 1) * dBStr d * 64 + colBytes d cb.2)]
              ++ (if dCheck d then [(dBH d, dBOff d + checkOff d + dCT d * checkBytes d f)] else [])
              ++ (if dBMs d then [(dBMsH d, dBOff d + dNPad d * dBStr d * 64 + dNPad d * msPitch (dK d))] else []))
      ++ (if dBFmt d = 9 then [(dCbH d, 24)] else if dBFmt d = 0xA then [(dCbH d, 264)]
          else if dBFmt d = 0xF then [(dCbH d, if cb.2 then 1032 else 72)] else [])
      ++ (if dVeFin d ∧ dOH d = 0 then [] else
            [(dOH d, dOOff d + (dM d - 1) * dOStr d * 64 + outBytes d)]
              ++ (if dMicro d then [(dOH d, dOOff d + dM d * dOStr d * 64 + dM d * msPitch (dN d))] else []))
      ++ (if dVecEn d then [(dVecH d, dVecOff d * 256 + convBytes d)] else [])
  else if dOp d = 0x31 then [(ckH d, ckOff d * 64 + 8 * ckCount d)]
  else []

/-- Test 10 of a stage. -/
def State.boundsBad (s : State) (core part : Nat) (ds : List Nat) (st : Nat) : Bool :=
  let d := ds.getD st 0
  let size (h : Nat) : Nat := ((s.core core).handle h).bytes
  (s.reachesOf core part ds st ++ s.programReaches core part d).any (fun r => decide (size r.1 < r.2))
    || (hasProgram d && (match s.programOf core part d with
          | none => false
          | some (h, p, o) => decide (h.bytes < o + 8 + 8 * (p.proLen + p.bodyLen))))
    || (isMatmul d && dOp d != 1 && (match s.usable core part (dWalkH d) with
          | none => false
          | some h =>
            match s.walkList core h 256 0 with
            | none => false
            | some l => l.any (fun e =>
                !s.ownedBy part (wePt e) (if weGlobal e then 8 else 8 * weCount e)
                  || (weGlobal e && decide (size (weGlobH e) < weGlobOff e * 64 + 4 * weCount e)))))

/-- Handles that a stage with a vector program `p` writes, or reads as operands (R353, R356). -/
def stageUses (d : Nat) (p : Option VProg) (write : Bool) : List Nat :=
  (if !isMatmul d then []
   else if write then (if dOH d = 0 then [] else [dOH d]) ++ (if dStats d then [dVecH d] else [])
   else (if dHandover d then [] else [dAH d]) ++ (if dAMs d then [dAMsH d] else []) ++ [dBH d]
      ++ (if dOp d = 1 ∧ dBMs d then [dBMsH d] else []) ++ (if dCoded d then [dCbH d] else []) ++ (if dVecEn d then [dVecH d] else []))
    ++ (match p with | some q => q.handlesOf write | none => [])
    ++ (if dOp d = 0x31 ∧ !write then [ckH d] else [])

/-- A command in flight on a core writes, or reads, the ring of a handle of it (R353). -/
def State.cmdUses (s : State) (core h : Nat) (write : Bool) : Bool :=
  (s.core core).cmds.any (fun c => (List.range c.descs.length).any (fun st =>
    let d := (c.descs.getD st 0).toNat
    (stageUses d (if hasProgram d then some (VProg.parse (kgetD c.progs st [])) else none) write).contains h))

/-- A command output goes to a pool ring, which only stream channels write (R353). -/
def State.poolOut (s : State) (core part d : Nat) : Bool :=
  (stageUses d (if hasProgram d then (s.programOf core part d).map (·.2.1) else none) true).any (fun h =>
    ((s.core core).handle h).pool)

/-- Test 11, formats: R89, R98, R149, R180, R384. -/
def State.formatBad (s : State) (core part d : Nat) : Bool :=
  if isMatmul d then
    let cb := s.codebookInfo core part d
    let fa := dAFmt d
    let fb := dBFmt d
    fa == 9 || fa == 0xA || decide (0xD ≤ fa) || fb == 0xD
      || (match floatFmt fa none, floatFmt fb cb.1 with
          | some a, some b => a != b
          | _, _ => false)
      || (!dRaw d && !(dVeFin d && dOH d == 0) && !fmtOutput (dOFmt d))
      || (dMicro d && !microFmt (dOFmt d))
      || (dOp d != 1 && !(fb == 4 || fb == 5 || fb == 6 || fb == 0xF))
  else false

/-- A format may carry scale levels in a pair of a family (R134, R140). -/
def scalable (fmt : Nat) (float : Bool) : Bool :=
  float && (fmt == 4 || fmt == 5 || fmt == 6 || fmt == 8 || fmt == 9 || fmt == 0xA)

/-- Test 11, scales and zero points: R136, R140. -/
def State.scaleBad (s : State) (core part d : Nat) : Bool :=
  if isMatmul d then
    let f := pairFloat (dAFmt d) (dBFmt d) (s.codebookInfo core part d).1
    let act := if dActSel d then dBFmt d else dAFmt d
    (dZpA d != 0 && (decide (4 ≤ act) || (decide (2 ≤ act) && decide (15 < dZpA d))))
      || ((dABs d || dAMs d) && !scalable (dAFmt d) f)
      || (dOp d == 1 && (dBBs d || dBMs d) && !scalable (dBFmt d) f)
  else false

/-- Test 11, the scale slot: R154; for a VEC_RUN every PACK's format is the command's output format (log entry 27). A wider
re-run names its layer's slot with the wider format (R169). -/
def State.slotBad (s : State) (core ctxId : Nat) (ct : Ctx) (d : Nat) : Bool :=
  if isMatmul d then
    dSlotEn d && (match s.slotRec core ct (dSlot d) with
      | none => true
      | some x => slFmt x != dOFmt d && !s.wideStage core ctxId ct d)
  else if dOp d = 0x30 then
    vrSlotEn d && (match s.slotRec core ct (vrSlot d), s.programOf core ct.part d with
      | some x, some (_, p, _) => (p.pro ++ p.body).any (fun w => vOp w == 0x42 && pFmt w != slFmt x
          && !s.wideUse core ctxId ((s.slotAddr core ct (vrSlot d)).getD 0) x (pFmt w))
      | some _, none => false
      | none, _ => true)
  else false

/-! ### Stream commands -/

/-- A handle as a side of a stream: kind 0b01 in the core's table, kind 0b10 in REMOTE_CORE's. -/
def State.sideEntry (s : State) (core part kind remote h : Nat) : Option HandleEntry :=
  s.usable (if kind = 1 then core else remote) part h

/-- Another channel of the module, or a command in flight on its core, writes, or reads, the ring of a core's handle (R353). -/
def State.ringTaken (s : State) (core h : Nat) (write : Bool) (exCore exChan : Nat) : Bool :=
  s.cmdUses core h write || (List.range 8).any (fun c => ((s.core c).channels).any (fun q =>
    !(c == exCore && q.1 == exChan) && q.2.state == .running &&
      (let x := q.2.desc.toNat
       let kind := if write then sdDstKind x else sdSrcKind x
       let hh := if write then sdDstH x else sdSrcH x
       hh == h && ((kind == 1 && c == core) || (kind == 2 && sdRemote x == core)))))

/-- Tests of a stream descriptor (R344, R346); `free` is whether the channel may be started. -/
def State.streamBad (s : State) (core part chan x : Nat) (free : Bool) : Option Word16 :=
  let sk := sdSrcKind x
  let dk := sdDstKind x
  let remote := sdRemote x
  let any2 := sk == 2 || dk == 2
  let inPart := match kget? s.persist.parts part with
    | some p => bit p.cores remote
    | none => false
  let se := s.sideEntry core part sk remote (sdSrcH x)
  let de := s.sideEntry core part dk remote (sdDstH x)
  let sring := match se with | some e => sk != 0 && e.ring | none => false
  let dring := match de with | some e => dk != 0 && e.ring | none => false
  let rows := sdRows x
  let rb := sdRowBytes x
  let coreOf (k : Nat) : Nat := if k = 1 then core else remote
  let rowsAt (a stride : Nat) (p : Nat → Bool) : Bool := (List.range rows).any (fun r => p (a + r * stride))
  firstBad [
    (sk == 3 || dk == 3 || (sk == 0 && dk == 0) || (any2 && (remote == core || !inPart)) || (!any2 && remote != 0)
      || rows == 0 || rb == 0 || rb % 64 != 0 || decide (1048576 < rb)
      || (sk == 0 && sdSrcH x != 0) || (dk == 0 && sdDstH x != 0)
      || sdSrcStride x % 64 != 0 || sdDstStride x % 64 != 0
      || (sring && (sdSrcAddr x != 0 || sdSrcStride x != 0))
      || (dring && (sdDstAddr x != 0 || sdDstStride x != 0)) || (!dring && sdDstStride x == 0)
      || !free, cmdSTREAM),
    ((sk != 0 && se.isNone) || (dk != 0 && de.isNone)
      || (sring && s.ringTaken (coreOf sk) (sdSrcH x) false core chan)
      || (dring && s.ringTaken (coreOf dk) (sdDstH x) true core chan), memHANDLE),
    ((sk == 0 && rowsAt (sdSrcAddr x) (sdSrcStride x) (fun a => !s.ownedBy part a rb))
      || (dk == 0 && rowsAt (sdDstAddr x) (sdDstStride x) (fun a => !s.ownedBy part a rb))
      || (sk != 0 && !sring && decide ((match se with | some e => e.bytes | none => 0) < sdSrcAddr x + (rows - 1) * sdSrcStride x + rb))
      || (dk != 0 && !dring && decide ((match de with | some e => e.bytes | none => 0) < sdDstAddr x + (rows - 1) * sdDstStride x + rb)),
      memBOUNDS)]

/-- A channel of a core. -/
def State.chan (s : State) (core n : Nat) : Channel := kgetD (s.core core).channels n {}

/-- A stream descriptor with the addresses that a re-arm gives. -/
def rearmed (x : Nat) (src dst : Option Nat) : Nat :=
  let y := match src with
    | some a => x - sdSrcAddr x * 2 ^ 64 + a * 2 ^ 64
    | none => x
  match dst with
  | some a => y - sdDstAddr y * 2 ^ 128 + a * 2 ^ 128
  | none => y

/-- Tests of a re-arm (R361). -/
def State.rearmBad (s : State) (core part d : Nat) : Option Word16 :=
  let c := s.chan core (raChan d)
  let x := c.desc.toNat
  let y := rearmed x (if raSetSrc d then some (raSrc d) else none) (if raSetDst d then some (raDst d) else none)
  let mine := match s.ctx? c.ctx with
    | some k => k.part == part
    | none => false
  if (c.state != .running && c.state != .idle) || !sdPersistent x || !mine
      || (!raSetSrc d && raSrc d != 0) || (!raSetDst d && raDst d != 0) then some cmdSTREAM
  else s.streamBad core part (raChan d) y true

/-! ### Semaphores and credits -/

/-- A semaphore lies within the range that a partition has at a core (R491). -/
def State.semOwned (s : State) (part core idx : Nat) : Bool :=
  match kget? (s.core core).sems.ranges part with
  | none => false
  | some (f, n) => decide (f ≤ idx) && decide (idx < f + n)

/-- Tests of a semaphore entry (R493). -/
def State.semBad (s : State) (part x : Nat) : Option Word16 :=
  firstBad [
    (seRsvd x || seWaitOp x == 3, cmdCONTROL),
    ((seWaitOp x != 0 && !s.semOwned part (seWaitCore x) (seWaitIdx x))
      || (seSigOp x != 0 && !s.semOwned part (seSigCore x) (seSigIdx x)), accPARTITION)]

/-- Entry of a context's semaphore and credit set table (R492); `none` for index 0. -/
def State.semset (s : State) (ct : Ctx) (i : Nat) : Option Nat :=
  if i = 0 then none else some (s.hbmNat (ct.semsetBase + 32 * i) 32)

/-- Tests of the SEMSET that a command names (log entry 28). -/
def State.semsetBad (s : State) (ct : Ctx) (i : Nat) : Option Word16 :=
  if i = 0 then none
  else if ct.semsetCount ≤ i then some memBOUNDS
  else s.semBad ct.part (s.hbmNat (ct.semsetBase + 32 * i) 32)

/-- Entry carried by a SEM_WAIT or SEM_SIGNAL. -/
def cmdSem (d : Nat) : Nat := bits d 319 64

/-- Tests of a credit command (R369, R370). -/
def State.creditBad (s : State) (core part d : Nat) : Option Word16 :=
  let inPart := match kget? s.persist.parts part with
    | some p => bit p.cores (crCore d)
    | none => false
  firstBad [
    (crCore d == core || !inPart || crCount d == 0, cmdCONTROL),
    ((s.usable (crCore d) part (crH d)).isNone, memHANDLE),
    (match s.usable (crCore d) part (crH d) with
      | none => false
      | some h => decide ((if h.ring then h.slots else 1) < crCount d), memBOUNDS)]

/-! ### Checkpoints -/

/-- Round record entry `n` and header words of a context's inbox (R442). -/
def State.inboxNat (s : State) (ct : Ctx) (o n : Nat) : Nat := s.hbmNat (ct.inboxBase + o) n

/-- COUNT or ROUND_SEQ of a CHECKPOINT disagrees with the round record (R71). -/
def State.ckHeadBad (s : State) (ct : Ctx) (d : Nat) : Bool :=
  ckCount d != s.inboxNat ct 6 2 || ckRound d != s.inboxNat ct 0 4 || ckCount d == 0

/-- Some report record disagrees with its round entry (R70, R71). -/
def State.ckRecsBad (s : State) (core : Nat) (ct : Ctx) (d : Nat) : Bool :=
  let h := (s.core core).handle (ckH d)
  (List.range (ckCount d)).any (fun n =>
    let r := s.bufNat core h (ckOff d * 64 + 8 * n) 8
    let e := s.inboxNat ct (64 + 8 * n) 8
    bits r 13 0 != bits e 13 0 || bits r 31 16 != bits e 31 16)

/-! ### The whole command (R194, R198) -/

/-- The code with which the router rejects a context's head command; `none` where it is valid. Each test is applied to
every stage before the next (log entry 24). -/
def State.validate (s : State) (ctxId : Nat) (ct : Ctx) (ds : List Nat) : Option Word16 :=
  let d := ds.headD 0
  let core := ct.core
  let part := ct.part
  let n := ds.length
  let each (f : Nat → Bool) : Bool := (List.range n).any f
  let onD (f : Nat → Bool) : Bool := ds.any f
  let later := ds.drop 1
  let base : Option Word16 := firstBad [
    (dSeq d != ct.seqNext, cmdSEQUENCE),
    (dCtx d != ctxId, cmdCONTEXT),
    (onD (fun x => anySet x (rsvdOf (dOp x))), cmdRSVD),
    (onD (fun x => !opListed (dOp x)), cmdOPCODE),
    (dStages d == 0 || decide (4 < dStages d)
      || later.any (fun x => dStages x != 0 || dClass x != dClass d || dPart x != dPart d || dCtx x != dCtx d
            || dSeq x != dSeq d || dSemset x != 0)
      || (decide (1 < dStages d) && onD (fun x => !fusable x))
      || each (fun i => decide (0 < i) && isMatmul (ds.getD i 0) && dHandover (ds.getD i 0) && !isMatmul (ds.getD (i - 1) 0)),
      cmdFUSED),
    (each (s.shapeBad core part ds), cmdSHAPE),
    (each (s.controlBad core ctxId ct ds)
      || (dOp d == 0x31 && s.ckHeadBad ct d)
      || ((dOp d == 0x11) && seSigOp (cmdSem d) != 0) || ((dOp d == 0x12) && seWaitOp (cmdSem d) != 0), cmdCONTROL),
    (dPart d != part, accPARTITION)]
  match base with
  | some c => some c
  | none =>
    let special : Option Word16 :=
      match dOp d with
      | 0x11 | 0x12 => s.semBad part (cmdSem d)
      | 0x13 | 0x14 => s.creditBad core part d
      | 0x20 => s.streamBad core part (ssChan d) (ssDesc d) ((s.chan core (ssChan d)).state == .free)
      | 0x21 => s.rearmBad core part d
      | _ => none
    match special with
    | some c => some c
    | none =>
      let hs (x : Nat) : List Nat :=
        stageHandles x (if isMatmul x ∧ dOp x ≠ 1 then (s.walkOf core part x).getD [] else []) (s.programReaches core part x)
      match firstBad [
          (onD (fun x => (hs x).any (fun h => (s.usable core part h).isNone) || s.poolOut core part x), memHANDLE),
          (each (s.boundsBad core part ds), memBOUNDS),
          (dOp d == 0x31 && s.ckRecsBad core ct d, cmdCONTROL),
          (onD (s.formatBad core part), numFORMAT),
          (onD (fun x => (isMatmul x && !dRaw x && !roundOk (dRound x) (dOFmt x)) || s.programRoundBad core part x), numROUND),
          (onD (s.scaleBad core part), numSCALE),
          (onD (s.slotBad core ctxId ct), numSLOT)] with
      | some c => some c
      | none =>
        match s.semsetBad ct (dSemset d) with
        | some c => some c
        | none =>
          if onD (fun x => hasProgram x && (match s.programOf core part x with
              | none => false
              | some (_, p, _) => !p.ok (dOp x != 0x30) (dOp x != 0x30 && dMicro x))) then some cmdVPROG
          else none

/-- PROG_ID of the first program that fails R250. -/
def State.badProgram (s : State) (ct : Ctx) (ds : List Nat) : Option Nat :=
  ds.findSome? (fun x =>
    if hasProgram x then
      match s.programOf ct.core ct.part x with
      | none => none
      | some (_, p, _) => if p.ok (dOp x != 0x30) (dOp x != 0x30 && dMicro x) then none else some p.progId
    else none)

end Sys2Proof.Machine
end

