-- ==== Sys2Proof/Machine/Sem.lean ====
section
/-! DEFINITION. What the command router keeps: completion records, signals and waits at the semaphore stores, the state
of an execution context, credits held, and the progress counters that a Drone slice watches. -/

namespace Sys2Proof.Machine

/-! ### Units that a Drone slice watches (R501, R518) -/

/-- A unit's progress counter advances by `n`. -/
def State.progressBy (s : State) (core unit n : Nat) : State :=
  if n = 0 then s
  else s.modCore core (fun k => { k with progress := kmod k.progress unit {} (fun p =>
    { p with count := (p.count + n) % 2 ^ 32, last := s.now }) })

/-! ### Transfer tags (R476, R477) -/

/-- Transfer tags of a core, and those of them that its stream channels together may hold. -/
def tagMax : Nat := 16384
def chanTags : Nat := 14336

/-- Tags that a core's stream channels hold. -/
def Core.chanTagsUsed (k : Core) : Nat := sumNat (k.channels.map (fun q => q.2.tags))

/-- A requester may take a tag now. -/
def Core.tagFree (k : Core) (chan : Bool) : Bool := decide (k.tags < tagMax) && (!chan || decide (k.chanTagsUsed < chanTags))

/-- A unit asks for a transfer tag: it takes one and its wait, if it has waited, is counted in cycles, or it waits. -/
def State.takeTag (s : State) (core unit : Nat) : State × Bool :=
  let k := s.core core
  if k.tagFree (decide (48 ≤ unit) && decide (unit < 112)) then
    (s.modCore core (fun k => { k with
      tags := k.tags + 1, tagPeak := Nat.max k.tagPeak (k.tags + 1)
      tagWait := k.tagWait + (match kget? k.tagSince unit with | none => 0 | some b => (s.now - b) * 3 / 2)
      tagSince := kdel k.tagSince unit }), true)
  else (s.modCore core (fun k => { k with tagSince := if (kget? k.tagSince unit).isSome then k.tagSince else kset k.tagSince unit s.now }), false)

/-- Transfer tags of a core return. -/
def State.freeTags (s : State) (core n : Nat) : State := s.modCore core (fun k => { k with tags := k.tags - n })

/-! ### Completion records (R233, R439) -/

/-- A 32-byte completion record. -/
structure Completion where
  seq : Nat
  code : Word16 := 0
  status : Word16 := 0
  reruns : Nat := 0
  tiles : Nat := 0
  stolen : Nat := 0
  cycles : Nat := 0
  deriving DecidableEq, Repr

/-- Bytes of a completion record. -/
def Completion.bytes (r : Completion) (done : Nat) : List Byte :=
  toLe 2 r.seq ++ toLe 2 r.code.toNat ++ toLe 2 r.status.toNat ++ toLe 2 (Nat.min r.reruns 0xFFFF)
    ++ toLe 4 r.tiles ++ toLe 4 r.stolen ++ toLe 8 r.cycles ++ toLe 8 done

/-- The router writes a completion record to a context's completion ring; none for a HALTED context (R708). -/
def State.writeRecord (s : State) (ctxId : Nat) (r : Completion) : State :=
  match s.ctx? ctxId with
  | none => s
  | some ct =>
    if ct.halted then s
    else
    let a := ct.cringBase + 32 * (ct.cringWr % 2 ^ (ct.cringLog2 + 4))
    (s.hbmWrite a (r.bytes (s.localTime 0x05 ct.core)) false).modCtx ctxId (fun c => { c with cringWr := (c.cringWr + 1) % 65536 })

/-! ### Semaphore operations on their way (R486, R493, R495) -/

/-- An operation is sent to a semaphore store. -/
def State.semSend (s : State) (core idx : Nat) (op : SemOp) : State :=
  s.modCore core (fun k => { k with sems := { k.sems with ops := k.sems.ops ++ [(idx, op)] } })

/-- The signal of an entry (R492); an entry outside its partition's range signals nothing. -/
def State.semSignal (s : State) (ctxId part x : Nat) : State :=
  if seSigOp x = 0 ∨ !s.semOwned part (seSigCore x) (seSigIdx x) then s
  else
    let v := BitVec.ofNat 32 (seSigVal x)
    let op : SemOp := if seSigOp x = 1 then .add v else if seSigOp x = 2 then .set v else .give v ctxId
    s.semSend (seSigCore x) (seSigIdx x) op

/-- The signal of an entry of a context's table: a command's SEMSET or a pass's SEM. -/
def State.semsetSignal (s : State) (ctxId i : Nat) : State :=
  match s.ctx? ctxId with
  | none => s
  | some ct =>
    match s.semset ct i with
    | none => s
    | some x => if i < ct.semsetCount then s.semSignal ctxId ct.part x else s

/-! ### Slots of the context store (R436) -/

/-- Slot that holds a context, if it is resident. -/
def Core.slotOf (k : Core) (ctxId : Nat) : Option Nat := (k.slots.find? (fun q => q.2 == ctxId)).map Prod.fst

/-- A wait of a context reaches a semaphore store. -/
def State.semWaitSend (s : State) (ctxId : Nat) (ct : Ctx) (x : Nat) : State :=
  let slot := ((s.core ct.core).slotOf ctxId).getD 16
  let w : SemWait := { ctx := ctxId, core := ct.core, slot := slot, index := seWaitIdx x, take := seWaitOp x == 2
                       value := BitVec.ofNat 32 (seWaitVal x) }
  let t := s.modCore (seWaitCore x) (fun k => { k with sems := { k.sems with waits := k.sems.waits ++ [w] } })
  t.modCtx ctxId (fun c => { c with
    waiting := some (if seTimeout x = 0 then none else some (s.now + seTimeout x * 1000)) })

/-- Every wait of a context is withdrawn. -/
def State.dropWaits (s : State) (ctxId : Nat) : State :=
  (s.modCores (fun _ k => { k with sems := { k.sems with waits := k.sems.waits.filter (fun w => w.ctx != ctxId) } })).modCtx
    ctxId (fun c => { c with waiting := none, satisfied := false })

/-! ### Commands in flight -/

/-- The command is a SEM_WAIT or CREDIT_ACQUIRE, which stays at its queue's head until it completes. -/
def Cmd.isWait (c : Cmd) : Bool :=
  let op := dOp (c.descs.headD 0).toNat
  op == 0x11 || op == 0x13

/-- Descriptor of a stage of a command. -/
def Cmd.desc (c : Cmd) (st : Nat) : Nat := (c.descs.getD st 0).toNat
def Cmd.ds (c : Cmd) : List Nat := c.descs.map (·.toNat)
def Cmd.op (c : Cmd) : Nat := dOp (c.desc 0)
def Cmd.part (c : Cmd) : Nat := dPart (c.desc 0)
def Cmd.cls (c : Cmd) : Nat := dClass (c.desc 0)

/-- A command of a core, by context and SEQ. -/
def State.cmd? (s : State) (core ctxId seq : Nat) : Option Cmd :=
  (s.core core).cmds.find? (fun c => c.ctx == ctxId && c.seq == seq)

/-- A command of a core changed. -/
def State.modCmd (s : State) (core ctxId seq : Nat) (f : Cmd → Cmd) : State :=
  s.modCore core (fun k => { k with cmds := k.cmds.map (fun c => if c.ctx == ctxId && c.seq == seq then f c else c) })

/-- The command of a work item. -/
def State.cmdOf (s : State) (w : WorkItem) : Option Cmd := s.cmd? w.home w.ctx w.seq
def State.modCmdOf (s : State) (w : WorkItem) (f : Cmd → Cmd) : State := s.modCmd w.home w.ctx w.seq f

/-- The channels that a context started and that run a pass. -/
def Core.runningChans (k : Core) (ctxId : Nat) : Nat :=
  (k.channels.filter (fun q => q.2.state == .running && q.2.ctx == ctxId)).length

/-- Some command other than a wait, or some channel, of a context is in flight (R437). -/
def Core.ctxRunning (k : Core) (ctxId : Nat) : Bool :=
  k.cmds.any (fun c => c.ctx == ctxId && !c.isWait) || decide (0 < k.runningChans ctxId)

/-- Free entries of a completion ring. -/
def Ctx.cringFree (c : Ctx) : Nat := 2 ^ (c.cringLog2 + 4) - (c.cringWr + 65536 - c.cringRd) % 65536

/-- The completion ring has the space of R439. -/
def Core.cringRoom (k : Core) (ctxId : Nat) (c : Ctx) : Bool :=
  decide ((k.cmds.filter (fun m => m.ctx == ctxId)).length + k.runningChans ctxId + 2 ≤ c.cringFree)

/-- The round that a context serves: from the writing of its record until it leaves flight, or its round-end store. -/
def Core.roundOf (k : Core) (ctxId : Nat) : Option Round := k.rounds.find? (fun r => r.ctx == ctxId)

/-- Commands of a round are in flight. -/
def Core.roundHasCmds (k : Core) (r : Round) : Bool := k.cmds.any (fun c => c.ctx == r.ctx && c.round == some r.seq)

/-- A round is in flight (R441, R446). -/
def Core.inFlight (k : Core) (r : Round) : Bool := r.inFlight && !(r.yielded && !k.roundHasCmds r)

/-- The head command of a context waits: on its SEMSET, as a SEM_WAIT or as a CREDIT_ACQUIRE (R437). -/
def State.headWaits (s : State) (ctxId : Nat) (ct : Ctx) : Bool :=
  (s.core ct.core).cmds.any (fun c => c.ctx == ctxId && c.isWait) || (ct.waiting.isSome && !ct.satisfied)

/-- The head command of a context may be dispatched as far as the context alone decides (R437, R439, R490, R71). -/
def State.headReady (s : State) (ctxId : Nat) (ct : Ctx) : Bool :=
  let k := s.core ct.core
  !ct.halted && !s.headWaits ctxId ct && k.cringRoom ctxId ct
    && !k.cmds.any (fun c => c.ctx == ctxId && c.op == 0x10)
    && (match s.headDescs ct with
        | none => false
        | some ds => dOp (ds.headD 0) != 0x31 || !k.cmds.any (fun c => c.ctx == ctxId))

/-- STATE of a context (R437). -/
def State.ctxState (s : State) (ctxId : Nat) (ct : Ctx) : Nat :=
  let k := s.core ct.core
  if ct.halted then 4
  else if k.ctxRunning ctxId then 2
  else if ct.depth ≠ 0 ∧ (s.headWaits ctxId ct ∨ !k.cringRoom ctxId ct) then 3
  else if s.headReady ctxId ct then 1
  else 0

/-- The wait of a head command's SEMSET reaches its store once the command stands validated at the queue's head
(R196, R200, R492). -/
def State.regWait (s : State) (ctxId : Nat) : State :=
  match s.ctx? ctxId with
  | none => s
  | some ct =>
    if ct.halted || ct.waiting.isSome || ct.satisfied || (s.core ct.core).cmds.any (fun c => c.ctx == ctxId && c.isWait) then s
    else
      match s.headDescs ct with
      | none => s
      | some ds =>
        match s.semset ct (dSemset (ds.headD 0)) with
        | none => s
        | some x =>
          if seWaitOp x = 0 ∨ (s.validate ctxId ct ds).isSome then s else s.semWaitSend ctxId ct x

/-! ### Virtual time (R451) -/

/-- Tenants with a READY best-effort context on a core. -/
def State.readyTenants (s : State) (core : Nat) : NSet :=
  ((s.ctxs.filter (fun q => q.2.core == core && q.2.cls == 1 && s.headReady q.1 q.2)).map (fun q => q.2.tenant)).foldl nins []

/-- Virtual time of a tenant on a core. -/
def Core.vt (k : Core) (tenant : Nat) : Frac := kgetD k.vtime tenant Frac.zero

/-- A tenant that had no READY best-effort context on a core and now has one starts no earlier than the lowest of the
others (R451). -/
def State.raiseVtime (s0 s : State) (core : Nat) : State :=
  let had := s0.readyTenants core
  let new_ := (s.readyTenants core).filter (fun t => !had.contains t)
  if new_ = [] ∨ had = [] then s
  else
    s.modCore core (fun k =>
      let low := (had.map k.vt).foldl (fun m v => if Frac.lt v m then v else m) (k.vt (had.headD 0))
      { k with vtime := new_.foldl (fun m t => if Frac.lt (kgetD m t Frac.zero) low then kset m t low else m) k.vtime })

end Sys2Proof.Machine
end

