-- ==== Sys2Proof/Machine/Arbiter.lean ====
section
/-! DEFINITION. The work-stealing arbiter's choice: which engine a re-run item goes to, the steal windows, and the item that
an idle engine selects (R219 to R224). -/

namespace Sys2Proof.Machine

/-! ### Engines and items -/

/-- An engine's number across the module. -/
def engNo (core e : Nat) : Nat := core * 16 + e

/-- Descriptor and stage form of a work item. -/
def State.itemDesc (s : State) (w : WorkItem) : Nat := match s.cmdOf w with | none => 0 | some c => c.desc w.stage

/-- STEAL_SCOPE of an item. -/
def State.itemScope (s : State) (w : WorkItem) : Nat :=
  let d := s.itemDesc w
  if dOp d = 0x30 then vrSteal d else dSteal d

/-- Work items that an engine has not started, in the order in which it will: the granted one, then its queue. -/
def Engine.ahead (g : Engine) : List WorkItem := g.taken.toList ++ g.queue

/-- An item is known to the Bell: tagged, or waiting for the load of its codebook. -/
def BellState.knows (b : BellState) (w : WorkItem) : Bool :=
  w.tag.isSome || b.waiting.contains w || (match b.loading with | some (_, x) => x == w | none => false)

/-! ### Re-runs and steal windows -/

/-- The engine may take an item: it runs none, has been granted none, and is in service. -/
def State.engineTakes (s : State) (core e : Nat) : Bool :=
  let g := s.engine core e
  !s.quarantined core e && g.running.isNone && g.ve.item.isNone && g.taken.isNone

/-- The engine that a re-run item goes to: of the engines of a core that run nothing, have taken nothing and are not
excluded, one of the failing engine's quadrant first, then the lowest-numbered (R224). -/
def State.rerunTaker (s : State) (core : Nat) (w : WorkItem) : Option Nat :=
  let free := (List.range 16).filter (fun e => s.engineTakes core e && w.excluded != some (engNo core e))
  let quad := free.filter (fun e => w.excluded.any (fun x => x / 4 == engNo core e / 4))
  (quad ++ free).head?

/-- A re-run item of the core waits that this engine takes before its own next item (R224). -/
def State.rerunFirst (s : State) (core e : Nat) : Bool :=
  (s.engine core e).taken.isNone && (s.core core).rerun.any (fun w => s.rerunTaker core w == some e)

/-- A core belongs to the partition of an item's command, and neither core is fenced (R219, R427, R513). -/
def State.neighbourOk (s : State) (core : Nat) (w : WorkItem) : Bool :=
  match s.cmdOf w with
  | none => false
  | some c => (match kget? s.persist.parts c.part with | none => false | some p => bit p.cores core)
      && s.itemScope w == 2 && !s.fenced core && !s.fenced w.home

/-- Items of an engine's queue that lie in its steal window for a level, and that a stealer may have. -/
def State.window (s : State) (core stealer e victimCore : Nat) (w : WorkItem) : Bool :=
  let g := s.engine victimCore e
  let sc := s.itemScope w
  !g.bell.knows w && w.excluded != some (engNo core stealer)
    && (if victimCore = core then sc == 1 || sc == 2 else s.neighbourOk core w)

/-- The victim of a level and the item it loses: LC before BE, then the longest window, then the lowest engine. -/
def State.victimOf (s : State) (core stealer victimCore : Nat) (l : List Nat) : Option (Nat × WorkItem) :=
  let cands := l.filterMap (fun e =>
    let win := (s.engine victimCore e).queue.filter (s.window core stealer e victimCore)
    let lc := win.filter (fun w => match s.cmdOf w with | none => false | some c => c.cls == 0)
    match (if lc = [] then win else lc).getLast? with
    | none => none
    | some w => some (e, w, !lc.isEmpty, win.length))
  (bestBy (fun a b =>
    if a.2.2.1 != b.2.2.1 then a.2.2.1
    else if a.2.2.2 ≠ b.2.2.2 then decide (b.2.2.2 < a.2.2.2) else decide (a.1 < b.1)) cands).map (fun q => (q.1, q.2.1))

/-- The item that an engine takes from a core's re-run queue: in its own core the first of which it is the taker (R224), from
the neighbour the first that it may have. -/
def State.rerunFor (s : State) (core e queueCore : Nat) : Option (WorkItem × List WorkItem) :=
  takeFirst (fun w => w.excluded != some (engNo core e) && (if queueCore == core then s.rerunTaker core w == some e else s.neighbourOk core w))
    (s.core queueCore).rerun

/-- The victim's item that an idle engine selects: its quadrant, its core, and the neighbour where nothing is to be re-run
there (R219). -/
def State.stealFor (s : State) (core engine : Nat) (near : Bool) : Option (Nat × Nat × WorkItem) :=
  let n := core ^^^ 1
  let quad := (List.range 4).map (fun i => engine / 4 * 4 + i)
  let rest := (List.range 16).filter (fun e => !quad.contains e)
  let mine (l : List Nat) : Option (Nat × Nat × WorkItem) :=
    (s.victimOf core engine core (l.filter (· ≠ engine))).map (fun q => (core, q))
  match mine quad with
  | some v => some v
  | none => match mine rest with
    | some v => some v
    | none => if near || s.recovering n then none else (s.victimOf core engine n (List.range 16)).map (fun q => (n, q))

/-- An engine is idle: it takes items, and its queue is empty. -/
def State.engineIdle (s : State) (core e : Nat) : Bool := s.engineTakes core e && (s.engine core e).queue.isEmpty

end Sys2Proof.Machine
end

