-- ==== Sys2Proof/Machine/Drone.lean ====
section
/-! DEFINITION. What a Drone slice sees (R501, R502): which units hold pending work, and what follows every change of a
core's queues. -/

namespace Sys2Proof.Machine

/-! ### Pending work of the units (R501, R502) -/

/-- An engine waits on its Bell: for an extension of the running item, or for the codebook of the item that is next (R306,
R310). -/
def Engine.onBell (g : Engine) : Bool :=
  if g.running.isSome then !g.bell.extReads.isEmpty
  else match g.ahead with
    | [] => false
    | w :: _ => g.bell.knows w && w.tag.isNone

/-- A unit of a core is pending (R501). A matrix engine is while it accumulates or converts, and while an item waits that it
could start; with both sets held by the vector engine the stall is that unit's (R184), and a wait on the Bell is the Bell's
(R306). A walk that waits on a peer is under its own bound (R393). -/
def State.unitPending (s : State) (core u : Nat) : Bool :=
  let k := s.core core
  if u < 16 then
    let g := k.engine u
    (g.running.isSome && !g.onBell) || g.set0.state == .converting || g.set1.state == .converting
      || (!g.ahead.isEmpty && !g.onBell && (g.set0.state == .free || g.set1.state == .free))
  else if u < 32 then
    let g := k.engine (u - 16)
    g.ve.item.isSome || g.ve.body.isSome || g.set0.state == .veHeld || g.set1.state == .veHeld
  else if u < 48 then
    let g := k.engine (u - 32)
    g.bell.loading.isSome || !g.bell.extReads.isEmpty || ((g.running.map Prod.fst).toList ++ g.ahead).any (fun w =>
      w.tag.isSome || (g.running.map Prod.fst == some w && dBell (s.itemDesc w)))
  else if u < 112 then (kgetD k.channels (u - 48) {}).state == .running
  else if u < 116 then
    k.rounds.any (fun r => k.inFlight r && (match s.ctx? r.ctx with
      | none => false
      | some ct => ct.prep == u - 112 && ct.depth == 0 && !k.cmds.any (fun c => c.ctx == r.ctx)
          && k.runningChans r.ctx == 0))
  else if u = 116 then
    k.cmds.any (fun c => match c.walk with | none => false | some w => w.asked.isNone) || k.slots.any (fun q => match s.ctx? q.2 with
      | none => false
      | some ct => s.ctxState q.2 ct == 1)
  else
    (List.range 16).any (fun e => (s.rerunFor core e core).isSome || (s.engineIdle core e &&
      ((!s.recovering (core ^^^ 1) && (s.rerunFor core e (core ^^^ 1)).isSome) || (s.stealFor core e false).isSome)))

/-- A Drone slice notes the start and the end of each unit's pending period. -/
def State.drone (s : State) (core : Nat) : State :=
  s.modCore core (fun k => { k with progress := (List.range 118).foldl (fun m u =>
    let p := kgetD m u {}
    if s.unitPending core u then (if p.since.isSome then m else kset m u { p with since := some s.now })
    else if p.since.isSome then kset m u { p with since := none } else m) k.progress })

/-- Contexts whose head command has become dispatchable since `s0` note the instant (R443). -/
def State.noteReady (s s0 : State) (core : Nat) : State :=
  let new_ := (s.ctxs.filter (fun q => q.2.core == core && s.headReady q.1 q.2 && !(match s0.ctx? q.1 with
    | none => false
    | some ct => s0.headReady q.1 ct))).map Prod.fst
  new_.foldl (fun t i => t.modCtx i (fun c => { c with readySince := s.now })) s

/-- Contexts that have become BLOCKED since `s0` note the instant as WAIT_SINCE_NS (R436, R437). -/
def State.noteBlocked (s s0 : State) (core : Nat) : State :=
  let new_ := (s.ctxs.filter (fun q => q.2.core == core && s.ctxState q.1 q.2 == 3 && !(match s0.ctx? q.1 with
    | none => false
    | some ct => s0.ctxState q.1 ct == 3))).map Prod.fst
  new_.foldl (fun t i => t.modCtx i (fun c => { c with waitSince := s.now })) s

/-- What follows every change of a core's queues: head commands take up their waits, contexts note that they have become
dispatchable or BLOCKED, virtual times rise and the Drone slice sees which units hold work. -/
def State.settle (s0 s : State) (core : Nat) : State :=
  let s1 := ((s.ctxs.filter (fun q => q.2.core == core)).map Prod.fst).foldl (fun t i => t.regWait i) s
  (State.raiseVtime s0 ((s1.noteReady s0 core).noteBlocked s0 core) core).drone core

end Sys2Proof.Machine
end

