-- ==== Sys2Proof/Machine/Sched.lean ====
section
/-! DEFINITION. Scale slots at dispatch and at a round's end, rounds leaving flight, steps completing, and what the
router does to a context it rejects (R155 to R158, R196, R441, R446, R447, R450, R451). -/

namespace Sys2Proof.Machine

/-! ### Scale slots (R156) -/

/-- A field [hi:lo] of a number replaced. -/
def putBits (x hi lo v : Nat) : Nat := x - bits x hi lo * 2 ^ lo + v % 2 ^ (hi + 1 - lo) * 2 ^ lo

/-- q_max of a slot. -/
def slQmax (x : Nat) : Frac :=
  if slMicro x then Frac.one
  else match fmtFloat (slFmt x) with
    | some f => f.maxMag
    | none =>
      match intRange (slFmt x) with
      | none => Frac.one
      | some (lo, hi) =>
        let w := fmtBits (slFmt x)
        let z : Int := if intSigned (slFmt x) then sext w (slZp x) else ((slZp x % 2 ^ w : Nat) : Int)
        if intSigned (slFmt x) ∧ z = 0 then Frac.ofInt hi
        else if z = lo ∨ z = hi then Frac.ofInt (hi - lo)
        else Frac.ofInt (min (hi - z) (z - lo))

/-- Largest of the newest entries that the window takes, as an exact value; `none` where an entry is infinite, which a
max-abs beyond BF16's range leaves, or NaN, which only a compiler's record could hold. -/
def slMax (x : Nat) : Option Frac :=
  let n := Nat.min (slWindow x) (slCount x)
  (List.range n).foldl (fun m j =>
    match m, bf16.decode (slHist x ((slHead x + 15 - j) % 16)) with
    | some m, .fin _ q => some (Frac.max m q)
    | _, _ => none) (some Frac.zero)

/-- Smallest power of two at or above a positive fraction. -/
def pow2Up (q : Frac) : Frac :=
  let p := Frac.pow2 (Frac.ilog2 q)
  if Frac.lt p q then Frac.mul p ⟨2, 1⟩ else p

/-- The scale that a slot latches and whether the constant-channel rule applies; the clamp comes last, so an infinite
maximum gives the largest scale (R156, R158). -/
def slLatch (x : Nat) : Word16 × Bool :=
  if slCount x = 0 then (BitVec.ofNat 16 (slInit x), false)
  else
    match slMax x with
    | none => (BitVec.ofNat 16 0x7F7F, false)
    | some m =>
    if Frac.isZero m then (BitVec.ofNat 16 0x3F80, true)
    else
      let q := Frac.div (Frac.mul m (FVal.frac (bf16.decode (slMargin x)))) (slQmax x)
      let q := if slPow2 x ∧ !Frac.isZero q then pow2Up q else q
      let c := bf16Up q
      (BitVec.ofNat 16 (if c < 0x80 then 0x80 else if 0x7F7F < c then 0x7F7F else c), false)

/-- A slot record after a round's history update (R156). -/
def slUpdate (x : Nat) (scale : Word16) (constant : Bool) (a : Frac) : Nat :=
  let h := slHead x
  let x := putBits x (16 * h + 15) (16 * h) (bf16Up a)
  let x := putBits x 259 256 ((h + 1) % 16)
  let x := putBits x 264 260 (Nat.min (slCount x + 1) 16)
  let x := putBits x 351 336 scale.toNat
  let x := putBits x 447 384 (bits x 447 384 + 1)
  putBits x 367 352 (if constant then Nat.min (slConst x + 1) 0xFFFF else 0)

/-- A history update is written as one 64-byte store (R157). -/
def State.updateSlot (s : State) (addr : Nat) (scale : Word16) (constant : Bool) (a : Frac) : State :=
  s.hbmWrite addr (toLe 64 (slUpdate (s.hbmNat addr 64) scale constant a)) false

/-- Counters of a partition's safeguards, tensor events or poison (R127, R164, R534). -/
def State.bumpSafeguard (s : State) (part i : Nat) : State :=
  { s with svc := { s.svc with safeguards := bumpIn s.svc.safeguards 5 part i 1 } }

/-- The slot that a stage names, if any. -/
def stageSlot (d : Nat) : Option Nat :=
  if isMatmul d then (if dSlotEn d then some (dSlot d) else none)
  else if dOp d = 0x30 then (if vrSlotEn d then some (vrSlot d) else none)
  else none

/-- Latches the slot that stage `st` of a command names: the round's latch where it has one, or that of an earlier stage
of the same command, so that a slot latches and counts once per round (R155, R158). -/
def State.latchStage (s : State) (ct : Ctx) (c : Cmd) (st : Nat) : State × Cmd :=
  match (stageSlot (c.desc st)).bind (s.slotAddr ct.core ct) with
  | none => (s, c)
  | some addr =>
    let old := ((c.round.bind (fun r => (s.core ct.core).rounds.find? (fun q => q.seq == r && q.ctx == c.ctx))).bind
      (fun q => kget? q.latches addr))
    let mine := ((List.range st).find? (fun j => (stageSlot (c.desc j)).bind (s.slotAddr ct.core ct) == some addr)).map
      (fun j => (kgetD c.latch j 0, c.constant.contains j, Frac.zero))
    match old.orElse (fun _ => mine) with
    | some (sc, k, _) => (s, { c with latch := kset c.latch st sc, constant := nput c.constant st k })
    | none =>
      let (sc, k) := slLatch (s.hbmNat addr 64)
      let t := if k then s.bumpSafeguard ct.part 0 else s
      let t := match c.round with
        | none => t
        | some r => t.modCore ct.core (fun m => { m with rounds := m.rounds.map (fun q =>
            if q.seq == r && q.ctx == c.ctx then { q with latches := kset q.latches addr (sc, k, Frac.zero) } else q) })
      (t, { c with latch := kset c.latch st sc, constant := nput c.constant st k })

/-- Latches every slot that a command names. -/
def State.latchAll (s : State) (ct : Ctx) (c : Cmd) : State × Cmd :=
  (List.range c.descs.length).foldl (fun q st => q.1.latchStage ct q.2 st) (s, c)

/-! ### Steps (R440, R507) -/

/-- A chunk of a stream, by index. -/
def StreamCtx.chunk? (x : StreamCtx) (i : Nat) : Option Chunk := x.chunks.find? (fun c => c.idx == i)

/-- Flags of result bits (R77). -/
def fDegraded : Word16 := 0x0001
def fFallback : Word16 := 0x0002
def fOptSuppressed : Word16 := 0x0004
def fClipped : Word16 := 0x0008
def fGap : Word16 := 0x0010
def fLate : Word16 := 0x0020
def fRecovered : Word16 := 0x0040
def fReanchored : Word16 := 0x0080
def fPoisoned : Word16 := 0x0100

/-- A chunk of a stream changed. -/
def State.modChunk (s : State) (stream i : Nat) (f : Chunk → Chunk) : State :=
  s.modStream stream (fun x => { x with chunks := x.chunks.map (fun c => if c.idx == i then f c else c) })

/-- Stages of the package that a stream's model slot holds. -/
def State.stagesOf (s : State) (slot : Nat) : List StageInfo :=
  match (s.model? slot).bind (·.pkg) with
  | none => []
  | some p => p.stages

/-- A chunk whose current step has completed: its clip tests lapse (R172); a granted poison re-run takes the step again, otherwise the next stage
waits, and after the last stage the chunk awaits its commit. -/
def Chunk.stepDone (c : Chunk) (stages : Nat) : Chunk :=
  let c := { c with clipTested := [] }
  if c.rerunDue then { c with rerunDue := false, poisonRerun := true, stepPoison := false, phase := .waiting }
  else if c.stage + 1 < stages then
    { c with stage := c.stage + 1, phase := .waiting, poisonRerun := false, stepPoison := false }
  else { c with phase := .done }

/-- A ready step goes to the end of its queue, or to the head when it returns (R440, R447, R523). -/
def State.enqueueStep (s : State) (core : Nat) (r : ReadyStep) : State :=
  s.modCore core (fun k => { k with ready := k.ready ++ [r] })

/-- Steps return to the heads of their queues in their former order. -/
def State.returnSteps (s : State) (core : Nat) (l : List ReadyStep) : State :=
  let t := s.modCore core (fun k => { k with ready := l.map (fun r => { r with returned := true }) ++ k.ready })
  l.foldl (fun t r => if r.step.job then t else t.modChunk r.step.id r.step.chunk (fun c => { c with phase := .ready })) t

/-! ### Jobs (R453, R455, R457) -/

/-- Some ready step or round of a job's step stands on some core. -/
def State.jobBusy (s : State) (id chunk : Nat) : Bool :=
  (List.range 8).any (fun c =>
    (s.core c).ready.any (fun r => r.step.job && r.step.id == id && r.step.chunk == chunk)
      || (s.core c).rounds.any (fun q => q.steps.any (fun r => r.step.job && r.step.id == id && r.step.chunk == chunk)))

/-- A round of a job is still in flight somewhere. -/
def State.jobInFlight (s : State) (id : Nat) : Bool :=
  (List.range 8).any (fun c => (s.core c).rounds.any (fun q => q.steps.any (fun r => r.step.job && r.step.id == id)))

/-- A job's record, by JOB_ID; JOB_ID is the job slot plus one. -/
def State.job? (s : State) (id : Nat) : Option Job := kget? s.svc.jobs (id - 1)
def State.modJob (s : State) (id : Nat) (f : Job → Job) : State :=
  { s with svc := { s.svc with jobs := kmod? s.svc.jobs (id - 1) f } }

/-- A job ends: its state, its code, its memory grant and its event (R457, R584). -/
def State.endJob (s : State) (id state : Nat) (code : Word16) : State :=
  (s.modJob id (fun j => { j with state := state, code := code, grant := false })).logFw 0x4002 code.toNat
    [(16, id), (8, state), (16, (code.toNat : Int))]

/-- A job's next step enters the ready queue of each of its cores, as a best-effort step of the model's first stage and
primary variant (log entry 29). -/
def State.queueJob (s : State) (id : Nat) (j : Job) : State :=
  match s.svc.models.find? (fun q => q.2.modelId == j.modelId && q.2.part == j.part && q.2.state == 2) with
  | none => s
  | some (slot, _) =>
    (coresOf j.cores).foldl (fun t c => t.enqueueStep c
      { step := { id := id, chunk := j.done, job := true }, slot := slot, stage := 0, fallback := false, be := true
        deadline := 2 ^ 64 - 1, since := s.now, tenant := j.tenant }) s

/-- A job's step has left flight on one core; when it has on all of them, the step is done. -/
def State.jobStepDone (s : State) (id : Nat) : State :=
  match s.job? id with
  | none => s
  | some j =>
    if j.state = 4 then (if s.jobInFlight id then s else s.modJob id (fun j => { j with grant := false }))
    else if j.state ≠ 2 then s
    else if j.code ≠ 0 then s.endJob id 5 j.code
    else if s.jobBusy id j.done then s
    else
      let t := s.modJob id (fun j => { j with done := j.done + 1 })
      if j.steps ≤ j.done + 1 then t.endJob id 3 0 else t.queueJob id { j with done := j.done + 1 }

/-! ### Rounds leaving flight (R126, R156, R163, R441) -/

/-- Numeric events added to a partition's counters (R126, R127). -/
def State.addEvents (s : State) (part : Nat) (l : List Nat) : State :=
  { s with svc := { s.svc with
      numEvents := (List.range 5).foldl (fun m i => if l.getD i 0 = 0 then m else bumpIn m 5 part i (l.getD i 0)) s.svc.numEvents } }

/-- The totals of a tensor with one more tile record (R163). -/
def TileStats.merge (a b : TileStats) : TileStats :=
  { hist := List.zipWith (· + ·) a.hist b.hist, rowClip := [], maxAbs := Frac.max a.maxAbs b.maxAbs
    clips := a.clips + b.clips, elems := a.elems + b.elems }

/-- A record of 0x5020 numeric.tensor_stats: partition, model and tensor, the round's completion, MAXABS, clipped and
unmasked elements, 32 bins (R163, log entry 105). -/
def tensorRecord (part model tensor now : Nat) (t : TileStats) : List Byte :=
  toLe 2 part ++ toLe 2 model ++ toLe 2 tensor ++ toLe 8 now ++ toLe 4 (toF32 (.fin false t.maxAbs)).toNat
    ++ toLe 8 t.clips ++ toLe 8 t.elems ++ (t.hist.map (toLe 4)).flatten

/-- Firmware publishes the totals of the watched tensors that a round wrote (R163). -/
def State.publishTensors (s : State) (core part : Nat) (r : Round) : State :=
  match s.model? r.slot with
  | none => s
  | some m => match m.pkg with
    | none => s
    | some p => p.watched.foldl (fun (t : State) w =>
        if w.core = core ∧ w.stage = r.stage ∧ w.fallback = r.fallback then
          match kget? r.tensors (w.vecHandle * 65536 + w.vecOffset) with
          | none => t
          | some x => { t with svc := { t.svc with
              tensorStats := kset t.svc.tensorStats w.subindex (tensorRecord part m.modelId w.tensor t.now x) } }
        else t) s

/-- A kv_stats counter of a partition (R425). -/
def State.kvCount (s : State) (part i : Nat) : State :=
  { s with mem := { s.mem with kvStats := bumpIn s.mem.kvStats 8 part i 1 } }

/-- A round that has left flight: its round-end store is made and its last command has completed. -/
def Core.roundGone (k : Core) (r : Round) : Bool := r.ended && !r.fenced && !k.roundHasCmds r

/-- Some round that a prep core serves is in flight. -/
def State.prepServes (s : State) (core prep : Nat) : Bool :=
  (s.core core).rounds.any (fun r => match s.ctx? r.ctx with | none => false | some ct => ct.prep == prep)

/-- The prep core of a round's context has seen poison in the round's step: the chunk's result carries POISONED, unless the step
is re-run; with no other round to serve the prep core's status is clear (R77, R379). -/
def State.prepPoison (s : State) (core : Nat) (r : Round) : State :=
  match s.ctx? r.ctx with
  | none => s
  | some ct =>
    if !(s.core core).poisonSeen.contains ct.prep then s
    else
      let t := r.steps.foldl (fun t q => if q.step.job then t else t.modChunk q.step.id q.step.chunk (fun c =>
        if c.rerunDue then c else { c with flags := c.flags ||| fPoisoned })) s
      if t.prepServes core ct.prep then t
      else t.modCore core (fun k => { k with poisonSeen := k.poisonSeen.filter (· != ct.prep) })

/-- One round leaves flight: its numeric events are counted, and unless it has yielded, the history updates are written, the
totals of watched tensors are published and its steps are done; its context is free for another round. -/
def State.roundLeaves (s : State) (core : Nat) (r : Round) : State :=
  let t := s.modCore core (fun k => { k with rounds := k.rounds.filter (fun q => q.seq != r.seq || q.ctx != r.ctx) })
  let part := match s.ctx? r.ctx with | none => 0 | some ct => ct.part
  let t := t.addEvents part r.events
  let t := t.modCtx r.ctx (fun c => { c with roundDeadline := 2 ^ 64 - 1, dropping := false })
  if r.yielded then
    r.steps.foldl (fun t q => if q.step.job then t.jobStepDone q.step.id else t) t
  else
    let t := r.latches.foldl (fun t q => t.updateSlot q.1 q.2.1 q.2.2.1 q.2.2.2) t
    let t := (t.publishTensors core part r).prepPoison core r
    r.steps.foldl (fun t q =>
      if q.step.job then t.jobStepDone q.step.id
      else t.modChunk q.step.id q.step.chunk (·.stepDone (t.stagesOf q.slot).length)) t

/-- Every round of a core that has left flight goes. -/
def State.leaveFlight (s : State) (core : Nat) : State :=
  ((s.core core).rounds.filter (s.core core).roundGone).foldl (fun t r => t.roundLeaves core r) s

/-! ### Best-effort yield (R441, R446) -/

/-- A queue has a context of its stage, variant and class that serves no round: the contexts, resident ones first. -/
def State.freeCtxs (s : State) (core : Nat) (r : ReadyStep) : List Nat :=
  let k := s.core core
  let l := s.ctxs.filter (fun q => q.2.core == core && q.2.slot == some r.slot && q.2.stage == r.stage
    && q.2.fallback == r.fallback && q.2.cls == b2n r.be && !q.2.halted && (k.roundOf q.1).isNone)
  (l.filter (fun q => (k.slotOf q.1).isSome) ++ l.filter (fun q => (k.slotOf q.1).isNone)).map Prod.fst

/-- Ready steps whose queue qualifies (R440). -/
def State.qualifying (s : State) (core : Nat) (be : Bool) : List ReadyStep :=
  (s.core core).ready.filter (fun r => r.be == be && !(s.freeCtxs core r).isEmpty)

/-- Rounds that count for R441: in flight, or formed and awaiting dispatch, but for best-effort ones ordered to yield. -/
def Core.countedRounds (k : Core) : List Round :=
  k.rounds.filter (fun r => !(r.yielded && !k.roundHasCmds r) && !(r.be && r.yielding))

/-- A latency-critical queue qualifies while two rounds are in flight: the best-effort one of them formed last is
ordered to yield (R441). -/
def State.orderYield (s : State) (core : Nat) : State :=
  let k := s.core core
  let l := k.rounds.filter k.inFlight
  if (s.qualifying core false).isEmpty || l.length < 2 then s
  else
    match (l.filter (·.be)).getLast? with
    | none => s
    | some r => s.modCore core (fun k => { k with rounds := k.rounds.map (fun q =>
        if q.seq == r.seq && q.ctx == r.ctx then { q with yielding := true } else q) })

/-- A command or channel of a context has received a REC_FENCED answer: the steps of its round are to be re-run (R523). -/
def State.markFenced (s : State) (core ctxId : Nat) : State :=
  s.modCore core (fun k => { k with rounds := k.rounds.map (fun r =>
    if r.ctx == ctxId && !r.yielded then { r with fenced := true } else r) })

/-! ### Channels that stop (R352) -/

/-- Credits that a holder has of any core are returned, and its requests are withdrawn (R352, R372). -/
def State.dropCredits (s : State) (h : CreditHolder) : State :=
  s.modCores (fun _ k => { k with
    creditReqs := k.creditReqs.filter (fun q => q.2.1 != h), credits := k.credits.filter (fun q => q.2.1 != h) })

/-- A channel stops at once and is free; its transfer tags are freed, and so are the credits it spent on remote slots that
it has not filled. -/
def State.freeChannel (s : State) (core chan : Nat) : State :=
  let c := s.chan core chan
  let x := c.desc.toNat
  let t := s.modCore core (fun k => { k with channels := kdel k.channels chan, tags := k.tags - c.tags })
  let t := if c.state == .running && sdDstKind x == 2 then
      t.modCore (sdRemote x) (fun k => { k with spent := k.spent.filter (fun q => q.1 / 64 != sdDstH x) })
    else t
  t.dropCredits (.channel core chan)

/-- Every channel that a context started stops (R352). -/
def State.stopChannels (s : State) (core ctxId : Nat) : State :=
  (((s.core core).channels.filter (fun q => q.2.ctx == ctxId && q.2.state != .free)).map Prod.fst).foldl
    (fun t n => t.freeChannel core n) s

/-! ### Rejection (R196) -/

/-- A command is rejected: its completion record `r` carries the code, nothing is signalled, the context halts. -/
def State.rejectWith (s : State) (ctxId : Nat) (r : Completion) (n : Nat) (prog : Option Nat) : State :=
  let seq := r.seq
  let code := r.code
  match s.ctx? ctxId with
  | none => s
  | some ct =>
    let t := s.writeRecord ctxId r
    let t := t.dropWaits ctxId
    let t := t.modCtx ctxId (fun c => { c with halted := true, head := (c.head + n) % 65536 })
    let t := match (s.core ct.core).roundOf ctxId with
      | none => t
      | some r => r.steps.foldl (fun (t : State) (q : ReadyStep) =>
          if q.step.job then t.modJob q.step.id (fun j => { j with code := code }) else t) t
    let t := t.logEvent 0x8001 code.toNat 0x05 ct.core [(16, ctxId), (16, seq), (16, (code.toNat : Int))]
    match prog with
    | none => t
    | some p => t.logEvent 0x8002 code.toNat 0x02 (ct.core * 16) [(16, ctxId), (32, p)]

/-- A command that the router rejects before its dispatch. -/
def State.reject (s : State) (ctxId : Nat) (seq n : Nat) (code : Word16) (prog : Option Nat) : State :=
  s.rejectWith ctxId { seq := seq, code := code } n prog

/-- Work items of a command leave every queue, engine and re-run queue of its core and the neighbour (R160, R251). -/
def WorkItem.of_ (w : WorkItem) (c : Cmd) (home : Nat) : Bool := w.ctx == c.ctx && w.seq == c.seq && w.home == home

/-- The bell slot of a number. -/
def BellState.slot (b : BellState) (i : Nat) : BellSlot := if i = 0 then b.slot0 else b.slot1
def BellState.putSlot (b : BellState) (i : Nat) (x : BellSlot) : BellState := if i = 0 then { b with slot0 := x } else { b with slot1 := x }

/-- Tagged blocks leave the Bell, decoded or discarded: their slot's TAG_COUNT falls, if the slot still holds the version
that they are tagged with (R308). -/
def BellState.untag (b : BellState) (w : WorkItem) (blocks : Nat) : BellState :=
  match w.tag with
  | none => b
  | some (i, v) =>
    let x := b.slot i
    if x.version = v then b.putSlot i { x with tagCount := x.tagCount - blocks } else b

/-- No work item runs on the Bell: what it took in for one is gone. -/
def BellState.idle (b : BellState) : BellState := { b with extReads := [], extDone := [], seg := 0, book := [], bookPoison := false }

/-- Blocks of an item's B in the Bell (R308). -/
def itemBlocks (d : Nat) : Nat := 32 * cdiv (dK d) 32

/-- An engine without the work items that a test names: sets that held one become FREE, and the Bell loses their blocks,
`blocks` of each. -/
def Engine.purge (g : Engine) (p : WorkItem → Bool) (blocks : WorkItem → Nat) : Engine :=
  let clear (a : AccSet) : AccSet := match a.item with
    | some w => if p w then {} else a
    | none => a
  let hit (o : Option WorkItem) : Bool := match o with | some w => p w | none => false
  let bell := (g.taken.toList ++ g.queue).foldl (fun (b : BellState) w => if p w then b.untag w (blocks w) else b) g.bell
  let bell := match g.running with
    | some (w, _) => if p w then (bell.untag w (blocks w - 32 * g.bell.seg)).idle else bell
    | none => bell
  { g with
    queue := g.queue.filter (fun w => !p w)
    taken := if hit g.taken then none else g.taken
    running := match g.running with
      | some (w, i) => if p w then none else some (w, i)
      | none => none
    segs := if hit (g.running.map Prod.fst) then 0 else g.segs
    set0 := clear g.set0, set1 := clear g.set1
    ve := { g.ve with item := if hit g.ve.item then none else g.ve.item
                      body := if hit (g.ve.body.map (·.item)) then none else g.ve.body }
    bell := { bell with waiting := bell.waiting.filter (fun w => !p w)
                        loading := match bell.loading with
                          | some (i, w) => if p w then none else some (i, w)
                          | none => none } }

/-- Blocks of a work item that the Bell tags. -/
def State.blocksOf (s : State) (w : WorkItem) : Nat := match s.cmdOf w with | none => 0 | some c => itemBlocks (c.desc w.stage)

/-- Work items that a test names leave the whole module. Extension reads under way for them keep their transfer tags no
longer (R314). -/
def State.purgeItems (s : State) (p : WorkItem → Bool) : State :=
  s.modCores (fun _ k =>
    let gone := sumNat (k.engines.map (fun q => match q.2.running with
      | some (w, _) => if p w then q.2.bell.extReads.length else 0
      | none => 0))
    { k with engines := k.engines.map (fun q => (q.1, q.2.purge p s.blocksOf)), rerun := k.rerun.filter (fun w => !p w)
             tags := k.tags - gone })

/-- Nanoseconds of [a, b) that intervals cover. -/
def covered (l : List (Nat × Nat)) (a b : Nat) : Nat :=
  ((sortBy (fun (x y : Nat × Nat) => decide (x.1 < y.1)) l).foldl (fun (q : Nat × Nat) x =>
    let lo := Nat.max q.1 x.1
    let hi := Nat.min b x.2
    if lo < hi then (hi, q.2 + (hi - lo)) else q) (a, 0)).2

/-- Work items that an engine has started and not ended. -/
def Engine.under (g : Engine) : List WorkItem :=
  (g.running.map Prod.fst).toList ++ g.set0.item.toList ++ g.set1.item.toList ++ g.ve.item.toList ++ (g.ve.body.map (·.item)).toList

/-- Intervals in which an engine runs work items of other commands that have not ended yet. -/
def State.runningCuts (s : State) (core : Nat) (c : Cmd) (eng : Nat) : List (Nat × Nat) :=
  ((s.engine (eng / 16) (eng % 16)).under.filter (fun w => !(w.ctx == c.ctx && w.seq == c.seq && w.home == core))).map
    (fun w => (w.started, s.now))

/-- Engine-cycles of a command: 1.5 per ns of the spans of its engines, less what R709 removes (log entry 14). -/
def State.engineCycles (s : State) (core : Nat) (c : Cmd) : Nat :=
  sumNat (c.spans.map (fun q =>
    (q.2.2 - q.2.1) - covered (kgetD c.cuts q.1 [] ++ s.runningCuts core c q.1) q.2.1 q.2.2)) * 3 / 2

/-- Slot of an enrolled tenant. -/
def Persist.tenantSlot (p : Persist) (tenant : Nat) : Option Nat := (p.tenants.find? (fun q => q.2.tenant == tenant)).map Prod.fst

/-- BE_WEIGHT of a tenant. -/
def Persist.weightOf (p : Persist) (tenant : Nat) : Nat :=
  match p.tenants.find? (fun q => q.2.tenant == tenant) with
  | none => 1
  | some q => Nat.max 1 q.2.beWeight

/-- The cycles of a completion record are charged to the context's tenant in the command's CLASS; a system command's are
charged to none (R190, R222). -/
def State.charge (s : State) (ct : Ctx) (cls cycles : Nat) : State :=
  if cls = 2 then s
  else
    let be := cls == 1
    let t := match s.persist.tenantSlot ct.tenant with
      | none => s
      | some i =>
        { s with svc := { s.svc with usage := kmod s.svc.usage i (0, 0) (fun u =>
            if be then (u.1, u.2 + cycles) else (u.1 + cycles, u.2)) } }
    if be then
      let w := s.persist.weightOf ct.tenant
      t.modCore ct.core (fun k => { k with vtime := kset k.vtime ct.tenant (Frac.add (k.vt ct.tenant) (Frac.norm ⟨cycles, 1500 * w⟩)) })
    else t

/-- The completion record of a command that ends (R233). -/
def State.recordOf (s : State) (core : Nat) (c : Cmd) (code : Word16) : Completion :=
  { seq := c.seq, code := code, status := c.status, reruns := c.reruns, tiles := c.tiles, stolen := c.stolen
    cycles := s.engineCycles core c }

/-- A command under way is handled as rejected: what it has not completed is discarded; its record says what it did, and its
engine-cycles are charged (R160, R233, R251). -/
def State.rejectRunning (s : State) (core : Nat) (c : Cmd) (code : Word16) : State :=
  let r := s.recordOf core c code
  let t := s.purgeItems (fun w => w.of_ c core)
  let t := t.modCore core (fun k => { k with cmds := k.cmds.filter (fun m => !(m.ctx == c.ctx && m.seq == c.seq)) })
  let t := match s.ctx? c.ctx with
    | none => t
    | some ct => t.charge ct c.cls r.cycles
  t.rejectWith c.ctx r 0 none

end Sys2Proof.Machine
end

