-- ==== Sys2Proof/Machine/Commands.lean ====
section
/-! DEFINITION. Queues, rounds and the commands that use no engine: doorbells, the choice of R443, NOP, FENCE, waits,
signals and credits, completion, rounds formed, yielded and ended, and the swaps of the context store. -/

namespace Sys2Proof.Machine

/-- What follows a change of a core's commands or rounds: rounds that have left flight go, a best-effort round may be
ordered to yield, and every core's head commands take up their waits (R441, R446). -/
def State.after (s0 s : State) (core : Nat) : State :=
  let t := (s.leaveFlight core).orderYield core
  (List.range 8).foldl (fun u c => State.settle s0 u c) t

/-! ### Doorbells (R438, R708) -/

/-- Descriptors up to TAIL are discarded: HEAD passes them and SEQ_NEXT follows the last of them (R447). -/
def State.discardQueue (s : State) (ctxId : Nat) : State :=
  match s.ctx? ctxId with
  | none => s
  | some ct =>
    if ct.depth = 0 then s
    else
      let last := dSeq (s.queued ct (ct.tail + 65535))
      s.modCtx ctxId (fun c => { c with head := c.tail, seqNext := (last + 1) % 65536 })

/-- DOORBELL: a store to the doorbell port takes the new TAIL and CRING_RD to the context's slot or image; one that would
overfill the queue is ignored and logged (R438, R447, R449, R501, R513, R708). A doorbell for a context of another core
or partition changes nothing (log entry 30). -/
def execDoorbell (core : Fin 8) (prep : Fin 4) (value : Word64) (s : State) : Host.Outcome State Fault Refusal :=
  let v := value.toNat
  let id := bits v 15 0
  let tail := bits v 31 16
  .next (match s.ctx? id, s.prepPart core prep with
  | some ct, some part =>
    if s.fenced core ∨ ct.core ≠ core ∨ ct.part ≠ part then s
    else
      let t := s.progress core (112 + prep)
      if 2 ^ (ct.queueLog2 + 4) < (tail + 65536 - ct.head) % 65536 then
        t.logEvent 0x4001 0 0x05 core [(16, id), (16, tail)]
      else
        let t := t.modCtx id (fun c => { c with tail := tail, cringRd := bits v 47 32 })
        State.after s (if ct.dropping then t.discardQueue id else t) core
  | _, _ => s)

/-! ### The choice of R443 -/

/-- Engines that a mask allows: all that are not quarantined where it allows none of them (R217). -/
def State.maskEngines (s : State) (core mask : Nat) : List Nat :=
  let live := s.liveEngines core
  let l := if mask = 0 then live else live.filter (bit mask ·)
  if l = [] then live else l

/-- ENGINE_MASK of a stage that uses engines. -/
def engineMask (d : Nat) : Option Nat :=
  if isMatmul d then some (dMask d) else if dOp d = 0x30 then some (vrMask d) else none

/-- A command in flight has a further work item for an engine: one that the router holds, or one of a stage that it has not
issued (R365). -/
def State.itemFor (s : State) (core e : Nat) (c : Cmd) : Bool :=
  c.held.any (fun h => h.1 == e) || (List.range c.descs.length).any (fun st => decide (c.stage ≤ st)
    && (match engineMask (c.desc st) with | none => false | some m => (s.maskEngines core m).contains e))

/-- No command has a further work item for an engine (R365). -/
def State.engineOpen (s : State) (core e : Nat) : Bool := (s.core core).cmds.all (fun c => !s.itemFor core e c)

/-- A head command that may be taken: slot, context, its descriptors and the code of a failed validation. -/
structure Candidate where
  slot : Nat
  ctxId : Nat
  ct : Ctx
  ds : List Nat
  bad : Option Word16
  deriving DecidableEq, Repr

/-- The rounds in flight let a context's next command be dispatched (R441, R446). -/
def Core.roundAllows (k : Core) (ctxId : Nat) (ct : Ctx) : Bool :=
  match k.roundOf ctxId with
  | none => true
  | some r =>
    !r.yielded && (!r.yielding || ct.holdCount != 0)
      && (r.inFlight || decide ((k.rounds.filter (fun q => k.inFlight q && q.ctx != ctxId)).length < 2))

/-- The resident contexts of a core whose head command may be taken. -/
def State.candidates (s : State) (core : Nat) : List Candidate :=
  let k := s.core core
  k.slots.filterMap (fun q =>
    match s.ctx? q.2 with
    | none => none
    | some ct =>
      match s.headDescs ct with
      | none => none
      | some ds =>
        if s.headReady q.2 ct && k.roundAllows q.2 ct then
          let d := ds.headD 0
          let bad := s.validate q.2 ct ds
          let waits := match s.semset ct (dSemset d) with
            | none => false
            | some x => seWaitOp x != 0 && !ct.satisfied
          let open_ := match engineMask d with
            | none => true
            | some m => s.liveEngines core == [] || (s.maskEngines core m).any (s.engineOpen core)
          if bad.isSome || (!waits && open_) then some ⟨q.1, q.2, ct, ds, bad⟩ else none
        else none)

/-- Order of R443: rank, then the keys within a rank, then the slot. -/
def State.candLt (s : State) (core : Nat) (a b : Candidate) : Bool :=
  let k := s.core core
  let rank (c : Candidate) : Nat :=
    if c.ct.holdCount ≠ 0 then 0 else if c.ct.cls = 0 then 1 else if c.ct.cls = 2 then 2 else 3
  let first (c : Candidate) : Nat := match k.roundOf c.ctxId with
    | none => 0
    | some r => (r.steps.head?.map (fun q => q.step.id)).getD 0
  let bySlot := decide (a.slot < b.slot)
  let lex (x y : Nat) (r : Bool) : Bool := decide (x < y) || (x == y && r)
  if rank a ≠ rank b then decide (rank a < rank b)
  else
    match rank a with
    | 1 => lex a.ct.roundDeadline b.ct.roundDeadline (lex (first a) (first b) bySlot)
    | 2 => lex a.ct.readySince b.ct.readySince bySlot
    | 3 =>
      let va := k.vt a.ct.tenant
      let vb := k.vt b.ct.tenant
      Frac.lt va vb || (!Frac.lt vb va && bySlot)
    | _ => bySlot

/-- Mappings that a command names, copied at its validation: stage × 256 + handle (R342). -/
def State.copyMaps (s : State) (core part : Nat) (ds : List Nat) : KMap HandleEntry :=
  (List.range ds.length).foldl (fun m st =>
    let d := ds.getD st 0
    let a := (aPlace ds st).1
    let walk := if isMatmul d ∧ dOp d ≠ 1 then (s.walkOf core part d).getD [] else []
    (a :: stageHandles d walk (s.programReaches core part d)).foldl (fun m h => kset m (st * 256 + h) ((s.core core).handle h)) m) []

/-- Vector programs of a command, as loaded with it, by stage (R250). -/
def State.loadProgs (s : State) (core part : Nat) (ds : List Nat) : KMap (List Byte) :=
  kofList ((List.range ds.length).filterMap (fun st =>
    let d := ds.getD st 0
    if hasProgram d then (s.programOf core part d).map (fun q => (st, s.bufRead core q.1 q.2.2 2056)) else none))

/-- The chosen command is dispatched. -/
def State.dispatch (s : State) (core : Nat) (c : Candidate) : State :=
  let k := s.core core
  let cmd : Cmd := { ctx := c.ctxId, seq := c.ct.seqNext, descs := c.ds.map (BitVec.ofNat 512 ·), serial := s.draws
                     progs := s.loadProgs core c.ct.part c.ds
                     wide := (List.range c.ds.length).filter (fun st => s.wideRun core c.ctxId c.ct (c.ds.getD st 0))
                     maps := s.copyMaps core c.ct.part c.ds, round := (k.roundOf c.ctxId).map (·.seq), dispatchedAt := s.now }
  let (t, cmd) := ({ s with draws := s.draws + 1 } : State).latchAll c.ct cmd
  let t := t.modCore core (fun k => { k with
    cmds := k.cmds ++ [cmd]
    rounds := k.rounds.map (fun r => if r.ctx == c.ctxId && some r.seq == cmd.round then { r with inFlight := true } else r) })
  let t := t.modCtx c.ctxId (fun x => { x with waiting := none, satisfied := false, lastRun := s.now, readySince := s.now })
  let t := if cmd.isWait then t
    else t.modCtx c.ctxId (fun x => { x with head := (x.head + c.ds.length) % 65536, seqNext := (x.seqNext + 1) % 65536 })
  t.progress core 116

/-- COMMAND_DISPATCH: the router takes the head command of the context that R443 puts first, validates it, and dispatches
it or rejects it (R194, R196, R198, R365, R439, R441 to R443, R446, R501, R512). -/
def execCommandDispatch (core : Fin 8) (s : State) : Host.Outcome State Fault Refusal :=
  .next (if s.recovering core then s
  else
    match bestBy (s.candLt core) (s.candidates core) with
    | none => s
    | some c =>
      let t := match c.bad with
        | none => s.dispatch core c
        | some code => s.reject c.ctxId (dSeq (c.ds.headD 0)) c.ds.length code (if code = cmdVPROG then s.badProgram c.ct c.ds else none)
      State.after s t core)

/-! ### Commands without engines -/

/-- The oldest command of a context whose next stage to issue carries an opcode. -/
def State.toIssue (s : State) (ctxId op : Nat) : Option (Nat × Cmd) :=
  match s.ctx? ctxId with
  | none => none
  | some ct =>
    if s.recovering ct.core then none
    else ((s.core ct.core).cmds.find? (fun c =>
      c.ctx == ctxId && c.phase == .validated && dOp (c.desc c.stage) == op)).map (fun c => (ct.core, c))

/-- A command's work is done but for its completion. -/
def Cmd.drain (c : Cmd) (code : Word16) : Cmd := { c with phase := .drained, stage := c.descs.length, code := code }

/-- NOP completes at once (R189). -/
def execNop (ctx : Nat) (s : State) : Host.Outcome State Fault Refusal :=
  .next (match s.toIssue ctx 0x00 with
  | none => s
  | some (core, c) => s.modCmd core c.ctx c.seq (·.drain 0))

/-- FENCE begins: the router dispatches no later command of the context until it completes (R490). -/
def execFence (ctx : Nat) (s : State) : Host.Outcome State Fault Refusal :=
  .next (match s.toIssue ctx 0x10 with
  | none => s
  | some (core, c) => s.modCmd core c.ctx c.seq (fun c => { c with phase := .running, stage := 1 }))

/-- SEM_WAIT: its wait reaches the semaphore store (R492, R493). -/
def execSemWait (ctx : Nat) (s : State) : Host.Outcome State Fault Refusal :=
  .next (match s.toIssue ctx 0x11, s.ctx? ctx with
  | some (core, c), some ct =>
    let x := cmdSem (c.desc 0)
    if seWaitOp x = 0 then s.modCmd core c.ctx c.seq (·.drain 0)
    else (s.modCmd core c.ctx c.seq (fun c => { c with phase := .running, stage := 1 })).semWaitSend ctx ct x
  | _, _ => s)

/-- SEM_SIGNAL: its operation is sent to the semaphore store (R492, R493). -/
def execSemSignal (ctx : Nat) (s : State) : Host.Outcome State Fault Refusal :=
  .next (match s.toIssue ctx 0x12 with
  | none => s
  | some (core, c) => (s.modCmd core c.ctx c.seq (·.drain 0)).semSignal ctx c.part (cmdSem (c.desc 0)))

/-! ### Semaphore stores (R495) -/

/-- A wait of a context is satisfied: its head command may go on, or the SEM_WAIT it is has ended. -/
def State.satisfyWait (s : State) (w : SemWait) (hold : Bool) : State :=
  let t := s.modCtx w.ctx (fun c => { c with waiting := none, holdCount := if hold then (c.holdCount + 1) % 256 else c.holdCount })
  if (t.core w.core).cmds.any (fun c => c.ctx == w.ctx && c.op == 0x11 && c.phase == .running) then
    t.modCore w.core (fun k => { k with cmds := k.cmds.map (fun c =>
      if c.ctx == w.ctx && c.op == 0x11 && c.phase == .running then c.drain 0 else c) })
  else t.modCtx w.ctx (fun c => { c with satisfied := true })

/-- A SET, or an ADD or GIVE: a GIVE ends a hold of its context and the record of a TAKE. -/
def State.applySemOp (s : State) (core idx : Nat) (op : SemOp) : State :=
  let put (t : State) (f : Word32 → Word32) : State := t.modCore core (fun k =>
    { k with sems := { k.sems with vals := kset k.sems.vals idx (f (kgetD k.sems.vals idx 0)) } })
  match op with
  | .set v => put s (fun _ => v)
  | .add v => put s (· + v)
  | .give v ctx =>
    let t := (put s (· + v)).modCtx ctx (fun c => { c with holdCount := c.holdCount - 1 })
    t.modCore core (fun k => { k with sems := { k.sems with
      takes := match takeFirst (fun r => r.ctx == ctx && r.index == idx) k.sems.takes with
        | none => k.sems.takes
        | some (_, l) => l } })

/-- Value of a semaphore. -/
def State.semVal (s : State) (core idx : Nat) : Word32 := kgetD (s.core core).sems.vals idx 0

/-- The waiting TAKEs of a semaphore in their order; each that the value covers subtracts, and is recorded. -/
def State.applyTakes (s : State) (core idx : Nat) (l : List SemWait) : State :=
  l.foldl (fun t w =>
    let v := t.semVal core idx
    if w.value ≤ v then
      let t := t.modCore core (fun k => { k with sems := { k.sems with
        vals := kset k.sems.vals idx (v - w.value)
        waits := k.sems.waits.filter (fun q => q != w)
        takes := k.sems.takes ++ [{ ctx := w.ctx, core := w.core, index := idx, value := w.value }] } })
      t.satisfyWait w true
    else t) s

/-- SEMAPHORE_OP_APPLY: the operations that have reached a semaphore are applied: SET, then ADD and GIVE in arrival
order, then waiting GEs, then TAKEs by core and slot (R491 to R495, R516). -/
def execSemaphoreOpApply (core : Fin 8) (index : Fin 4096) (s : State) : Host.Outcome State Fault Refusal :=
  let st := (s.core core).sems
  let mine := (st.ops.filter (fun q => q.1 == index.val)).map Prod.snd
  let isSet (o : SemOp) : Bool := match o with | .set _ => true | _ => false
  let t := s.modCore core (fun k => { k with sems := { k.sems with ops := k.sems.ops.filter (fun q => q.1 != index.val) } })
  let t := (mine.filter isSet ++ mine.filter (fun o => !isSet o)).foldl (fun t o => t.applySemOp core index o) t
  let ge := st.waits.filter (fun w => w.index == index.val && !w.take && decide (w.value ≤ t.semVal core index))
  let t := ge.foldl (fun t w =>
    (t.modCore core (fun k => { k with sems := { k.sems with waits := k.sems.waits.filter (fun q => q != w) } })).satisfyWait w false) t
  let takes := sortBy (fun a b => decide (a.core < b.core) || (a.core == b.core && decide (a.slot < b.slot)))
    (st.waits.filter (fun w => w.index == index.val && w.take))
  .next (State.after s (t.applyTakes core index takes) core)

/-- SEM_WAIT_TIMEOUT: a wait not satisfied within TIMEOUT_US: its command is handled as rejected (R496). -/
def execSemWaitTimeout (ctx : Nat) (s : State) : Host.Outcome State Fault Refusal :=
  .next (match s.ctx? ctx with
  | none => s
  | some ct =>
    match ct.waiting with
    | some (some end_) =>
      if s.now < end_ ∨ ct.satisfied then s
      else
        let n := match s.headDescs ct with | none => 1 | some ds => ds.length
        let t := s.modCore ct.core (fun k => { k with cmds := k.cmds.filter (fun c => !(c.ctx == ctx && c.isWait)) })
        State.after s (t.reject ctx ct.seqNext n memSEM_TIMEOUT none) ct.core
    | _ => s)

/-! ### Credits (R366 to R372) -/

/-- Credits of a handle that a holder has. -/
def Core.creditsOf (k : Core) (h : Nat) (o : CreditHolder) : Nat :=
  ((k.credits.filter (fun q => q.1 == h && q.2.1 == o)).map (fun q => q.2.2)).foldl (· + ·) 0

/-- A holder's credits of a handle set to a number. -/
def Core.putCredits (k : Core) (h : Nat) (o : CreditHolder) (n : Nat) : Core :=
  let l := k.credits.filter (fun q => !(q.1 == h && q.2.1 == o))
  { k with credits := if n = 0 then l else l ++ [(h, o, n)] }

/-- Credits of a handle that may still be granted: a ring's empty slots that no credit covers, or the one credit of a
plain handle (R366, R367). -/
def Core.creditFree (k : Core) (h : Nat) : Nat :=
  let e := k.handle h
  let held := ((k.credits.filter (fun q => q.1 == h)).map (fun q => q.2.2)).foldl (· + ·) 0
  if !e.valid then 0
  else if e.ring then
    let empty := ((List.range e.slots).filter (fun i => !e.isFull i)).length
    empty - held - (k.spent.filter (fun q => q.1 / 64 == h)).length
  else 1 - held

/-- CREDIT_ACQUIRE: the request goes to the target core's router; a fenced core refuses it (R370, R371, R513). -/
def execCreditAcquire (ctx : Nat) (s : State) : Host.Outcome State Fault Refusal :=
  .next (match s.toIssue ctx 0x13 with
  | none => s
  | some (core, c) =>
    let d := c.desc 0
    if s.fenced (crCore d) then s.modCmd core c.ctx c.seq (·.drain recFENCED)
    else
      let t := s.modCmd core c.ctx c.seq (fun c => { c with phase := .running, stage := 1 })
      t.modCore (crCore d) (fun k => { k with creditReqs := k.creditReqs ++ [(crH d, .context ctx, crCount d, s.now)] }))

/-- A running channel of a context writes a plain handle of another core under the context's credit (R366, R371). -/
def Core.creditInUse (k : Core) (ctx target h : Nat) : Bool :=
  k.channels.any (fun q => let x := q.2.desc.toNat
    q.2.state == .running && q.2.ctx == ctx && sdDstKind x == 2 && sdRemote x == target && sdDstH x == h && !q.2.dstMap.ring)

/-- CREDIT_RELEASE: COUNT unused credits of the target return, at most those that are held; the credit under which a channel
of the context runs a pass is in use (R371, log entry 31). -/
def execCreditRelease (ctx : Nat) (s : State) : Host.Outcome State Fault Refusal :=
  .next (match s.toIssue ctx 0x14 with
  | none => s
  | some (core, c) =>
    let d := c.desc 0
    let t := s.modCmd core c.ctx c.seq (·.drain 0)
    let kept := b2n ((s.core core).creditInUse ctx (crCore d) (crH d))
    t.modCore (crCore d) (fun k =>
      let n := k.creditsOf (crH d) (.context ctx)
      k.putCredits (crH d) (.context ctx) (Nat.min n (Nat.max kept (n - crCount d)))))

/-- A grant reaches a CREDIT_ACQUIRE. -/
def State.grantCtx (s : State) (ctx n : Nat) : State :=
  match s.ctx? ctx with
  | none => s
  | some ct =>
    s.modCore ct.core (fun k => { k with cmds := k.cmds.map (fun c =>
      if c.ctx == ctx && c.op == 0x13 && c.phase == .running then
        let c := { c with credits := c.credits + n }
        if crCount (c.desc 0) ≤ c.credits then c.drain 0 else c
      else c) })

/-- CREDIT_GRANT: the target router grants what is free of a handle to the first request for it (R367, R513). -/
def execCreditGrant (target : Fin 8) (handle : Fin 256) (s : State) : Host.Outcome State Fault Refusal :=
  .next (if s.fenced target then s
  else
    match (s.core target).creditReqs.find? (fun q => q.1 == handle.val) with
    | none => s
    | some (h, o, n, since) =>
      let g := Nat.min n ((s.core target).creditFree h)
      if g = 0 then s
      else
        let t := s.modCore target (fun k =>
          let k := k.putCredits h o (k.creditsOf h o + g)
          let l := k.creditReqs.map (fun q => if q == (h, o, n, since) then (h, o, n - g, since) else q)
          { k with creditReqs := l.filter (fun q => q.2.2.1 != 0) })
        match o with
        | .context ctx => State.after s (t.grantCtx ctx g) target
        | .channel c ch =>
          if n = g then t.modCore c (fun k => { k with channels := kmod? k.channels ch (fun x => { x with creditAsked := false }) })
          else t)

/-- CREDIT_TIMEOUT: credits not all granted within 50 µs: the command completes with MEM_CREDIT_TIMEOUT and those
granted return (R370). -/
def execCreditTimeout (ctx : Nat) (s : State) : Host.Outcome State Fault Refusal :=
  .next (match s.ctx? ctx with
  | none => s
  | some ct =>
    match (s.core ct.core).cmds.find? (fun c => c.ctx == ctx && c.op == 0x13 && c.phase == .running) with
    | none => s
    | some c =>
      let d := c.desc 0
      let old := (s.core (crCore d)).creditReqs.any (fun q => q.2.1 == .context ctx && q.1 == crH d && decide (q.2.2.2 + 50000 ≤ s.now))
      if !old then s
      else
        let t := s.modCore (crCore d) (fun k =>
          let k := k.putCredits (crH d) (.context ctx) (k.creditsOf (crH d) (.context ctx) - c.credits)
          { k with creditReqs := k.creditReqs.filter (fun q => !(q.1 == crH d && q.2.1 == .context ctx)) })
        t.modCmd ct.core c.ctx c.seq (·.drain memCREDIT_TIMEOUT))

/-! ### Checkpoints (R71) -/

/-- CHECKPOINT: one report per record goes to the deadline monitor; records in an empty ring slot stall it (R70, R71, R356). -/
def execCheckpoint (ctx : Nat) (s : State) : Host.Outcome State Fault Refusal :=
  .next (match s.toIssue ctx 0x31, s.ctx? ctx with
  | some (core, c), some ct =>
    let d := c.desc 0
    let h := kgetD c.maps (ckH d) {}
    let r? := (s.core core).roundOf ctx
    let slots := if h.ring then h.slotsOf (ckOff d * 64) (8 * ckCount d) else []
    if !slots.all ((s.core core).handle (ckH d)).isFull then s
    else
    let reports := (List.range (ckCount d)).map (fun n =>
      let r := s.bufNat core h (ckOff d * 64 + 8 * n) 8
      let chunk := match r?.bind (fun r => r.steps[n]?) with
        | some q => q.step.chunk
        | none => bits r 31 16
      ({ ctx := ctx, seq := c.seq, n := n, ckpt := ckIdx d, fallback := ckVar d, stream := bits r 13 0
         poison := bit r 14, clip := bit r 15, chunk := chunk, be := ct.cls == 1 } : CkptReport))
    (s.modCmd core c.ctx c.seq (fun c =>
      { c with phase := .running, stage := 1, decisions := ckCount d, ringRead := slots.map (fun i => (ckH d, i)) })).modCore core
      (fun k => { k with reports := k.reports ++ reports })
  | _, _ => s)

/-! ### Completion (R233, R484, R486, R490) -/

/-- Everything that a command has started has ended. -/
def Core.cmdDone (k : Core) (c : Cmd) : Bool :=
  c.phase == .drained
    || (c.phase == .running && c.stage == c.descs.length &&
        (match c.op with
         | 0x10 => ((k.cmds.find? (fun m => m.ctx == c.ctx)).map (·.seq)) == some c.seq
             && (!fnChannels (c.desc 0) || k.runningChans c.ctx == 0)
         | 0x31 => c.decisions == 0
         | 0x11 | 0x13 => false
         | _ => c.left == 0 && c.held == []))

/-- Max-abs of a command's slots goes into its round, or, where it serves none, into the slots themselves (R155, R156). -/
def State.foldMaxAbs (s : State) (ct : Ctx) (c : Cmd) : State :=
  (List.range c.descs.length).foldl (fun t st =>
    match (stageSlot (c.desc st)).bind (t.slotAddr ct.core ct), kget? c.latch st with
    | some addr, some sc =>
      let a := kgetD c.maxAbs addr Frac.zero
      match c.round with
      | some r => t.modCore ct.core (fun k => { k with rounds := k.rounds.map (fun q =>
          if q.seq == r && q.ctx == c.ctx then
            { q with latches := kmod? q.latches addr (fun l => (l.1, l.2.1, Frac.max l.2.2 a)) } else q) })
      | none =>
        if (List.range st).any (fun j => (stageSlot (c.desc j)).bind (t.slotAddr ct.core ct) == some addr) then t
        else t.updateSlot addr sc (c.constant.contains st) a
    | _, _ => t) s

/-- HOLD_COUNT, HEAD and SEQ_NEXT at the completion of a wait or a release (R444). -/
def Ctx.atCompletion (x : Ctx) (c : Cmd) : Ctx :=
  let x := if c.isWait then { x with head := (x.head + 1) % 65536, seqNext := (x.seqNext + 1) % 65536 } else x
  if c.op = 0x13 ∧ c.code = 0 then { x with holdCount := (x.holdCount + 1) % 256 }
  else if c.op = 0x14 then { x with holdCount := x.holdCount - 1 }
  else x

/-- Numeric events of a command's tiles: they wait for the end of its round, and count at once where it serves none (R126,
R127). -/
def State.countNumeric (s : State) (core part : Nat) (c : Cmd) : State :=
  if ((s.core core).rounds.any (fun q => some q.seq == c.round && q.ctx == c.ctx)) then
    s.modCore core (fun k => { k with rounds := k.rounds.map (fun q =>
      if some q.seq == c.round && q.ctx == c.ctx then { q with events := List.zipWith (· + ·) q.events c.events } else q) })
  else s.addEvents part c.events

/-- A command of a job's step adds its engine-cycles and a code that fails the job (R453, R457). -/
def Job.charged (j : Job) (code : Word16) (cycles : Nat) : Job :=
  { j with usage := j.usage + cycles, code := if code = 0 ∨ code = schBE_YIELD then j.code else code }

/-! ### Partial flushes (R405, R406, R425, R704) -/

/-- SEQ of the next command appended to a context's queue (R191). -/
def State.nextSeq (s : State) (ct : Ctx) : Nat :=
  if ct.depth = 0 then ct.seqNext else (dSeq (s.queued ct (ct.tail + 65535)) + 1) % 65536

/-- A descriptor as firmware issues it in a system context: with its class, partition, context and SEQ. -/
def State.flushDesc (s : State) (id : Nat) (ct : Ctx) (d : BitVec 512) : Nat :=
  putBits (putBits (putBits (putBits d.toNat 9 8 2) 15 13 ct.part) 31 16 id) 63 48 (s.nextSeq ct)

/-- One command appended to the queue of a context that has room (R438). -/
def State.appendFlush (s : State) (id : Nat) (ct : Ctx) (d : BitVec 512) : State :=
  (s.hbmWrite (ct.queueBase + 64 * (ct.tail % 2 ^ (ct.queueLog2 + 4))) (toLe 64 (s.flushDesc id ct d)) false).modCtx id
    (fun c => { c with tail := (c.tail + 1) % 65536 })

/-- The pinned system context of a partition on a core (R430). -/
def State.systemCtx (s : State) (core part : Nat) : Option (Nat × Ctx) :=
  s.ctxs.find? (fun q => q.2.core == core && q.2.part == part && q.2.cls == 2 && q.2.pin)

/-- Partial flushes that wait are issued, in order, while their system context's queue has room. -/
def State.issueFlushes (s : State) (core : Nat) : List (Nat × BitVec 512) → State
  | [] => s.modCore core (fun k => { k with flushes := [] })
  | q :: l =>
    match s.systemCtx core q.1 with
    | none => s.issueFlushes core l
    | some (id, ct) =>
      if ct.halted then s.issueFlushes core l
      else if 2 ^ (ct.queueLog2 + 4) ≤ ct.depth then s.modCore core (fun k => { k with flushes := q :: l })
      else (s.appendFlush id ct q.2).issueFlushes core l

/-- A context leaves a core's store: firmware, or the hub while the firmware is being replaced, issues the partial flushes of the
staged pages of the streams that it serves, by the package's flush program (R406, R704, log entry 130). -/
def State.swapOutFlush (s : State) (core out : Nat) : State :=
  match s.ctx? out with
  | none => s
  | some ct =>
    match ct.slot with
    | none => s
    | some slot =>
      match (s.model? slot).bind (·.pkg) with
      | none => s
      | some p =>
        if s.streams.ctx.any (fun q => q.2.modelSlot == slot && q.2.core == core) then
          s.issueFlushes core ((s.core core).flushes ++ p.flush.map (fun d => (ct.part, d)))
        else s

/-- A command that ran a package's flush program is a flush, or a partial one where firmware issued it (R425, log entry 130). -/
def State.countFlush (s : State) (part : Nat) (c : Cmd) : State :=
  let progs := s.svc.models.filterMap (fun q => if q.2.part == part then q.2.pkg.bind (·.flushProg) else none)
  if c.op = 0x30 ∧ c.code = 0 ∧ progs.contains (VProg.parse (kgetD c.progs 0 [])).progId then s.kvCount part (b2n (c.cls == 2))
  else s

/-- The completion of a command. -/
def State.complete (s : State) (core : Nat) (ct : Ctx) (c : Cmd) : State :=
  let t := c.ringWrote.foldl (fun t q => t.fillSlot core q.1 q.2) s
  let t := c.ringRead.foldl (fun t q => t.drainSlot core q.1 q.2) t
  let t := t.foldMaxAbs ct c
  let t := (t.countNumeric core ct.part c).countFlush ct.part c
  let out := s.recordOf core c c.code
  let t := t.modCore core (fun k => { k with cmds := k.cmds.filter (fun m => !(m.ctx == c.ctx && m.seq == c.seq)) })
  let t := t.modCtx c.ctx (·.atCompletion c)
  let t := (t.writeRecord c.ctx out).charge ct c.cls out.cycles
  let t := match (c.round.bind (fun r => (t.core core).rounds.find? (fun q => q.seq == r && q.ctx == c.ctx))) with
    | none => t
    | some r => r.steps.foldl (fun (t : State) (q : ReadyStep) =>
        if q.step.job then t.modJob q.step.id (·.charged c.code out.cycles) else t) t
  let t := if c.code = recFENCED then t.markFenced core c.ctx else t
  (t.semsetSignal c.ctx (dSemset (c.desc 0))).progress core 116

/-- COMMAND_COMPLETE: the oldest command of a context that has ended: ring bits, numeric events, scale histories, the
completion record, the charge and the signal (R127, R156, R200, R233, R356, R444, R450, R451, R484, R486, R490). -/
def execCommandComplete (ctx : Nat) (s : State) : Host.Outcome State Fault Refusal :=
  .next (match s.ctx? ctx with
  | none => s
  | some ct =>
    let k := s.core ct.core
    if s.recovering ct.core then s
    else
      match k.cmds.find? (fun c => c.ctx == ctx && k.cmdDone c) with
      | none => s
      | some c =>
        let t := s.complete ct.core ct c
        State.after s (t.issueFlushes ct.core (t.core ct.core).flushes) ct.core)

/-! ### Rounds (R440 to R442, R447) -/

/-- MODEL_ID of a model slot. -/
def State.modelIdOf (s : State) (slot : Nat) : Nat := match s.model? slot with | none => 0 | some m => m.modelId

/-- The step whose queue the next round is taken from (R440). -/
def State.headStep (s : State) (core : Nat) : Option ReadyStep :=
  let k := s.core core
  let lex (x y : Nat) (r : Bool) : Bool := decide (x < y) || (x == y && r)
  match bestBy (fun a b => lex a.deadline b.deadline (decide (a.step.id < b.step.id))) (s.qualifying core false) with
  | some r => some r
  | none =>
    let sameQueue (a b : ReadyStep) : Bool := a.slot == b.slot && a.stage == b.stage && a.fallback == b.fallback
    let l := s.qualifying core true
    let heads := l.filter (fun r => (l.find? (sameQueue r)) == some r)
    let pair (r : ReadyStep) : Frac × Nat := (k.vt r.tenant, r.tenant)
    bestBy (fun a b =>
      let (va, ta) := pair a
      let (vb, tb) := pair b
      Frac.lt va vb || (!Frac.lt vb va && lex ta tb (lex a.since b.since (lex (s.modelIdOf a.slot) (s.modelIdOf b.slot)
        (lex a.stage b.stage (lex (b2n a.fallback) (b2n b.fallback) false)))))) heads

/-- The steps of a round taken from the queue of a step (R440; a job's step makes a round of its own, R455). -/
def State.fillRound (s : State) (core : Nat) (h : ReadyStep) : List ReadyStep :=
  if h.step.job then [h]
  else
    let l := (s.core core).ready.filter (fun r => r.be == h.be && r.slot == h.slot && r.stage == h.stage
      && r.fallback == h.fallback && !r.step.job)
    let l := if h.be then l
      else sortBy (fun a b => decide (a.deadline < b.deadline) || (a.deadline == b.deadline && decide (a.step.id < b.step.id))) l
    let max_ := (((s.stagesOf h.slot)[h.stage]?).map (·.maxRound)).getD 256
    l.take (Nat.max 1 max_)

/-- OPT_OFF of a step's chunk (R442). -/
def State.optOff (s : State) (r : ReadyStep) : Bool :=
  if r.step.job then false
  else match (s.stream? r.step.id).bind (·.chunk? r.step.chunk) with
    | none => false
    | some c => c.optOff

/-- Bytes of a round record (R442). -/
def State.roundRecord (s : State) (r : Round) : List Byte :=
  toLe 4 r.seq ++ toLe 1 r.stage ++ toLe 1 (b2n r.fallback + 2 * b2n r.be) ++ toLe 2 r.steps.length
    ++ toLe 8 r.deadline ++ toLe 8 r.formedNs ++ List.replicate 40 0
    ++ (r.steps.map (fun q => toLe 8 (q.step.id % 2 ^ 14 + 2 ^ 14 * b2n (s.optOff q) + 2 ^ 16 * (q.step.chunk % 65536)))).flatten

/-- The unit may form a round of a class on a core (R441). -/
def State.mayForm (s : State) (core : Nat) (be : Bool) : Bool :=
  let k := s.core core
  decide (k.countedRounds.length < 2)
    && (!be || !k.rounds.any (fun r => r.be && k.inFlight r) || !(s.lcOpen.any (fun p => p.2.core == core)))

/-- The round made of a head step and its queue; a chunk whose first step enters it is served, and leaves its ring (R43). -/
def State.makeRound (s : State) (core : Nat) (h : ReadyStep) (ctxId : Nat) (ct : Ctx) : State :=
  let k := s.core core
  let steps := s.fillRound core h
  let clip := kgetD s.persist.clipThreshold ct.part 64
  let r : Round := { seq := k.roundSeq, ctx := ctxId, slot := h.slot, stage := h.stage, fallback := h.fallback, be := h.be
                     steps := steps
                     deadline := if h.be then 2 ^ 64 - 1 else (steps.map (·.deadline)).foldl Nat.min (2 ^ 64 - 1)
                     formedNs := s.now, clipThreshold := clip }
  let seen := if s.prepServes core ct.prep then k.poisonSeen else k.poisonSeen.filter (· != ct.prep)
  let t := s.modCore core (fun k => { k with
    poisonSeen := seen
    rounds := k.rounds ++ [r], roundSeq := (k.roundSeq + 1) % 2 ^ 32, schedStats := lbump k.schedStats 0 1
    ready := k.ready.filter (fun q => !steps.contains q) })
  let t := steps.foldl (fun t q =>
    if q.step.job then t
    else
      let t := t.modChunk q.step.id q.step.chunk (fun c => { c with phase := .inRound })
      if q.stage = 0 then t.modStream q.step.id (fun x => { x with ring := ndel x.ring q.step.chunk }) else t) t
  let t := t.modCtx ctxId (fun c => { c with roundDeadline := r.deadline })
  let t : State := { t with svc := { t.svc with clipEff := kset t.svc.clipEff (core * 8 + ct.part) clip } }
  t.hbmWrite ct.inboxBase (s.roundRecord r) false

/-- ROUND_FORM: the admission and deadline unit forms one round on a core (R60, R440 to R442, R458, R512). -/
def execRoundForm (core : Fin 8) (s : State) : Host.Outcome State Fault Refusal :=
  .next (if s.recovering core then s
  else
    let s1 := s.orderYield core
    match s1.headStep core with
    | none => s1
    | some h =>
      if !s1.mayForm core h.be then s1
      else
        match s1.freeCtxs core h with
        | [] => s1
        | i :: _ =>
          match s1.ctx? i with
          | none => s1
          | some ct => State.after s (s1.makeRound core h i ct) core)

/-- A round that has been ordered to yield and may now yield (R446). -/
def State.yieldable (s : State) (core : Nat) : Option (Round × Ctx) :=
  (s.core core).rounds.findSome? (fun r =>
    match s.ctx? r.ctx with
    | none => none
    | some ct => if r.be && r.yielding && !r.yielded && ct.holdCount == 0 then some (r, ct) else none)

/-- A round yields: its queue is discarded, SCH_BE_YIELD is written, its context's channels stop and its steps return to the
head of their queue. -/
def State.yieldRound (s : State) (core : Nat) (r : Round) (ct : Ctx) : State :=
  let t := s.writeRecord r.ctx { seq := ct.seqNext, code := schBE_YIELD }
  let t := t.modCore core (fun k => { k with
    cmds := k.cmds.filter (fun c => !(c.ctx == r.ctx && c.isWait))
    rounds := k.rounds.map (fun q => if q.seq == r.seq && q.ctx == r.ctx then { q with yielded := true } else q)
    schedStats := lbump k.schedStats 3 1 })
  let t := (t.dropWaits r.ctx).discardQueue r.ctx
  let t := (t.dropCredits (.context r.ctx)).modCtx r.ctx (fun c => { c with dropping := true, roundDeadline := 2 ^ 64 - 1 })
  let t := t.stopChannels core r.ctx
  if r.cancelled then t else t.returnSteps core r.steps

/-- ROUND_YIELD: a best-effort round that has been ordered to yield does (R352, R446, R447, R453, R457). -/
def execRoundYield (core : Fin 8) (s : State) : Host.Outcome State Fault Refusal :=
  .next (if s.recovering core then s
  else
    match s.yieldable core with
    | none => s
    | some (r, ct) => State.after s (s.yieldRound core r ct) core)

/-- ROUND_END_STORE: a prep core's store of ROUND_SEQ to the round-end port (R441, R447, R501, R513). -/
def execRoundEndStore (core : Fin 8) (prep : Fin 4) (value : Word64) (s : State) : Host.Outcome State Fault Refusal :=
  let v := value.toNat
  let id := bits v 47 32
  .next (match s.ctx? id, s.prepPart core prep with
  | some ct, some part =>
    if s.fenced core ∨ ct.core ≠ core ∨ ct.part ≠ part then s
    else
      let t := s.progress core (112 + prep)
      let t := t.modCore core (fun k => { k with rounds := k.rounds.map (fun r =>
        if r.ctx == id && r.seq == bits v 31 0 then { r with ended := true } else r) })
      State.after s t core
  | _, _ => s)

/-! ### The context store (R448, R449) -/

/-- A swapped-out context is runnable. -/
def State.runnable (s : State) (ctxId : Nat) (ct : Ctx) : Bool :=
  let k := s.core ct.core
  !ct.halted && (k.slotOf ctxId).isNone && !k.swaps.any (fun w => w.1 == ctxId)
    && !s.headWaits ctxId ct
    && (ct.depth != 0 || (match k.roundOf ctxId with | some r => !r.yielded | none => false))

/-- A free slot of the context store. -/
def Core.freeSlot (k : Core) : Option Nat :=
  (List.range 16).find? (fun i => (kget? k.slots i).isNone && !k.swaps.any (fun w => w.2.1 == i))

/-- The slot that an incoming context is given: slot and whether a BLOCKED context is evicted (R448). -/
def State.victim (s : State) (ctxId : Nat) (ct : Ctx) : Option (Nat × Bool) :=
  let k := s.core ct.core
  let l := k.slots.filterMap (fun q => (s.ctx? q.2).map (fun c => (q.1, q.2, c, s.ctxState q.2 c)))
  let free := l.filter (fun q => !q.2.2.1.pin && q.2.2.1.holdCount == 0 && q.2.1 != ctxId)
  match k.freeSlot with
  | some i => some (i, false)
  | none =>
    match free.find? (fun q => q.2.2.2 == 4) with
    | some q => some (q.1, false)
    | none =>
      match bestBy (fun a b => decide (a.2.2.1.lastRun < b.2.2.1.lastRun)) (free.filter (fun q => q.2.2.2 == 0)) with
      | some q => some (q.1, false)
      | none =>
        match (if l.any (fun q => q.2.2.2 == 1 || q.2.2.2 == 2) then none
            else bestBy (fun a b => decide (a.2.2.1.waitSince < b.2.2.1.waitSince)) (free.filter (fun q => q.2.2.2 == 3))) with
        | some q => some (q.1, true)
        | none =>
          if ct.cls = 1 then none
          else (bestBy (fun a b => Frac.lt (k.vt b.2.2.1.tenant) (k.vt a.2.2.1.tenant))
            (free.filter (fun q => q.2.2.1.cls == 1 && !k.cmds.any (fun c => c.ctx == q.2.1 && !c.isWait)))).map
              (fun q => (q.1, q.2.2.2 == 3))

/-- CONTEXT_SWAP_START: a runnable context that is swapped out takes a slot in the order of R448; a context that leaves the store
for it is followed by its partial flushes (R406, R448, R704). -/
def execContextSwapStart (ctx : Nat) (s : State) : Host.Outcome State Fault Refusal :=
  .next (match s.ctx? ctx with
  | none => s
  | some ct =>
    if s.recovering ct.core || !s.runnable ctx ct then s
    else
      match s.victim ctx ct with
      | none => s
      | some (i, blocked) =>
        let t := s.modCore ct.core (fun k => { k with
          slots := kdel k.slots i, swaps := k.swaps ++ [(ctx, i, s.now)]
          schedStats := lbump k.schedStats 2 (b2n blocked) })
        match kget? (s.core ct.core).slots i with
        | none => t
        | some out => State.after s (t.swapOutFlush ct.core out) ct.core)

/-- CONTEXT_SWAP_DONE: the incoming image is loaded (R449, R453). -/
def execContextSwapDone (ctx : Nat) (s : State) : Host.Outcome State Fault Refusal :=
  .next (match s.ctx? ctx with
  | none => s
  | some ct =>
    match (s.core ct.core).swaps.find? (fun w => w.1 == ctx) with
    | none => s
    | some (_, i, _) =>
      let t := s.modCore ct.core (fun k => { k with
        slots := kset k.slots i ctx, swaps := k.swaps.filter (fun w => w.1 != ctx), schedStats := lbump k.schedStats 1 1 })
      State.after s t ct.core)

/-- A new image of a context: the fields that firmware writes; every other field as after creation (R436, R708). -/
def ctxImage (i : CtxInit) (core part : Nat) (slot : Option Nat) : Ctx :=
  { core := core, part := part, cls := i.cls, pin := i.pin, prep := i.prep, tenant := i.tenant, queueBase := i.queueBase
    queueLog2 := i.queueLog2, cringLog2 := i.cringLog2, cringBase := i.cringBase, semsetBase := i.semsetBase
    semsetCount := i.semsetCount, inboxBase := i.inboxBase, stage := i.stage, fallback := i.fallback, slot := slot }

/-- What a context has under way ends: its commands, waits, credits, walks and channels (R352, R708). -/
def State.quietCtx (s : State) (ctxId core : Nat) : State :=
  let t := s.purgeItems (fun w => w.ctx == ctxId)
  let t := t.modCore core (fun k => { k with cmds := k.cmds.filter (fun c => c.ctx != ctxId) })
  (((t.dropWaits ctxId).dropCredits (.context ctxId)).stopChannels core ctxId)

/-- CONTEXT_RECREATE: firmware recreates an execution context: HEAD, TAIL, CRING_WR, CRING_RD and SEQ_NEXT are zero, what
was appended is discarded unread, and its channels stop (R352, R436, R708). -/
def execContextRecreate (init : CtxInit) (s : State) : Host.Outcome State Fault Refusal :=
  .next (match s.ctx? init.ctxId with
  | none => s
  | some ct =>
    if !s.fw then s
    else
      let t := s.quietCtx init.ctxId ct.core
      let deadline := ct.roundDeadline
      let t := t.modCtx init.ctxId (fun _ => { ctxImage init ct.core ct.part ct.slot with roundDeadline := deadline })
      State.after s t ct.core)

/-- PREP_FENCE: the RISC-V FENCE of a prep core stalls it until every earlier store of it is performed. Each of its stores
is performed by the command that makes it, so nothing is left to wait for (R488, log entry 32). -/
def execPrepFence (_core : Fin 8) (_prep : Fin 4) (s : State) : Host.Outcome State Fault Refusal := .next s

end Sys2Proof.Machine
end

