-- ==== Sys2Proof/Machine/Admit.lean ====
section
/-! DEFINITION. Admission arithmetic (R61 to R67, R193, R420, R452, R627, R705, R713): cost tables of streams, the demand of a
core, the fourteen tests of R62 and over-commitment. Every division rounds towards the refusing side (R65). -/

namespace Sys2Proof.Machine

/-! ### Constants -/

/-- Ingress and egress allowance in ns (R57, R58). -/
def aIn : Nat := 20000
def aOut : Nat := 25000
/-- The blocking term B (R61). -/
def blockNs : Nat := 22000
/-- A chunk period code in ns (R37). -/
def periodNs (code : Nat) : Nat := 5000000 * 2 ^ code
/-- Engine-cycles per second of one engine. -/
def engineRate : Nat := 1500000000

/-- Kilohertz of a RATE code (R37). -/
def rateKhz (r : Nat) : Nat := [8, 16, 24, 48].getD r 8

/-- Samples, or timestamp units, of a chunk. -/
def chunkUnits (period rate : Nat) : Nat := 5 * 2 ^ period * rateKhz rate

/-- The fault term F (R61). -/
def State.faultTerm (s : State) : Nat := s.persist.windowNs + 35000

/-! ### Cost tables of packages and streams -/

/-- A package's cost table of a variant at a period. -/
def pkgTable (p : Package) (period : Nat) (fallback : Bool) : Option CostTable :=
  p.tables.find? (fun t => t.period == period && t.fallback == fallback)

/-- The package that a model slot holds. -/
def State.pkg? (s : State) (slot : Nat) : Option Package := (s.model? slot).bind (·.pkg)

/-- The cost table that a stream was admitted on (R64). -/
def State.tableOf (s : State) (x : StreamCtx) : Option CostTable :=
  (s.pkg? x.modelSlot).bind (fun p => pkgTable p x.period x.variantFb)

/-- E[c] of a table for the home core: its first role (log entry 33). -/
def costE (t : CostTable) : Nat := t.e.headD 0

/-- Largest Q of a list of tables. -/
def qMaxOf (l : List CostTable) : Nat := (l.map (fun t => t.q.foldl Nat.max 0)).foldl Nat.max 0

/-- Largest Q of both variants of a package at a period. -/
def pkgQMax (p : Package) (period : Nat) : Nat := qMaxOf (p.tables.filter (fun t => t.period == period))

/-- Latency-critical streams placed on a core, open or closing. -/
def State.lcOn (s : State) (core : Nat) : List StreamCtx := (s.lcOpen.map Prod.snd).filter (fun x => x.core == core)

/-- Ingress bytes of a chunk (R713); `none` where the package's frame shape is needed and absent. -/
def ingressBytes (p : Package) (payload period rate : Nat) : Nat :=
  let n := chunkUnits period rate
  if payload = 0 then 2 * n
  else if payload = 1 ∨ payload = 2 then n
  else cdiv n (Nat.max 1 p.frameStep) * cdiv (p.dim * fmtBits p.fmt) 8

/-- Bytes of an ingress ring (R713). -/
def ringBytes (p : Package) (payload period rate : Nat) : Nat := 4 * (cdiv (ingressBytes p payload period rate) 4096 * 4096)

/-- A rate in units per second of an amount per period, rounded up. -/
def perSecond (amount period : Nat) : Nat := cdiv (amount * 1000000000) (periodNs period)

/-! ### The demand of a core (R62, test 9) -/

/-- What one stream asks of its core: engine-cycles, period, service window and L*. -/
structure Load where
  e : Nat
  t : Nat
  w : Nat
  ls : Nat
  deriving DecidableEq, Repr

/-- The load of a stream with a promise, reserve and late limit. -/
def loadOf (e period promise reserve late : Nat) : Load :=
  let t := periodNs period
  { e := e, t := t, w := promise - reserve - aIn - aOut, ls := late + t / 16 }

def State.loadOfStream (s : State) (x : StreamCtx) : Option Load :=
  (s.tableOf x).map (fun t => loadOf (costE t) x.period x.promise x.reserve x.lateLimit)

/-- The demand bound function. -/
def Load.dbf (l : Load) (t : Nat) : Nat := if t < l.w then 0 else l.e * ((t - l.w + l.ls) / l.t + 1)

/-- Largest number of a list. -/
def maxNat (l : List Nat) : Nat := l.foldl Nat.max 0

/-- The points of an interval's length at which one stream's demand rises, up to the horizon. -/
def Load.points (l : Load) (h : Nat) : List Nat :=
  l.w :: ((List.range ((h + l.ls - l.w) / l.t + 1)).map (fun k => l.w + k * l.t - l.ls)).filter (fun t => decide (l.w < t) && decide (t ≤ h))

/-- The utilisation and demand tests with headroom `h` in 1,024ths. -/
def coreFits (cap h : Nat) (l : List Load) : Bool :=
  let usable := cap * (1024 - h) / 1024
  let first := maxNat (l.map (fun x => x.w + x.ls)) + 160000000
  let horizon :=
    if h = 0 ∨ cap = 0 then first
    else Nat.max first (blockNs + cdiv (sumNat (l.map (fun x => x.e + cdiv (x.e * x.ls) x.t)) * 1024 * 1000000000) (h * cap))
  decide (sumNat (l.map (fun x => cdiv (x.e * 1000000000) x.t)) ≤ usable)
    && ((l.map (fun x => x.points horizon)).flatten.filter (fun t => decide (t ≤ horizon))).all (fun t =>
      decide (sumNat (l.map (fun x => x.dbf t)) ≤ usable * (t - blockNs) / 1000000000))

/-- Capacity of a core in engine-cycles per second (R66). -/
def State.capacity (s : State) (core : Nat) : Nat := (s.liveEngines core).length * engineRate

/-- DEMAND of a core (R45). -/
def State.demand (s : State) (core : Nat) : Nat :=
  sumNat ((s.lcOn core).map (fun x => match s.tableOf x with
    | none => 0
    | some t => perSecond (costE t) x.period))

/-- A core's admitted demand fails the tests with a headroom. -/
def State.overloaded (s : State) (core h : Nat) : Bool :=
  !coreFits (s.capacity core) h ((s.lcOn core).filterMap s.loadOfStream)

/-- The core is over-committed (R67). -/
def State.overcommitted (s : State) (core : Nat) : Bool := s.overloaded core s.persist.headroom

/-- OVERCOMMIT of core_load (R67, R193). -/
def State.overcommitBit (s : State) (core : Nat) : Bool :=
  s.overcommitted core || decide ((s.liveEngines core).length < 12)

/-- The event of a core that becomes over-committed, once for each time that it does; a core that fails the tests even with h = 0
brings CAUSE 0x2 to the chunks of its streams (R67, R83). -/
def State.checkOvercommit (s : State) (core : Nat) : State :=
  let o := s.overcommitBit core
  let was := (s.core core).overcommit
  let t := s.modCore core (fun k => { k with overcommit := o })
  let t := if s.overloaded core 0 then t.markCause 2 (fun _ x => x.core == core) else t
  if o && !was then t.logEvent 0x2005 0 0x12 0 [(8, core)] else t

/-! ### Quota (R62, test 14; R456) -/

/-- A stream's HBM bytes under test 14. -/
def streamBytes (p : Package) (t : CostTable) (payload period rate maxContext : Nat) (spillOk : Bool) : Nat :=
  let kv := t.k * maxContext
  let kv := match spillOk, p.spill with
    | true, some (sh, _) => cdiv (kv * (16 - sh)) 16
    | _, _ => kv
  2 * t.s + ringBytes p payload period rate + kv

/-- Die of a model slot. -/
def State.dieOfSlot (s : State) (slot : Nat) : Nat := match s.model? slot with | none => 0 | some m => m.die

/-- Bytes of a partition's quota on a die that models, streams and jobs use. -/
def State.quotaUsed (s : State) (part die : Nat) : Nat :=
  sumNat ((s.svc.models.map Prod.snd).map (fun m => if m.part = part ∧ m.die = die then m.bytes else 0))
    + sumNat ((s.streams.ctx.map Prod.snd).map (fun x =>
        if x.part = part ∧ s.dieOfSlot x.modelSlot = die then
          match s.pkg? x.modelSlot, s.tableOf x with
          | some p, some t => streamBytes p t x.payload x.period x.rate x.maxContext x.spillOk
          | _, _ => 0
        else 0))
    + sumNat ((s.svc.jobs.map Prod.snd).map (fun j =>
        if j.part = part ∧ j.grant ∧ dieOf ((coresOf j.cores).headD 0) = die then j.memBytes else 0))

/-- Bytes of a partition's quota on a die. -/
def State.quotaOf (s : State) (part die : Nat) : Nat :=
  match kget? s.persist.parts part with
  | none => 0
  | some r => r.quota.getD die 0 * extentBytes

/-- The quota holds so many more bytes. -/
def State.quotaHolds (s : State) (part die bytes : Nat) : Bool :=
  decide (s.quotaUsed part die + bytes ≤ s.quotaOf part die)

/-! ### An open (R62) -/

/-- What an open record asks (R37). -/
structure OpenReq where
  tenant : Nat
  part : Nat
  be : Bool
  period : Nat
  fallbackAdmit : Bool
  modelId : Nat
  port : Nat
  payload : Nat
  rate : Nat
  promise : Nat
  reserve : Nat
  late : Nat
  maxContext : Nat
  deriving DecidableEq, Repr

/-- Where an open is placed. -/
structure Placement where
  core : Nat
  fallback : Bool
  slack : Nat
  slot : Nat
  spillOk : Bool
  deriving DecidableEq, Repr

/-- The resident slot that an open is bound to: of the slots that hold the model, that of the higher version (R705). -/
def State.slotFor (s : State) (part modelId : Nat) : Option (Nat × Package) :=
  let l := s.svc.models.filterMap (fun q =>
    if q.2.part = part ∧ q.2.modelId = modelId ∧ q.2.state = 2 then q.2.pkg.map (fun p => (q.1, p)) else none)
  bestBy (fun a b => decide (b.2.version < a.2.version)) l

/-- Latency-critical tables with their streams, over the module. -/
def State.lcTables (s : State) : List (StreamCtx × CostTable) :=
  (s.lcOpen.map Prod.snd).filterMap (fun x => (s.tableOf x).map (fun t => (x, t)))

/-- LB of one class of a link, with the overhead of its messages (R627). -/
def linkRate (bytes period : Nat) : Nat := perSecond (bytes + 32 * cdiv bytes 4096) period

/-- Test 13 (R627). -/
def State.linksFit (s : State) (p : Package) (t : CostTable) : Bool :=
  p.links.all (fun l =>
    let k := s.link l
    let cap := ((kgetD s.persist.linkConfig l {}).reserveFraction.toNat * 100000000000) / 1024
    let others := s.lcTables.filter (fun q => match s.pkg? q.1.modelSlot with
      | none => false
      | some q => q.links.contains l)
    let fits (f : CostTable → Nat) : Bool :=
      decide (sumNat (others.map (fun q => linkRate (f q.2) q.1.period)) + linkRate (f t) t.period ≤ cap)
    k.up && k.epoch.isSome && !k.peerAbsent && fits (·.lb1) && fits (·.lb2))

/-- Two largest O over the models that have contexts on a core, each stage counted twice (test 8). -/
def State.boreSum (s : State) (core : Nat) : Nat :=
  let slots := (s.ctxs.filterMap (fun q => if q.2.core = core then q.2.slot else none)).foldl nins []
  2 * maxNat ((slots.filterMap s.pkg?).map (fun p => maxNat (p.tables.map (fun t => maxNat t.o))))

/-- Codes of tests 10 to 14 for a stream of a table on a die; `none` where all pass. -/
def State.resourceTests (s : State) (q : OpenReq) (p : Package) (t : CostTable) (die : Nat) (spillOk : Bool) : Option Word16 :=
  let all := s.lcTables
  let onDie := all.filter (fun x => dieOf x.1.core == die)
  let sumRate (l : List (StreamCtx × CostTable)) (f : CostTable → Nat) : Nat :=
    sumNat (l.map (fun x => perSecond (f x.2) x.1.period)) + perSecond (f t) q.period
  let onPort := all.filter (fun x => x.1.port == q.port)
  let pf := s.persist.portFraction * 50000000000 / 1024
  let ingress := sumNat (onPort.map (fun x => match s.pkg? x.1.modelSlot with
      | none => 0
      | some p => perSecond (ingressBytes p x.1.payload x.1.period x.1.rate) x.1.period))
    + perSecond (ingressBytes p q.payload q.period q.rate) q.period
  let bf := s.persist.bridgeFraction
  firstBad [
    (decide (s.persist.hbmFraction * 4915200000000 / 1024 < sumRate onDie (·.m)), 0x300A),
    (decide (bf * 2000000000000 / 1024 < sumRate all (·.xb))
      || decide (bf * 500000000000 / 1024 < sumRate onDie (fun t => t.hb + t.lb1 + t.lb2)), 0x300B),
    (decide (pf < sumRate onPort (·.y)) || decide (pf < ingress), 0x300C),
    (!s.linksFit p t, 0x300D),
    (!s.quotaHolds q.part die (streamBytes p t q.payload q.period q.rate q.maxContext spillOk), 0x300E)]

/-- The part of test 9 that R452 adds: the tenant's share of the core, the candidate included. -/
def State.tenantFits (s : State) (q : OpenReq) (t : CostTable) (core : Nat) : Bool :=
  match s.persist.tenants.find? (fun r => r.2.tenant == q.tenant) with
  | none => true
  | some r =>
    let own := (s.lcOn core).filter (fun x => x.tenant == q.tenant)
    let used := sumNat (own.map (fun x => match s.tableOf x with
      | none => 0
      | some t => perSecond (costE t) x.period))
    r.2.lcLimit == 0 || decide ((used + perSecond (costE t) q.period) * 1024 ≤ r.2.lcLimit * s.capacity core)

/-- Tests 6 to 9 for a candidate core. -/
def State.coreTests (s : State) (q : OpenReq) (p : Package) (t : CostTable) (core : Nat) : Option Word16 :=
  let w := q.promise - q.reserve - aIn - aOut
  let lc := s.lcOn core
  let qmax := maxNat (pkgQMax p q.period :: lc.map (fun x => match s.pkg? x.modelSlot with
    | none => 0
    | some p => pkgQMax p x.period))
  let reserve := (lc.map (·.reserve)).foldl Nat.min q.reserve
  firstBad [
    (decide (w < t.p + blockNs), 0x3006),
    (decide (reserve < s.faultTerm + blockNs + 2 * qmax), 0x3007),
    (decide (0x400000 < s.boreSum core), 0x3008),
    (decide ((s.liveEngines core).length < 12) || !s.tenantFits q t core
      || !coreFits (s.capacity core) s.persist.headroom
          (loadOf (costE t) q.period q.promise q.reserve q.late :: lc.filterMap s.loadOfStream), 0x3009)]

/-- Candidate cores of a partition on a die, in order of increasing admitted utilisation, then number. The model takes the
utilisation as the admitted demand, not as a share of the core's present capacity: the spec does not say which (R62, log entry 133). -/
def State.candidateCores (s : State) (part die : Nat) : List Nat :=
  match kget? s.persist.parts part with
  | none => []
  | some r =>
    sortBy (fun a b => decide (s.demand a < s.demand b))
      ((coresOf r.cores).filter (fun c => dieOf c == die))

/-- SLACK_NS of an open. For a best-effort stream whose window is shorter than the path and the blocking term the spec gives no
value: the model gives 0 (R39, log entry 133). -/
def slackOf (q : OpenReq) (t : CostTable) : Nat :=
  Nat.min 0xFFFFFFFF (q.promise - q.reserve - aIn - aOut - t.p - blockNs)

/-- Scale links that a stream uses: those of its package, and, where the package's pages may be spilled, those on which its
partition reaches its peers (R83, R418, R420, R627). -/
def State.streamLinks (s : State) (x : StreamCtx) : List Nat :=
  match s.pkg? x.modelSlot with
  | none => []
  | some p =>
    p.links ++ (if p.spill.isSome ∧ kgetD s.persist.kvSpill x.part 0 ≠ 0 then
      (List.range 16).filterMap (fun i =>
        let e := kgetD s.persist.kvPeer (x.part * 16 + i) 0
        if bit e 3 then some (bits e 2 0) else none)
    else [])

/-- SPILL_OK of an open (R420). -/
def State.spillAllowed (s : State) (part : Nat) (p : Package) : Bool :=
  match p.spill with
  | none => false
  | some (_, b) => kgetD s.persist.kvSpill part 0 == 1 && decide (kgetD s.persist.kvWalkBound part 15000 ≤ b)

/-- A placement on a core, or the code of the first of tests 6 to 14 that refuses it there. -/
def State.tryCore (s : State) (q : OpenReq) (slot : Nat) (p : Package) (fb : Bool) (t : CostTable) (c : Nat) : Word16 ⊕ Placement :=
  let spillOk := s.spillAllowed q.part p
  match s.coreTests q p t c with
  | some code => .inl code
  | none =>
    match s.resourceTests q p t (s.dieOfSlot slot) spillOk with
    | some code => .inl code
    | none => .inr { core := c, fallback := fb, slack := slackOf q t, slot := slot, spillOk := spillOk }

/-- What the open of a latency-critical stream finds, in order: for each variant its cores, or the want of a table. -/
def State.openTries (s : State) (q : OpenReq) (slot : Nat) (p : Package) : List (Option Nat × (Word16 ⊕ Placement)) :=
  let cores := s.candidateCores q.part (s.dieOfSlot slot)
  let try_ (fb : Bool) : List (Option Nat × (Word16 ⊕ Placement)) :=
    match pkgTable p q.period fb with
    | none => [(none, .inl 0x300F)]
    | some t => cores.map (fun c => (some c, s.tryCore q slot p fb t c))
  try_ false ++ (if q.fallbackAdmit then try_ true else [])

/-- The decision of an open: a placement, or the code of its refusal. -/
def State.admission (s : State) (q : OpenReq) : Word16 ⊕ Placement :=
  let sp := s.slotFor q.part q.modelId
  let early := firstBad [
    (decide (q.promise < 3000000) || decide (2000000000 < q.promise), 0x3001),
    (decide (q.reserve < 200000) || decide (5000000 < q.reserve) || decide (160000000 < q.late), 0x3002),
    ((match sp with | none => false | some (_, p) => (pkgTable p q.period false).isNone), 0x3003),
    (sp.isNone, 0x3004),
    (decide (16384 ≤ s.streams.ctx.length), 0x3005)]
  match early, sp with
  | some c, _ => .inl c
  | none, none => .inl 0x3004
  | none, some (slot, p) =>
    let die := s.dieOfSlot slot
    let spillOk := s.spillAllowed q.part p
    if q.be then
      match pkgTable p q.period false with
      | none => .inl 0x3003
      | some t =>
        if !s.quotaHolds q.part die (streamBytes p t q.payload q.period q.rate q.maxContext spillOk) then .inl 0x300E
        else
          match (s.candidateCores q.part die).find? (fun c => !s.overcommitted c) with
          | none => .inl 0x3009
          | some c => .inr { core := c, fallback := false, slack := slackOf q t, slot := slot, spillOk := spillOk }
    else
      let all := (s.openTries q slot p).map Prod.snd
      match all.findSome? (fun r => match r with | .inr x => some x | .inl _ => none) with
      | some x => .inr x
      | none =>
        .inl (all.foldl (fun (m : Word16) r => match r with | .inl c => if m < c then c else m | .inr _ => m) 0x3006)

/-- The core that a refusal by tests 6 to 14 names: of those that the code is noted for, the lowest-numbered; none where no core
gives the code (R62). -/
def State.refusedAt (s : State) (q : OpenReq) (code : Word16) : Option Nat :=
  match s.slotFor q.part q.modelId with
  | none => none
  | some (slot, p) =>
    if code < 0x3006 then none
    else if q.be then (s.candidateCores q.part (s.dieOfSlot slot)).min?
    else ((s.openTries q slot p).filterMap (fun r => match r with
      | (some c, .inl n) => if n = code then some c else none
      | _ => none)).min?

end Sys2Proof.Machine
end

