-- ==== Sys2Proof/Machine/Operands.lean ====
section
/-! DEFINITION. Operand forms of a matrix engine (R134, R144, R159, R181, R199, R208, R289 to R300, R386, R710): the
elements of a row of A and of a column of B as the array receives them, the check vectors, and the exact products. -/

namespace Sys2Proof.Machine

/-- An element as the array receives it: decoded value, its scales, and whether its code is the invalid TERN2 code. -/
structure Elem where
  val : FVal
  scale : FVal
  bad : Bool
  deriving DecidableEq, Repr

/-- An absent scale (R134). -/
def fOne : FVal := .fin false Frac.one
def fZero : FVal := .fin false Frac.zero

/-- An integer element. -/
def Elem.int (e : Elem) : Int := e.val.frac.num

/-- The element with its scales: a'_rk of R212, B' of R208. -/
def Elem.scaled (e : Elem) : FVal := FVal.mul e.val e.scale

/-- Mapping of a handle as copied at a command's validation (R342). -/
def Cmd.map (c : Cmd) (st h : Nat) : HandleEntry := kgetD c.maps (st * 256 + h) {}

/-! ### Codebooks (R159, R297) -/

def cbEntryFmt (record : List Byte) : Nat := bits (leAt record 0 1) 3 0
def cbBig (record : List Byte) : Bool := bit (leAt record 0 1) 4
def cbId (record : List Byte) : Nat := leAt record 2 2
def cbRsvd (record : List Byte) : Bool := bits (leAt record 0 2) 15 5 != 0 || leAt record 4 4 != 0

/-- Bytes of a codebook record that a B format names (R159, R297). -/
def cbBytes (fmt : Nat) (big : Bool) : Nat :=
  if fmt = 9 then 24 else if fmt = 0xA then 264 else if big then 1032 else 72

/-- The header does not suit the operand's format (R160, R297). -/
def cbBad (fmt : Nat) (record : List Byte) : Bool :=
  let e := cbEntryFmt record
  cbRsvd record
    || (if fmt = 0xF then !(e == 4 || e == 5)
        else !(e == 0 || e == 4 || e == 5) || cbBig record != (fmt == 0xA))

/-! ### Rows and columns -/

/-- Elements of a row or column stored in a plain or block-scaled format (R90, R142), with micro-scales (R143). -/
def plainElems (fmt : Nat) (blocks : Bool) (book : Option (Nat × List Byte)) (bytes : List Byte) (micro : Option (List Byte))
    (n : Nat) : List Elem :=
  let b := fmtBits fmt
  let stride := 4 + 16 * b
  (List.range n).map (fun k =>
    let code := if blocks then packedAt (bytes.drop (k / 128 * stride + 4)) b (k % 128) else packedAt bytes b k
    let s := if blocks then bf16.decode (leAt bytes (k / 128 * stride) 2) else fOne
    let m := match micro with
      | none => fOne
      | some l => e8m0 (l.getD (k / 32) 0).toNat
    let v := decodeElem fmt book code
    { val := v.1, scale := FVal.mul s m, bad := v.2 })

/-- Element `e` of an EXW11 block (R293 to R296). -/
def exwElem (blk ext : List Byte) (e : Nat) : FVal :=
  let base := leAt blk 0 1
  if base = 0xFF then
    bf16.decode (if e < 22 then leAt blk (1 + 2 * e) 2 else leAt ext (2 * (e - 22)) 2)
  else
    let x := bits (leAt blk 0 45) (11 * e + 18) (11 * e + 8)
    let off := bits x 9 7
    if off = 0 then .fin (bit x 10) Frac.zero
    else bf16.decode (b2n (bit x 10) * 2 ^ 15 + Nat.min (base + off) 0xFF * 128 + bits x 6 0)

/-- Element `e` of a VQ block (R298 to R300). -/
def vqElem (record blk ext : List Byte) (e : Nat) : FVal :=
  let f := if cbEntryFmt record = 5 then e5m2 else e4m3
  let big := cbBig record
  if bit (leAt blk 0 1) 0 then
    let lead := if big then 8 else 4
    f.decode (if e < lead then leAt blk (1 + e) 1 else leAt ext (e - lead) 1)
  else
    let v := e / 4
    let code := if big then leAt blk (1 + v) 1 else packedAt (blk.drop 1) 4 v
    f.decode (leAt record (8 + 4 * code + e % 4) 1)

/-- A block of a column in a Bell format is raw. -/
def blockRaw (fmt : Nat) (blk : List Byte) : Bool :=
  if fmt = 0xE then leAt blk 0 1 == 0xFF else bit (leAt blk 0 1) 0

/-- Elements of a column of a Bell format: `ext` gives the extension of a block. -/
def bellElems (fmt : Nat) (record bytes : List Byte) (ext : Nat → List Byte) (n : Nat) : List Elem :=
  let c := (bellSize fmt (cbBig record)).1
  (List.range n).map (fun k =>
    let blk := (bytes.drop (k / 32 * c)).take c
    let v := if fmt = 0xE then exwElem blk (ext (k / 32)) (k % 32) else vqElem record blk (ext (k / 32)) (k % 32)
    { val := v, scale := fOne, bad := false })

/-! ### Places of an item's operands -/

/-- Member that a work item belongs to (R386). -/
def memberOf (d rt : Nat) : Nat := if dMembers d ≤ 1 then 0 else rt

/-- Start of the block of B that a work item reads (R201, R386). -/
def bBase (d rt : Nat) (float : Bool) : Nat :=
  if dOp d = 1 then dBOff d else dBOff d + memberOf d rt * memberBytes d float

/-- Extension of block `b` of column `j` of B (R291). -/
def extAddr (d : Nat) (h : HandleEntry) (big : Bool) (base j b : Nat) : Nat :=
  h.extBase + (base / Nat.max 1 (dBStr d * 64) + j) * h.extStride + b * (bellSize (dBFmt d) big).2

/-- Rows of a tile below M_ROWS. -/
def tileRows (d rt : Nat) : Nat := Nat.min 64 (dM d - 64 * rt)

/-- A read of HBM by a partition: zeros and poison where the range is not the partition's (R464). -/
def State.hbmFetch (s : State) (part a n : Nat) : List Byte × Bool :=
  if s.ownedBy part a n then (s.hbmRead a n, s.hbmPoisoned a n) else (List.replicate n 0, true)

/-- One row of A: its elements and whether a beat of it is poisoned. -/
def State.aRow (s : State) (c : Cmd) (core st r : Nat) : List Elem × Bool :=
  let d := c.desc st
  let p := aPlace c.ds st
  let h := c.map st p.1
  let o := p.2.1 + r * p.2.2 * 64
  let n := storedBytes (dAFmt d) (dK d) (dABs d)
  let ms := aMsPlace c.ds st
  let mh := c.map st ms.1
  let mo := ms.2 + r * msPitch (dK d)
  let mn := cdiv (dK d) 32
  let micro := if dAMs d then some (s.bufRead core mh mo mn) else none
  (plainElems (dAFmt d) (dABs d) none (s.bufRead core h o n) micro (dK d),
   s.bufPoisoned core h o n || (dAMs d && s.bufPoisoned core mh mo mn))

/-- Bytes of extension lines that have come to the Bell (R288, R304). -/
def extBytes (done : List (Nat × List Byte × Bool)) (a n : Nat) : List Byte :=
  (List.range n).map (fun i => match done.find? (fun q => q.1 == (a + i) / 64 * 64) with
    | none => 0
    | some q => q.2.1.getD ((a + i) % 64) 0)

/-- One column of B; `done` are the extension lines that the Bell has taken in. -/
def State.bCol (s : State) (c : Cmd) (core st rt j : Nat) (record : List Byte) (float : Bool)
    (done : List (Nat × List Byte × Bool)) : List Elem × Bool :=
  let d := c.desc st
  let h := c.map st (dBH d)
  let base := bBase d rt float
  let o := base + j * dBStr d * 64
  let n := colBytes d (cbBig record)
  let bytes := s.bufRead core h o n
  let bad := s.bufPoisoned core h o n
  if dBell d then
    let x := (bellSize (dBFmt d) (cbBig record)).2
    (bellElems (dBFmt d) record bytes (fun b => extBytes done (extAddr d h (cbBig record) base j b) x) (dK d), bad)
  else
    let book := if dCoded d then some (cbEntryFmt record, record.drop 8) else none
    let mh := c.map st (dBMsH d)
    let mo := base + dNPad d * dBStr d * 64 + j * msPitch (dK d)
    let mn := cdiv (dK d) 32
    let micro := if dOp d = 1 ∧ dBMs d then some (s.bufRead core mh mo mn) else none
    (plainElems (dBFmt d) (dBBs d) book bytes micro (dK d),
     bad || (dOp d == 1 && dBMs d && s.bufPoisoned core mh mo mn))

/-- Extension lines, by address, of the raw blocks of a tile's columns, segment by segment: of segment `b`, for each of the
32 columns the lines of its block where that is raw, and none otherwise (R291, R302, R304). -/
def State.extLines (s : State) (c : Cmd) (core st rt ct : Nat) (record : List Byte) : List (List (List Nat)) :=
  let d := c.desc st
  if !dBell d then []
  else
    let h := c.map st (dBH d)
    let base := bBase d rt true
    let big := cbBig record
    let sz := bellSize (dBFmt d) big
    let cols := (List.range 32).map (fun i => s.bufRead core h (base + (32 * ct + i) * dBStr d * 64) (colBytes d big))
    (List.range (cdiv (dK d) 32)).map (fun b => (List.zip (List.range 32) cols).map (fun q =>
      if blockRaw (dBFmt d) ((q.2.drop (b * sz.1)).take sz.1) then
        (linesOf (extAddr d h big base (32 * ct + q.1) b) sz.2).map (· * 64) else []))

/-! ### Check vectors (R208) -/

/-- Start of the check vector of a column tile. -/
def checkBase (d rt ct : Nat) (float : Bool) : Nat :=
  (if dOp d = 1 then dBOff d + checkOff d else bBase d rt float + dNPad d * dBStr d * 64) + ct * checkBytes d float

/-- Entry of a float check vector: WS_k, then WA_k, six bytes for each k (log entry 34). -/
def checkFloat (bytes : List Byte) (k : Nat) : FVal × FVal :=
  (fp32.decode (leAt bytes (6 * k) 4), bf16.decode (leAt bytes (6 * k + 4) 2))

/-- Entry of an integer check vector. -/
def checkInt (bytes : List Byte) (k : Nat) : Int := sext 16 (leAt bytes (2 * k) 2)

/-! ### Products and sums (R100 to R106, R144) -/

/-- A product of a float pair with its scales as an FP32 word: exact in FP32's normal range; a product without scales
below 2^-149 is zero of its sign (R101, R144). -/
def product (scaled : Bool) (a b : Elem) : Word32 :=
  let p := FVal.mul a.val b.val
  if scaled then toF32 (FVal.mul p (FVal.mul a.scale b.scale))
  else match p with
    | .fin n m => if Frac.lt m (Frac.pow2 (-149)) then BitVec.ofNat 32 (fp32.signed n 0) else toF32 p
    | _ => toF32 p

/-- Some operand of the stage carries scales. -/
def dScaled (d : Nat) : Bool := dABs d || dAMs d || dBBs d || (dOp d == 1 && dBMs d)

/-- A float dot product from a cleared accumulator, in an open order (R105, R183). -/
def dotFloat (draw : Nat) (ps : List Word32) : Word32 := f32Sum draw (0 :: ps)

/-- An integer dot product modulo 2^32 (R103). -/
def dotInt (a b : List Int) : Word32 := BitVec.ofInt 32 ((List.zipWith (· * ·) a b).foldl (· + ·) 0)

/-- Exact sum of FP32 words; `none` where one is NaN or infinite. -/
def exactSum (l : List Word32) : Option Frac :=
  if l.all (fun w => (f32 w).isFinite) then some (l.foldl (fun m w => Frac.add m (f32 w).frac) Frac.zero) else none

/-- Exact sum of magnitudes of finite FP32 words. -/
def exactAbs (l : List Word32) : Frac := l.foldl (fun m w => Frac.add m (Frac.abs (f32 w).frac)) Frac.zero

/-- What a comparison of the checksum column finds (R211 to R213). -/
inductive CheckRes where
  | pass | fail | skip
  deriving DecidableEq, Repr

/-- The comparison of a tile's rows: a row with a NaN or an infinity skips it, otherwise a failure of any row fails the
tile (R213). -/
def CheckRes.all (l : List CheckRes) : CheckRes :=
  if l.contains .skip then .skip else if l.contains .fail then .fail else .pass

/-- Two comparisons of one tile: a failure of either fails the tile (R215). -/
def CheckRes.both (a b : CheckRes) : CheckRes :=
  if a = .fail ∨ b = .fail then .fail else if a = .skip ∨ b = .skip then .skip else .pass

/-- The comparison of one float row: accumulators, C_r and M_r (R212, R213). -/
def checkRow (acc : List Word32) (c m : Word32) : CheckRes :=
  match exactSum acc, exactSum [c], exactSum [m] with
  | some sum, some c, some m =>
    if Frac.le (Frac.abs (Frac.sub sum c)) (Frac.mul m (Frac.pow2 (-10))) then .pass else .fail
  | _, _, _ => .skip

/-- The comparison of one addition of a segment (R214). -/
def checkAdd (old seg new_ : List Word32) : CheckRes :=
  match exactSum old, exactSum seg, exactSum new_ with
  | some a, some b, some n =>
    if Frac.le (Frac.abs (Frac.sub n (Frac.add a b))) (Frac.mul (Frac.add (exactAbs old) (exactAbs seg)) (Frac.pow2 (-10)))
    then .pass else .fail
  | _, _, _ => .skip

end Sys2Proof.Machine
end

