-- ==== Sys2Proof/Machine/Convert.lean ====
section
/-! DEFINITION. The fused output conversion (R145 to R151, R161, R162, R203, R394, R395): output control, clip bounds,
micro-exponents, statistics and where a tile's bytes go. -/

namespace Sys2Proof.Machine

/-- Output control of a conversion or of a pack (R145, R148, R204). -/
structure OutCtl where
  fmt : Nat
  round : Nat
  sat : Bool
  micro : Bool
  /-- z_out. -/
  zOut : Int
  lo : FVal
  hi : FVal
  /-- S_out, a BF16 word. -/
  sWord : Word16
  deriving DecidableEq, Repr

/-- A zero point of a format's width, signed for a signed format (R112, R136). -/
def zeroPoint (fmt z : Nat) : Int :=
  if !fmtInt fmt then 0 else if intSigned fmt then sext (fmtBits fmt) z else ((z % 2 ^ fmtBits fmt : Nat) : Int)

/-- Bounds of R146. -/
def defaultClip (fmt : Nat) (z : Int) : FVal × FVal :=
  match fmtFloat fmt with
  | some f => (.fin true f.maxMag, .fin false f.maxMag)
  | none =>
    match intRange fmt with
    | none => (.inf true, .inf false)
    | some (lo, hi) =>
      if intSigned fmt ∧ z = 0 then (FVal.ofFrac (Frac.ofInt (-hi)), FVal.ofFrac (Frac.ofInt hi))
      else (FVal.ofFrac (Frac.ofInt (lo - z)), FVal.ofFrac (Frac.ofInt (hi - z)))

/-- Clip bounds of a command. -/
def clipBounds (def_ : Bool) (lo hi fmt : Nat) (z : Int) : FVal × FVal :=
  if def_ then defaultClip fmt z else (fp32.decode lo, fp32.decode hi)

/-- Step 4: the value limited to the bounds; a NaN stays. -/
def clip (lo hi v : FVal) : FVal :=
  if v.isNan then v else if FVal.ltNum v lo then lo else if FVal.ltNum hi v then hi else v

/-- S_out as a value. -/
def OutCtl.sOut (o : OutCtl) : FVal := bf16.decode o.sWord.toNat

/-- Exact division by S_out. A latched INIT_SCALE may be negative, zero, infinite or NaN (R145, R153, R156): the quotient
then has its sign, is infinite or NaN, zero, or NaN. -/
def divScale (v s : FVal) : FVal :=
  match s with
  | .nan => .nan
  | .inf n => FVal.mul v (.fin n Frac.zero)
  | .fin n m => if Frac.isZero m then (if v.isZero then .nan else FVal.mul v (.inf n))
    else FVal.mul v (.fin n (Frac.div Frac.one m))

/-- E_top of a micro-scaled format (R149). -/
def microTop (fmt : Nat) : Int := if fmt = 4 then 8 else if fmt = 5 then 15 else 2

/-- Micro-exponent of a row segment from its unmasked elements (R149). -/
def microExp (fmt : Nat) (l : List FVal) : Nat :=
  let a := l.foldl (fun m v => match v with | .fin _ q => Frac.max m q | _ => m) Frac.zero
  if Frac.isZero a then 0x7F
  else
    let e := Frac.ilog2 a - microTop fmt + 127
    if e < 0 then 0 else if 0xFE < e then 0xFE else e.toNat

/-- One converted element. -/
structure OutElem where
  code : Nat
  ev : NumEv
  clipped : Bool
  /-- The value that step 4 received. -/
  w4 : FVal
  deriving DecidableEq, Repr

/-- Steps 4 to 6 of one element. -/
def OutCtl.elem (o : OutCtl) (v : FVal) : OutElem :=
  let c := clip o.lo o.hi v
  let (code, ev) := convert o.fmt (roundOf o.round) o.sat o.zOut c
  { code := code, ev := ev, clipped := !v.isNan && (c != v || ev.saturated), w4 := v }

/-- Steps 4 to 6 of a row segment with its micro-exponent; an element that is not kept is `none`. -/
def OutCtl.segment (o : OutCtl) (l : List (Option FVal)) : List (Option OutElem) × Nat :=
  if o.micro then
    let e := microExp o.fmt (l.filterMap id)
    (l.map (fun v => v.map (fun v => o.elem (FVal.mul v (.fin false (Frac.pow2 (127 - (e : Int))))))), e)
  else (l.map (fun v => v.map o.elem), 0x7F)

/-- Status bits of the numeric events of an element and CLIP_ANY (R207). -/
def OutElem.status (e : OutElem) : Word16 :=
  BitVec.ofNat 16 (b2n e.ev.nanOut + 2 * b2n e.ev.saturated + 4 * b2n e.ev.nanToZero + 32 * b2n e.clipped)

/-- Bits of a tile status (R207). -/
def stNAN_OUT : Word16 := 0x1
def stINVALID : Word16 := 0x8
def stEMPTY : Word16 := 0x10
def stCHECK_FAIL : Word16 := 0x40
def stSKIPPED : Word16 := 0x80
def stPOISON : Word16 := 0x100
def stSTOLEN : Word16 := 0x200
def stUNRESOLVED : Word16 := 0x400
def stSEGMENTED : Word16 := 0x800

/-- A status has a bit. -/
def stHas (s b : Word16) : Bool := s &&& b != 0

/-! ### Statistics (R161, R162) -/

/-- E_top of the histogram (R162). -/
def histTop (o : OutCtl) : Int :=
  let mag (v : FVal) : Frac := match v with | .fin _ q => q | _ => Frac.zero
  let finite := o.lo.isFinite && o.hi.isFinite
  let b := Frac.max (mag o.lo) (mag o.hi)
  let b := if finite && !Frac.isZero b then b
    else
      let r := defaultClip o.fmt o.zOut
      Frac.max (mag r.1) (mag r.2)
  if Frac.isZero b then 0 else Frac.ilog2 b

/-- Bin of a value (R162). -/
def histBin (top : Int) (v : FVal) : Nat :=
  match v with
  | .fin _ q =>
    if Frac.isZero q then 0
    else
      let k := Frac.ilog2 q
      if top < k then 31 else if k < top - 28 then 1 else (k - top + 30).toNat
  | _ => 31

/-- One element gathered: its tile row, its value in real units before step 4, and what the conversion made of it. -/
def TileStats.add (t : TileStats) (o : OutCtl) (row : Nat) (real : FVal) (e : OutElem) : TileStats :=
  { hist := lbump t.hist (histBin (histTop o) e.w4) 1
    rowClip := lbump t.rowClip row (b2n e.clipped)
    maxAbs := (match real with | .fin _ q => Frac.max t.maxAbs q | _ => t.maxAbs)
    clips := t.clips + b2n e.clipped
    elems := t.elems + 1 }

/-- The 144 bytes of the record. -/
def TileStats.bytes (t : TileStats) : List Byte :=
  (t.hist.map (toLe 2)).flatten ++ (t.rowClip.map (toLe 1)).flatten
    ++ toLe 4 (toF32 (.fin false t.maxAbs)).toNat ++ toLe 2 t.clips ++ toLe 2 t.elems ++ List.replicate 8 0

/-! ### Output control of a command -/

/-- S_out of a stage, a BF16 word: the latched scale of its slot, or 1.0 (R145, R155). -/
def Cmd.sWord (c : Cmd) (st : Nat) : Word16 := kgetD c.latch st 0x3F80

/-- S_out of a stage as a value. -/
def Cmd.sOut (c : Cmd) (st : Nat) : FVal := bf16.decode (c.sWord st).toNat

/-- Output control of a MATMUL-family stage. -/
def Cmd.outCtl (c : Cmd) (st : Nat) : OutCtl :=
  let d := c.desc st
  let z := zeroPoint (dOFmt d) (dZpO d)
  let b := clipBounds (dClipDef d) (dClipLo d) (dClipHi d) (dOFmt d) z
  { fmt := dOFmt d, round := dRound d, sat := dSat d, micro := dMicro d, zOut := z, lo := b.1, hi := b.2, sWord := c.sWord st }

/-! ### Where output bytes go -/

/-- Byte offset of an output row. -/
def outRow (d r : Nat) : Nat := dOOff d + r * dOStr d * 64

/-- Offset in a stored row of column `j`, whose bits start a byte (R142, R150). -/
def colOffset (fmt j : Nat) (blocks : Bool) : Nat :=
  let b := fmtBits fmt
  if blocks then j / 128 * (4 + 16 * b) + 4 + j % 128 * b / 8 else j * b / 8

/-- The elements of a run of columns as bytes over what stands there: an element that is not written keeps its bits. -/
def overlay (fmt : Nat) (old : List Byte) (l : List (Option Nat)) : List Byte :=
  let b := fmtBits fmt
  let codes := (List.range l.length).map (fun i => match (l.getD i none) with
    | some c => c
    | none => packedAt old b i)
  let keep := packElems b codes
  let n := (l.length * b + 7) / 8
  let spare := n * 8 - l.length * b
  if spare = 0 then keep
  else (keep.take (n - 1)) ++ [(keep.getD (n - 1) 0) ||| (((old.getD (n - 1) 0) >>> (8 - spare)) <<< (8 - spare))]

/-- Runs of elements of a row that are written: first element and codes of each. -/
def codeRuns : Nat → List (Option Nat) → List (Nat × List Nat)
  | _, [] => []
  | i, none :: l => codeRuns (i + 1) l
  | i, some c :: l => match codeRuns (i + 1) l with
    | (j, r) :: m => if j = i + 1 then (i, c :: r) :: m else (i, [c]) :: (j, r) :: m
    | [] => [(i, [c])]

/-- A row of codes written, element by element of those that are: what is not written keeps its bits, and a line that is not
written whole keeps its poison (R256, R378). -/
def State.putCodes (s : State) (core : Nat) (h : HandleEntry) (o fmt : Nat) (l : List (Option Nat)) (poison : Bool) : State :=
  let b := fmtBits fmt
  (codeRuns 0 l).foldl (fun t r =>
    let a := r.1 * b / 8
    let lead := r.1 - a * 8 / b
    let codes := List.replicate lead none ++ r.2.map some
    let old := t.bufRead core h (o + a) ((codes.length * b + 7) / 8)
    t.bufWrite core h (o + a) (overlay fmt old codes) poison) s

/-- Byte range of a micro-scaled output's micro-scale tensor (R205): start and length. -/
def microTensor (d : Nat) : Nat × Nat := (dOOff d + dM d * dOStr d * 64, dM d * msPitch (dN d))

/-- Offset of the micro-exponent of an output row's segment. -/
def microAt (d r ct : Nat) : Nat := (microTensor d).1 + r * msPitch (dN d) + ct

/-- One row segment of a tile written: its elements, and for a micro-scaled output its block header, whose BLOCK_SCALE is S
itself, and its micro-exponent (R149, R150, R205, R206). `extra` moves the row's elements (R254). -/
def State.writeSegment (s : State) (core : Nat) (h : HandleEntry) (d r ct extra : Nat) (sWord : Word16) (l : List (Option Nat)) (e : Nat)
    (poison : Bool) : State :=
  if l.all Option.isNone then s
  else
    let fmt := dOFmt d
    let t := s.putCodes core h (outRow d r + extra + colOffset fmt (32 * ct) (dMicro d)) fmt l poison
    if !dMicro d then t
    else
      let t := if ct % 4 = 0 then
          t.bufWrite core h (outRow d r + extra + ct / 4 * (4 + 16 * fmtBits fmt)) (toLe 2 sWord.toNat ++ [0, 0]) poison
        else t
      t.bufWrite core h (microAt d r ct) [BitVec.ofNat 8 e] poison

/-- Zero bytes over [a, b) as far as the range lies in a buffer. -/
def State.zeroRange (s : State) (core : Nat) (h : HandleEntry) (a b : Nat) (poison : Bool) : State :=
  let b := Nat.min b h.bytes
  if b ≤ a then s else s.bufWrite core h a (List.replicate (b - a) 0) poison

/-- A masked row of a micro-scaled output: zero codes in its columns and micro-exponent 0x7F (R151, R266). R205 places the
output's micro-scale tensor where row slot M_ROWS begins, and R182 keeps a masked row from disturbing what is written, so
the zero codes spare the tensor's bytes and nothing is written beyond the buffer (log entry 113). -/
def State.writeMasked (s : State) (core : Nat) (h : HandleEntry) (d r ct extra : Nat) (poison : Bool) : State :=
  let fmt := dOFmt d
  let a := outRow d r + extra + colOffset fmt (32 * ct) true
  let b := a + (Nat.min 32 (dN d - 32 * ct) * fmtBits fmt + 7) / 8
  let t := microTensor d
  let u := (s.zeroRange core h a (Nat.min b t.1) poison).zeroRange core h (Nat.max a (t.1 + t.2)) b poison
  if microAt d r ct < h.bytes then u.bufWrite core h (microAt d r ct) [0x7F] poison else u

/-- Ring slots that a tile's rows touch in its output (R356). -/
def outSlots (h : HandleEntry) (d rt ct : Nat) : List Nat :=
  if !h.ring then []
  else
    let n := if dRaw d then 128 else cdiv (Nat.min 32 (dN d - 32 * ct) * fmtBits (dOFmt d)) 8
    let at_ (r : Nat) : Nat := outRow d (64 * rt + r) + (if dRaw d then 128 * ct else colOffset (dOFmt d) (32 * ct) (dMicro d))
    let ms := if dMicro d then (List.range (tileRows d rt)).map (fun r =>
        h.slotsOf (microAt d (64 * rt + r) ct) 1) else []
    (((List.range (tileRows d rt)).map (fun r => h.slotsOf (at_ r) n)) ++ ms).flatten.foldl nins []

/-- Some of the slots that a command writes is full and not of its own writing: the output stalls (R356). -/
def State.outStalled (s : State) (core h : Nat) (c : Cmd) (slots : List Nat) : Bool :=
  slots.any (fun i => ((s.core core).handle h).isFull i && !c.ringWrote.contains (h, i))

/-- A tile record adds to its tensor's totals in the command's round (R163, log entry 105). -/
def State.noteTensor (s : State) (core : Nat) (c : Cmd) (st : Nat) (t : TileStats) : State :=
  let d := c.desc st
  s.modCore core (fun k => { k with rounds := k.rounds.map (fun r =>
    if some r.seq == c.round && r.ctx == c.ctx then
      { r with tensors := kmod r.tensors (dVecH d * 65536 + dVecOff d) {} (·.merge t) }
    else r) })

/-- Writes one tile statistics record (R161, R201, R391). -/
def State.writeStats (s : State) (core : Nat) (c : Cmd) (st rt ct : Nat) (t : TileStats) (poison : Bool) : State :=
  let d := c.desc st
  if dStats d then
    (s.bufWrite core (c.map st (dVecH d)) (dVecOff d * 256 + statsOff d + (rt * dCT d + ct) * 144) t.bytes poison).noteTensor
      core c st t
  else s

/-! ### The conversion block (R139, R201, R202, R391) -/

/-- D, W and b of an output element: the values of its column, or of its row with ACT_SEL. -/
def State.convVec (s : State) (c : Cmd) (core st r j : Nat) : FVal × Int × FVal :=
  let d := c.desc st
  if !dVecEn d then (fOne, 0, fZero)
  else
    let h := c.map st (dVecH d)
    let o := dVecOff d * 256
    let len := convLen d
    if dOp d = 3 then
      let i := memberOf d (r / 64) * dNPad d + j
      (fp32.decode (s.bufNat core h (o + 4 * i) 4), 0, fZero)
    else
      let i := if dActSel d then r else j
      (fp32.decode (s.bufNat core h (o + 4 * i) 4), sext 32 (s.bufNat core h (o + 4 * len + 4 * i) 4),
       fp32.decode (s.bufNat core h (o + 8 * len + 4 * i) 4))

/-- Some line of the conversion block's vectors is poisoned. -/
def State.convPoisoned (s : State) (c : Cmd) (core st : Nat) : Bool :=
  let d := c.desc st
  dVecEn d && s.bufPoisoned core (c.map st (dVecH d)) (dVecOff d * 256)
    (12 * convLen d + (if dOp d = 3 then 4 * dMPad d else 0))

/-- Steps 1 to 3 of an accumulator word (R145). -/
def convIn (float : Bool) (acc : Word32) (za : Int) (v : FVal × Int × FVal) (sOut : FVal) : FVal :=
  let a := if float then f32 acc else FVal.ofFrac (Frac.ofInt acc.toInt)
  let t := divScale (FVal.mul a v.1) sOut
  let t := if float then t
    else FVal.add t (FVal.neg (divScale (FVal.mul (FVal.ofFrac (Frac.ofInt (za * v.2.1))) v.1) sOut))
  FVal.add t (divScale v.2.2 sOut)

/-- Steps 1 to 3 make a NaN of operands none of which is NaN (R125). -/
def convMakesNan (float : Bool) (acc : Word32) (v : FVal × Int × FVal) (sOut w : FVal) : Bool :=
  w.isNan && !(float && (f32 acc).isNan) && !v.1.isNan && !v.2.2.isNan && !sOut.isNan

/-- A format has a code for NaN. -/
def fmtHasNan (fmt : Nat) : Bool := match fmtFloat fmt with | some f => f.hasNan | none => false

/-- The activation zero point (R135 to R139). -/
def actZero (d : Nat) : Int := zeroPoint (if dActSel d then dBFmt d else dAFmt d) (dZpA d)

/-- A score element is kept (R394). -/
def State.scoreKept (s : State) (c : Cmd) (core st r j : Nat) : Bool :=
  let d := c.desc st
  let h := c.map st (dVecH d)
  let o := dVecOff d * 256
  let v := convLen d
  let q := s.bufNat core h (o + 12 * v + 4 * r) 4
  let kp := s.bufNat core h (o + 4 * v + 4 * (memberOf d (r / 64) * dNPad d + j)) 4
  let k := bits kp 19 0
  let win := if dWindow d = 0 then true
    else if dCausal d then decide ((q : Int) - k < dWindow d) else decide (((q : Int) - k).natAbs < dWindow d)
  decide (r < dM d) && q != 0xFFFFFFFF && decide (j < dN d) && kp != 0xFFFFFFFF && (!dCausal d || decide (k ≤ q))
    && (if bit kp 31 then dWindow d != 0 && !win else win)

end Sys2Proof.Machine
end

