-- ==== Sys2Proof/Machine/Matrix.lean ====
section
/-! DEFINITION. Matrix engines: work items and their queues, stealing, accumulation with the checksum column, re-runs,
mismatches and quarantine, and the fused output conversion (R181 to R233, R709). -/

namespace Sys2Proof.Machine

/-! ### Engines and items -/

/-- The accumulator set of a number. -/
def Engine.set (g : Engine) (i : Nat) : AccSet := if i = 0 then g.set0 else g.set1
def Engine.putSet (g : Engine) (i : Nat) (a : AccSet) : Engine := if i = 0 then { g with set0 := a } else { g with set1 := a }

/-- Record of the codebook that an item's blocks are tagged with: the one taken when the item began, or its slot's. -/
def State.itemRecord (s : State) (core e : Nat) (w : WorkItem) : List Byte :=
  let g := s.engine core e
  match w.tag with
  | none => []
  | some (i, _) => if (g.running.map Prod.fst) == some w then g.bell.book else (g.bell.slot i).record

/-- The pair of an item accumulates in FP32. -/
def itemFloat (d : Nat) (record : List Byte) : Bool :=
  pairFloat (dAFmt d) (dBFmt d) (if dCoded d then some (cbEntryFmt record) else none)

/-- The item is accumulated in segments (R214). -/
def itemSegs (d : Nat) (float : Bool) : Nat := if float && dCheck d && decide (4096 < dK d) then cdiv (dK d) 4096 else 1

/-! ### Queues (R216 to R218) -/

/-- The router adds the items it holds as entries come free. -/
def State.feedQueues (s : State) (core : Nat) : State :=
  (s.core core).cmds.foldl (fun t c =>
    c.held.foldl (fun t (q : Nat × WorkItem) =>
      if (t.engine core q.1).queue.length < 32 ∧ !t.quarantined core q.1 then
        (t.modEngine core q.1 (fun g => { g with queue := g.queue ++ [q.2] })).modCmd core c.ctx c.seq (fun m =>
          { m with held := m.held.filter (fun h => h != q) })
      else t) t) s

/-- Contiguous ranges of `n` tiles over engines, sizes differing by at most one: start and length. -/
def ranges (n engines : Nat) : List (Nat × Nat) :=
  (List.range engines).map (fun i =>
    let q := n / engines
    let r := n % engines
    (i * q + Nat.min i r, if i < r then q + 1 else q))

/-- The work items of a stage, with the engine that the router gives each. -/
def stageItems (c : Cmd) (core st : Nat) (live : List Nat) : List (Nat × WorkItem) :=
  let d := c.desc st
  let vec := dOp d == 0x30
  let cols := if vec then vrRuns d else dCT d
  let rows := if vec then 1 else dRT d
  ((List.zip live (ranges cols live.length)).map (fun (q : Nat × Nat × Nat) =>
    ((List.range q.2.2).map (fun i => (List.range rows).map (fun r =>
      (q.1, ({ ctx := c.ctx, seq := c.seq, stage := st, rt := if vec then q.2.1 + i else r, ct := if vec then 0 else q.2.1 + i
               home := core, first := q.1 } : WorkItem))))).flatten)).flatten

/-- The stage may be issued now: the first, a HANDOVER stage, or one whose predecessors are written (R197, R199). -/
def Cmd.stageFree (c : Cmd) : Bool :=
  c.stage == 0 || (isMatmul (c.desc c.stage) && dHandover (c.desc c.stage)) || (c.left == 0 && c.held == [])

/-- The core has no unquarantined engine left: what has not started of a command is discarded, and the command completes
with REC_NO_ENGINE once what runs has ended (R217). -/
def State.noEngine (s : State) (core : Nat) (c : Cmd) : State :=
  let waits (w : WorkItem) : Bool := w.of_ c core
  let all := (List.range 8).map (fun k => ((s.core k).engines.map (fun q => (q.2.under.filter waits).eraseDups.length)).foldl (· + ·) 0)
  let t := s.modCores (fun _ k => { k with
    rerun := k.rerun.filter (fun w => !waits w)
    engines := k.engines.map (fun q => (q.1, { q.2 with
      queue := q.2.queue.filter (fun w => !waits w)
      taken := q.2.taken.filter (fun w => !waits w)
      bell := { (q.2.taken.toList ++ q.2.queue).foldl (fun (b : BellState) w => if waits w then b.untag w (s.blocksOf w) else b) q.2.bell with
        waiting := q.2.bell.waiting.filter (fun w => !waits w) } })) })
  t.modCmd core c.ctx c.seq (fun m => { m with
    stage := m.descs.length, phase := .running, held := [], left := sumNat all, code := recNO_ENGINE })

/-- A stage is dispatched into the engines' queues; with no engine left the command ends with REC_NO_ENGINE (R216, R217). -/
def State.issueStage (s : State) (core : Nat) (c : Cmd) : State :=
  if !c.stageFree then s
  else
    let st := c.stage
    match s.maskEngines core ((engineMask (c.desc st)).getD 0) with
    | [] => s.noEngine core c
    | live =>
      let items := stageItems c core st live
      let t := s.modCmd core c.ctx c.seq (fun m =>
        { m with
          stage := st + 1, phase := if st + 1 < m.descs.length then .validated else .running
          held := m.held ++ items, left := m.left + items.length
          spans := (items.map Prod.fst).foldl (fun k e =>
            if (kget? k (engNo core e)).isSome then k else kset k (engNo core e) (m.dispatchedAt, m.dispatchedAt)) m.spans })
      (t.feedQueues core).progress core 116

/-- MATMUL: the router makes the stage's work items (R197, R199, R216 to R218). -/
def execMatmul (ctx : Nat) (s : State) : Host.Outcome State Fault Refusal :=
  .next (match s.toIssue ctx 0x01 with
  | none => s
  | some (core, c) => State.after s (s.issueStage core c) core)

/-! ### Charging an item (R222, R226, R709) -/

/-- An item has ended on an engine: its command's span there is extended, a re-run's time from its grant is to be removed,
and other commands' spans there note the time that it ran. -/
def State.chargeItem (s : State) (eng : Nat) (w : WorkItem) (rerun : Bool) : State :=
  let cut (l : KMap (List (Nat × Nat))) (a : Nat) : KMap (List (Nat × Nat)) := kmod l eng [] (fun x => x ++ [(a, s.now)])
  s.modCores (fun core k => { k with cmds := k.cmds.map (fun c =>
    if w.of_ c core then
      { c with spans := kmod? c.spans eng (fun q => (q.1, s.now)), cuts := if rerun then cut c.cuts w.granted else c.cuts }
    else if (kget? c.spans eng).isSome then { c with cuts := cut c.cuts w.started }
    else c) })

/-- A work item is complete: its tile is written or handed to nothing more; a wider re-run leaves no max-abs for the slot's
history (R125, R126, R172, R206, R207, R233). -/
def State.itemDone (s : State) (core e : Nat) (w : WorkItem) (status : Word16) (maxAbs : Frac) : State :=
  let eng := engNo core e
  let st := status ||| (if w.checkFail then stCHECK_FAIL else 0) ||| (if w.stolen then stSTOLEN else 0)
  let t := s.chargeItem eng w w.checkFail
  let addr := match s.ctx? w.ctx, s.cmdOf w with
    | some ct, some c => if c.wide.contains w.stage then none else (stageSlot (c.desc w.stage)).bind (s.slotAddr ct.core ct)
    | _, _ => none
  let t := t.modCmdOf w (fun c => { c with
    left := c.left - 1, written := (w.stage, w.rt, w.ct) :: c.written, status := c.status ||| st, tiles := c.tiles + 1
    stolen := c.stolen + b2n w.stolen
    events := (List.range 5).map (fun i => c.events.getD i 0 + b2n (bit st.toNat i))
    maxAbs := match addr with | none => c.maxAbs | some a => kmod c.maxAbs a Frac.zero (fun m => Frac.max m maxAbs) })
  (t.feedQueues w.home).progress core e

/-! ### Mismatches and quarantine (R225 to R230) -/

/-- Work items that leave an engine go to the re-run queues of their cores, without exclusion (R227). -/
def State.requeue (s : State) (l : List WorkItem) : State :=
  l.foldl (fun t w => t.modCore w.home (fun k => { k with rerun := k.rerun ++ [{ w with excluded := none, tag := none }] })) s

/-- The quarantine of an engine: what it has not started goes to the re-run queue, and with no engine left the core's
commands that use engines end (R217, R227, R228, R230, R543). -/
def State.quarantine (s : State) (core e : Nat) : State :=
  let g := s.engine core e
  let held := ((s.core core).cmds.map (fun c => (c.held.filter (fun h => h.1 == e)).map Prod.snd)).flatten
  let t : State := { s with persist := { s.persist with
    quarantine := kmod s.persist.quarantine core 0 (fun m => m ||| 2 ^ e) } }
  let t := t.commitPersist
  let waiting := g.taken.toList ++ g.queue
  let t := t.modEngine core e (fun g => { g with
    queue := [], taken := none
    bell := waiting.foldl (fun (b : BellState) w => b.untag w (s.blocksOf w)) { g.bell with waiting := [], loading := none, stallSince := none } })
  let t := t.modCore core (fun k => { k with cmds := k.cmds.map (fun c => { c with held := c.held.filter (fun h => h.1 != e) }) })
  let t := t.requeue (waiting ++ held)
  let t := if t.liveEngines core == [] then
      ((t.core core).cmds.filter (fun c => c.left != 0)).foldl (fun t c => t.noEngine core c) t
    else t
  ((t.alertSet alertQuarantine).logEvent 0x6007 0 0x01 (engNo core e) [(8, core), (8, e)]).checkOvercommit core

/-- Mismatch times of an engine within the last 10 s. -/
def recentTimes (now : Nat) (l : List Nat) : List Nat := l.filter (fun t => decide (now ≤ t + 10000000000))

/-- A mismatch is attributed to an engine; three within 10 s quarantine it (R225, R227). -/
def State.mismatch (s : State) (eng : Nat) : State :=
  let core := eng / 16
  let e := eng % 16
  let t := s.modCore core (fun k => { k with
    mismatch := kmod k.mismatch e [] (fun l => recentTimes s.now (l ++ [s.now]))
    mismatchTotal := kmod k.mismatchTotal e 0 (· + 1) })
  if 3 ≤ (kgetD (t.core core).mismatch e []).length ∧ !t.quarantined core e then t.quarantine core e else t

/-- MISMATCH_AGE_OUT: mismatches older than 10 s no longer count (R227, R229). -/
def execMismatchAgeOut (core : Fin 8) (engine : Fin 16) (s : State) : Host.Outcome State Fault Refusal :=
  .next (s.modCore core (fun k => { k with mismatch := kmod? k.mismatch engine (recentTimes s.now) }))

/-! ### Starting an item (R183, R184, R199, R308, R356, R392) -/

/-- Ranges of a stage's buffers: handle, offset, bytes. -/
abbrev Ranges := List (Nat × Nat × Nat)

/-- What a tile's fill reads: rows of A, columns of B, their micro-scales, and the check vector. -/
def Cmd.fillRanges (c : Cmd) (st rt ct : Nat) (record : List Byte) (float : Bool) : Ranges :=
  let d := c.desc st
  let a := aPlace c.ds st
  let ms := aMsPlace c.ds st
  let rows := (List.range (tileRows d rt)).map (fun r => 64 * rt + r)
  let cols := (List.range 32).map (fun j => 32 * ct + j)
  let mn := cdiv (dK d) 32
  let base := bBase d rt float
  rows.map (fun r => (a.1, a.2.1 + r * a.2.2 * 64, storedBytes (dAFmt d) (dK d) (dABs d)))
    ++ (if dAMs d then rows.map (fun r => (ms.1, ms.2 + r * msPitch (dK d), mn)) else [])
    ++ cols.map (fun j => (dBH d, base + j * dBStr d * 64, colBytes d (cbBig record)))
    ++ (if dOp d = 1 ∧ dBMs d then cols.map (fun j => (dBMsH d, base + dNPad d * dBStr d * 64 + j * msPitch (dK d), mn)) else [])
    ++ (if dCheck d then [(dBH d, checkBase d rt ct float, checkBytes d float)] else [])

/-- What the load of an item's codebook reads. -/
def Cmd.bookRanges (c : Cmd) (st : Nat) (big : Bool) : Ranges :=
  let d := c.desc st
  if dCoded d then [(dCbH d, 0, cbBytes (dBFmt d) big)] else []

/-- What a tile's conversion reads of the conversion block (R139, R391). -/
def Cmd.convRanges (c : Cmd) (st rt ct : Nat) : Ranges :=
  let d := c.desc st
  let o := dVecOff d * 256
  let v := 4 * convLen d
  let cols := Nat.min 32 (dN d - 32 * ct)
  if !dVecEn d then []
  else if dOp d = 3 then
    let i := 4 * (memberOf d rt * dNPad d + 32 * ct)
    [(dVecH d, o + i, 4 * cols), (dVecH d, o + v + i, 4 * cols), (dVecH d, o + 3 * v + 256 * rt, 4 * tileRows d rt)]
  else
    let i := if dActSel d then 256 * rt else 128 * ct
    let n := if dActSel d then 4 * tileRows d rt else 4 * cols
    [(dVecH d, o + i, n), (dVecH d, o + v + i, n), (dVecH d, o + 2 * v + i, n)]

/-- Where a tile's statistics record is written. -/
def Cmd.statRanges (c : Cmd) (st rt ct : Nat) : Ranges :=
  let d := c.desc st
  if dStats d then [(dVecH d, dVecOff d * 256 + statsOff d + (rt * dCT d + ct) * 144, 144)] else []

/-- Ring slots that ranges of a stage touch, with their handles; a handle that is no ring has none (R356). -/
def Cmd.ringSlots (c : Cmd) (st : Nat) (l : Ranges) : List (Nat × Nat) :=
  l.foldl (fun m r =>
    let h := c.map st r.1
    if h.ring then (h.slotsOf r.2.1 r.2.2).foldl (fun m i => if m.contains (r.1, i) then m else m ++ [(r.1, i)]) m else m) []

/-- Ranges with the mappings of their handles. -/
def Cmd.mapped (c : Cmd) (st : Nat) (l : Ranges) : List (HandleEntry × Nat × Nat) := l.map (fun r => (c.map st r.1, r.2))

/-- What a work item reads: operands, codebook, and the conversion block where the fused conversion runs. -/
def State.readSlots (s : State) (c : Cmd) (w : WorkItem) (float : Bool) : List (Nat × Nat) :=
  let d := c.desc w.stage
  let record := if dCoded d then s.bufRead w.home (c.map w.stage (dCbH d)) 0 8 else []
  c.ringSlots w.stage (c.fillRanges w.stage w.rt w.ct record float ++ c.bookRanges w.stage (cbBig record)
    ++ (if dVeFin d then [] else c.convRanges w.stage w.rt w.ct))

/-- Every ring slot of a list is full; an operand read of another stalls (R356). -/
def State.slotsFull (s : State) (core : Nat) (l : List (Nat × Nat)) : Bool :=
  l.all (fun q => ((s.core core).handle q.1).isFull q.2)

/-- Members added to a list that does not hold them. -/
def addNew (l m : List (Nat × Nat)) : List (Nat × Nat) := m.foldl (fun l q => if l.contains q then l else l ++ [q]) l

/-- An item's operands stand ready. -/
def State.itemReady (s : State) (c : Cmd) (core e : Nat) (w : WorkItem) : Bool :=
  let d := c.desc w.stage
  let record := s.itemRecord core e w
  let float := itemFloat d record
  let prev := c.desc (w.stage - 1)
  let rows := !dHandover d || w.stage == 0
    || (List.range (dCT prev)).all (fun t => c.written.contains (w.stage - 1, w.rt, t))
  let walked := match c.walk with
    | none => true
    | some k =>
      if k.stage ≠ w.stage then true
      else if dRole d = 1 then k.pairs.isEmpty
      else k.pairs.all (fun p => p.2.2.2.2.2 != memberOf d w.rt || decide (32 * w.ct + 32 ≤ p.2.2.2.2.1) || decide (p.2.2.2.2.1 + 32 ≤ 32 * w.ct))
  rows && walked && s.slotsFull w.home (c.ringSlots w.stage (c.fillRanges w.stage w.rt w.ct record float))

/-- The identity of the codebook that an item names (R308): core, partition, handle, CODEBOOK_ID. -/
def State.codebookIdent (s : State) (c : Cmd) (w : WorkItem) : Nat × Nat × Nat × Nat :=
  let d := c.desc w.stage
  (w.home, c.part, dCbH d, s.bufNat w.home (c.map w.stage (dCbH d)) 2 2)

/-- A waiting item of an engine replaced by another image of it. -/
def Engine.reItem (g : Engine) (w w' : WorkItem) : Engine :=
  { g with taken := g.taken.map (fun q => if q == w then w' else q), queue := g.queue.map (fun q => if q == w then w' else q) }

/-- A slot's identity can be matched: no load into it is under way (R309). -/
def BellState.holds (b : BellState) (i : Nat) (id : Nat × Nat × Nat × Nat) : Bool :=
  (b.slot i).ident == some id && (match b.loading with | some (k, _) => k != i | none => true)

/-- An item is queued in the Bell: tagged with the slot that holds its codebook, or waiting for a load (R308, R309). -/
def State.bellQueue (s : State) (c : Cmd) (core e : Nat) (w : WorkItem) : State × WorkItem :=
  let d := c.desc w.stage
  let b := (s.engine core e).bell
  let id := s.codebookIdent c w
  let tagAt (i : Nat) : State × WorkItem :=
    let w' := { w with tag := some (i, (b.slot i).version) }
    (s.modEngine core e (fun g => { g.reItem w w' with
      bell := { (g.bell.putSlot i { g.bell.slot i with tagCount := (g.bell.slot i).tagCount + itemBlocks d }) with
        waiting := g.bell.waiting.filter (fun q => q != w) } }), w')
  if b.holds 0 id then tagAt 0
  else if b.holds 1 id then tagAt 1
  else if b.knows w then (s, w)
  else (s.modEngine core e (fun g => { g with bell := { g.bell with waiting := g.bell.waiting ++ [w] } }), w)

/-- While an item runs, the operand fill of the next one begins: the Bell queues the first item ahead that it does not know,
so that its codebook is loaded while earlier blocks are decoded (R187, R308, R310, log entry 128). -/
def State.lookAhead (s : State) (core e : Nat) : State :=
  let g := s.engine core e
  match g.ahead.find? (fun w => !g.bell.knows w && dCoded (s.itemDesc w)) with
  | none => s
  | some w => match s.cmdOf w with
    | none => s
    | some c => (s.bellQueue c core e w).1

/-! ### Extension reads (R302, R304, R308, R324) -/

/-- Reads that a Bell issues now: each of the eight decoders scans the blocks of its four columns from the one it decodes to
64 blocks ahead, and asks for the lines of raw blocks that are neither here nor asked for, eight outstanding at most; each
read takes a transfer tag (R302, R304, R476). `rows` are the lines by segment and column, from segment `seg` on. -/
def State.issueExt (s : State) (core e : Nat) (rows : List (List (List Nat))) : State :=
  (List.range 8).foldl (fun t d =>
    let wanted := ((List.zip (List.range 17) rows).map (fun (q : Nat × List (List Nat)) =>
      ((List.range 4).filter (fun i => decide (4 * q.1 + i ≤ 64))).map (fun i => q.2.getD (4 * d + i) []))).flatten.flatten
    wanted.foldl (fun t a =>
      let b := (t.engine core e).bell
      if b.extReads.any (fun q => q.2 == a) || b.extDone.any (fun q => q.1 == a)
          || decide (8 ≤ (b.extReads.filter (fun q => q.1 == d)).length) then t
      else
        let (u, ok) := t.takeTag core (32 + e)
        if ok then u.modEngine core e (fun g => { g with bell := { g.bell with extReads := g.bell.extReads ++ [(d, a)] } }) else u) t) s

/-- Segments, from the first not yet decoded, whose raw blocks' extensions have all come. -/
def readySegs (done : List (Nat × List Byte × Bool)) (rows : List (List (List Nat))) : Nat :=
  (rows.takeWhile (fun l => l.all (fun x => x.all (fun a => done.any (fun q => q.1 == a))))).length

/-- The Bell of a running item decodes `n` further segments: their blocks lower TAG_COUNT, raw ones are
counted, and its Drone counter advances (R302, R306, R308, R324). -/
def State.bellDecode (s : State) (core e : Nat) (w : WorkItem) (rows : List (List (List Nat))) (n : Nat) : State :=
  let raw := sumNat ((rows.take n).map (fun l => (l.filter (fun x => x != [])).length))
  let t := s.modEngine core e (fun g =>
    { g with bell := { (g.bell.untag w (32 * n)) with seg := g.bell.seg + n, stats := lbump g.bell.stats 0 raw } })
  if 0 < n ∧ (w.tag.isSome ∨ dBell (s.itemDesc w)) then t.progress core (32 + e) else t

/-- Extension lines of the running item from the segment that its Bell decodes next. -/
def State.extRows (s : State) (c : Cmd) (core e : Nat) (w : WorkItem) : List (List (List Nat)) :=
  (s.extLines c w.home w.stage w.rt w.ct (s.itemRecord core e w)).drop (s.engine core e).bell.seg

/-- The Bell has decoded, or decodes now, the running item's segments below `upTo`; where an extension is missing it asks for
what it may, and the engine waits (R304). -/
def State.bellReach (s : State) (c : Cmd) (core e : Nat) (w : WorkItem) (upTo : Nat) : State × Bool :=
  let g := s.engine core e
  let rows := s.extRows c core e w
  let need := upTo - g.bell.seg
  if rows = [] then (s.bellDecode core e w [] need, true)
  else if need ≤ readySegs g.bell.extDone rows then ((s.bellDecode core e w rows need).issueExt core e (rows.drop need), true)
  else (s.issueExt core e rows, false)

/-! ### Starting an item (R183, R184, R199, R215, R308) -/

/-- The set that an item starts in; a segmented item needs both (R184, R215). -/
def Engine.freeSet (g : Engine) (segs : Nat) : Option Nat :=
  let f0 := g.set0.state == .free
  let f1 := g.set1.state == .free
  if 1 < segs then (if f0 && f1 then some 0 else none) else if f0 then some 0 else if f1 then some 1 else none

/-- The vector engine of an engine may take a run. -/
def Engine.veFree (g : Engine) : Bool :=
  g.ve.item.isNone && g.ve.body.isNone && g.set0.state != .veHeld && g.set1.state != .veHeld

/-- An item leaves the list of those that an engine has not started. -/
def Engine.dropAhead (g : Engine) : Engine :=
  if g.taken.isSome then { g with taken := none } else { g with queue := g.queue.drop 1 }

/-- An item starts in set `i`; a segmented one holds the other set too (R183, R215, R304). -/
def State.startItem (s : State) (c : Cmd) (core e i segs : Nat) (w : WorkItem) (record : List Byte) : State :=
  let w' := { w with started := s.now }
  let bp := match w.tag with | none => false | some (k, _) => ((s.engine core e).bell.slot k).poison
  let t := s.modEngine core e (fun g =>
    let g := g.putSet i { state := .filling, item := some w' }
    let g := if 1 < segs then g.putSet (1 - i) { state := .filling, item := some w' } else g
    { g.dropAhead with running := some (w', i), segs := 0, bell := { g.bell.idle with book := record, bookPoison := bp } })
  (t.issueExt core e (t.extRows c core e w')).lookAhead core e

/-- WORK_ITEM_START: the item that an engine has been granted, else the first of its queue, starts in a FREE set, or a run of a
VEC_RUN on the vector engine; while an item runs, the operand fill of the next begins. A re-run item that the engine takes goes
before its own (R183, R184, R199, R214, R224, R283, R304, R308, R356, R392, R476). -/
def execWorkItemStart (core : Fin 8) (engine : Fin 16) (s : State) : Host.Outcome State Fault Refusal :=
  let g := s.engine core engine
  .next (if s.recovering core then s
  else if g.running.isSome then State.after s (s.lookAhead core engine) core
  else if s.rerunFirst core engine then s
  else
    match g.ahead with
    | [] => s
    | w :: _ =>
      match s.cmdOf w with
      | none => s.modEngine core engine Engine.dropAhead
      | some c =>
        let d := c.desc w.stage
        if dOp d = 0x30 then
          if !g.veFree then s
          else
            let t := s.modEngine core engine (fun g => { g.dropAhead with ve := { g.ve with item := some { w with started := s.now } } })
            State.after s (t.feedQueues core) core
        else
          let (t, w) := if dCoded d ∧ w.tag.isNone then s.bellQueue c core engine w else (s, w)
          if dCoded d ∧ w.tag.isNone then State.after s t core
          else
            let record := t.itemRecord core engine w
            let segs := itemSegs d (itemFloat d record)
            match g.freeSet segs with
            | none => State.after s t core
            | some i =>
              if !t.itemReady c core engine w || (w.home != core.val && !(t.core core).tagFree false) then State.after s t core
              else State.after s (((t.startItem c core engine i segs w record).feedQueues core).progress core engine) core)

/-! ### Stealing (R219 to R224) -/

/-- An item is granted to an engine, which starts it before its queue; a span of its command begins there with the grant
(R218, R709). -/
def State.giveItem (s : State) (core e : Nat) (w : WorkItem) : State :=
  let w' := { w with stolen := engNo core e != engNo w.home w.first, granted := s.now }
  let t := s.modEngine core e (fun g => { g with taken := some w' })
  t.modCmdOf w (fun c => { c with spans :=
    if (kget? c.spans (engNo core e)).isSome then c.spans else kset c.spans (engNo core e) (s.now, s.now) })

/-- STEAL_GRANT: an engine takes a re-run item, or, idle, the last item in the steal window of a victim. An item that a
lower-numbered idle engine of the core selects too goes to that engine, so that no grant of it to this one occurs (R219 to
R224). -/
def execStealGrant (core : Fin 8) (engine : Fin 16) (s : State) : Host.Outcome State Fault Refusal :=
  let n := core.val ^^^ 1
  let idle := s.engineIdle core engine
  .next (if s.recovering core ∨ !s.engineTakes core engine then s
  else
    match s.rerunFor core engine core with
    | some (w, l) =>
      State.after s (((s.modCore core (fun k => { k with rerun := l })).giveItem core engine w).progress core 117) core
    | none =>
      if !idle then s
      else
        let near := if s.recovering n then none else s.rerunFor core engine n
        match s.stealFor core engine near.isSome with
        | some (vc, ve, w) =>
          if (List.range engine.val).any (fun e => s.engineIdle core e && s.stealFor core e near.isSome == some (vc, ve, w)) then s
          else
            let t := s.modEngine vc ve (fun g => { g with queue := (g.queue.reverse.erase w).reverse })
            let t := t.giveItem core engine w
            let t := t.modCore core (fun k => { k with stealStats := lbump k.stealStats (if vc = core.val then 0 else 1) 1 })
            State.after s ((t.feedQueues vc).progress core 117) core
        | none =>
          match near with
          | some (w, l) =>
            State.after s (((s.modCore n (fun k => { k with rerun := l })).giveItem core engine w).progress core 117) core
          | none => s)

/-! ### Accumulation and its check (R182, R183, R208 to R215, R317) -/

/-- An accumulation over reduction steps [k0, k1): the words of each row, the verdict, poison and invalid codes. -/
structure AccOut where
  rows : List (List Word32)
  res : CheckRes
  poison : Bool
  invalid : Bool
  /-- A NaN has come of operands none of which was NaN (R125). -/
  nanOut : Bool
  deriving DecidableEq, Repr

/-- A fault of the arithmetic at a row and column (log entry 8). -/
def flipAt (flips : AccFlips) (r j : Nat) (w : Word32) : Word32 :=
  flips.foldl (fun w q => if q.1 = r ∧ q.2.1 = j then w ^^^ q.2.2 else w) w

/-- The tile's accumulation; `draw` is the first of 4,096 draws. -/
def State.accumulate (s : State) (c : Cmd) (core e : Nat) (w : WorkItem) (k0 k1 draw : Nat) (flips : AccFlips) : AccOut :=
  let d := c.desc w.stage
  let home := w.home
  let record := s.itemRecord core e w
  let float := itemFloat d record
  let bell := (s.engine core e).bell
  let part (l : List Elem) : List Elem := (l.drop k0).take (k1 - k0)
  let aRows := (List.range (tileRows d w.rt)).map (fun r => s.aRow c home w.stage (64 * w.rt + r))
  let bCols := (List.range 32).map (fun j => s.bCol c home w.stage w.rt (32 * w.ct + j) record float bell.extDone)
  let a := aRows.map (fun q => part q.1)
  let b := bCols.map (fun q => part q.1)
  let h := c.map w.stage (dBH d)
  let co := checkBase d w.rt w.ct float
  let cn := checkBytes d float
  let cv := if dCheck d then s.bufRead home h co cn else []
  let poison := aRows.any Prod.snd || bCols.any Prod.snd || (dCheck d && s.bufPoisoned home h co cn)
    || bell.extDone.any (fun q => q.2.2) || bell.bookPoison
  let invalid := a.any (fun l => l.any (·.bad)) || b.any (fun l => l.any (·.bad))
  let nan (l : List Elem) : Bool := l.any (fun x => x.val.isNan || x.scale.isNan)
  let rows := (List.zip (List.range a.length) a).map (fun q =>
    (List.zip (List.range 32) b).map (fun p => flipAt flips q.1 p.1 (
      if float then dotFloat (draw + q.1 * 64 + p.1) (List.zipWith (product (dScaled d)) q.2 p.2)
      else dotInt (q.2.map Elem.int) (p.2.map Elem.int))))
  let ks := (List.range (k1 - k0)).map (· + k0)
  let res :=
    if !dCheck d then CheckRes.pass
    else if poison then .skip
    else CheckRes.all ((List.zip (List.range a.length) (List.zip a rows)).map (fun q =>
      if float then
        let ws := ks.map (checkFloat cv)
        let cr := flipAt flips q.1 32 (dotFloat (draw + q.1 * 64 + 32) (List.zipWith (fun x y => toF32 (FVal.mul x.scaled y.1)) q.2.1 ws))
        let mr := dotFloat (draw + q.1 * 64 + 33) (List.zipWith (fun x y => toF32 (FVal.mul (FVal.abs x.scaled) y.2)) q.2.1 ws)
        checkRow q.2.2 cr mr
      else
        let cr := flipAt flips q.1 32 (dotInt (q.2.1.map Elem.int) (ks.map (checkInt cv)))
        if (q.2.2.foldl (· + ·) 0) = cr then .pass else .fail))
  let bNan := b.map nan
  let nanOut := float && (List.zip a rows).any (fun q => !nan q.1 && (List.zip bNan q.2).any (fun p => !p.1 && (f32 p.2).isNan))
  { rows := rows, res := res, poison := poison, invalid := invalid, nanOut := nanOut }

/-- The errors that the check bits find in what an item's fill reads (R329). -/
def State.fillFinds (s : State) (c : Cmd) (core e : Nat) (w : WorkItem) (errs : BoreErrs) : State :=
  let record := s.itemRecord core e w
  s.boreFinds w.home (c.mapped w.stage (c.fillRanges w.stage w.rt w.ct record (itemFloat (c.desc w.stage) record))) errs

/-- Tile status that an accumulation adds. -/
def AccOut.status (a : AccOut) (checked : Bool) : Word16 :=
  (if a.invalid then stINVALID else 0) ||| (if a.nanOut then stNAN_OUT else 0) ||| (if a.poison then stPOISON else 0)
    ||| (if checked && a.res == .skip && !a.poison then stSKIPPED else 0)

/-- The running item has left the array: the Bell drops what it holds for it, and the blocks that it has not decoded. -/
def Engine.stopItem (g : Engine) (w : WorkItem) (blocks : Nat) : Engine :=
  { g with running := none, segs := 0, bell := (g.bell.untag w (blocks - 32 * g.bell.seg)).idle }

/-- Sets that an item holds become FREE, but for set `keep` (R183, R215). -/
def Engine.freeSets (g : Engine) (w : WorkItem) (keep : Option Nat) : Engine :=
  { g with set0 := if g.set0.item == some w && keep != some 0 then {} else g.set0
           set1 := if g.set1.item == some w && keep != some 1 then {} else g.set1 }

/-- A tile fails its check for the first time: nothing is written, and the item goes to its core's re-run queue with
the engine excluded (R183, R223); a command that ends for want of engines re-runs nothing (R217). -/
def State.failTile (s : State) (core e : Nat) (w : WorkItem) : State :=
  let t := s.modEngine core e (fun g => (g.freeSets w none).stopItem w (s.blocksOf w))
  let t := t.chargeItem (engNo core e) w w.checkFail
  if (match s.cmdOf w with | none => false | some c => c.code == recNO_ENGINE) then t.modCmdOf w (fun c => { c with left := c.left - 1 })
  else
    let t := t.modCore w.home (fun k => { k with
      rerun := k.rerun ++ [{ w with checkFail := true, excluded := some (engNo core e), tag := none }]
      stealStats := lbump k.stealStats 2 1 })
    t.modCmdOf w (fun c => { c with reruns := c.reruns + 1 })

/-- A tile that has failed on two engines (R225). -/
def State.unresolved (s : State) (eng : Nat) (w : WorkItem) : State :=
  (s.modCore w.home (fun k => { k with stealStats := lbump k.stealStats 3 1 })).logEvent 0x6008 0 0x01 eng [(16, w.ctx), (16, w.seq)]

/-- The set that an item has filled goes to its conversion or to the vector engine. A segmented item's other set stays held
until the conversion, and is FREE at the hand-over to the vector engine (R183, R204, R215). -/
def State.fillDone (s : State) (core e i : Nat) (w : WorkItem) (d : Nat) (rows : List (List Word32)) (status : Word16) : State :=
  let t := s.modEngine core e (fun g =>
    let g := if dVeFin d then g.freeSets w (some i) else g
    let a : AccSet := { state := if dVeFin d then .veHeld else .converting, item := some w, rows := rows, status := status
                        float := itemFloat d (s.itemRecord core e w) }
    (g.putSet i a).stopItem w (itemBlocks d))
  let passed := w.checkFail && dCheck d && !stHas status stUNRESOLVED && !stHas status stSKIPPED && !stHas status stPOISON
  match (if passed then w.excluded else none) with
  | none => t
  | some x => t.mismatch x

/-- Steps per cycle in quarters of the rate class of a pair: 16 at the 2-bit rate, 8 at the 4-bit, 4 at the 8-bit and 1 at
the quarter rate (R88, R99, R186). -/
def rateQ (fa fb : Nat) : Nat :=
  let bits_ (f : Nat) : Nat := if f = 9 ∨ f = 0xF then 8 else if f = 0xE then 16 else fmtBits f
  let w := Nat.max (bits_ fa) (bits_ fb)
  if w ≤ 2 then 16 else if w ≤ 4 then 8 else if w ≤ 8 then 4 else 1

/-- Accumulation cycles of an item and the largest intake of a decoder over its blocks (R186, R302, R303). -/
def State.itemCycles (s : State) (c : Cmd) (core e : Nat) (w : WorkItem) : Nat × Nat :=
  let d := c.desc w.stage
  let record := s.itemRecord core e w
  let k := cdiv (dK d * 4) (rateQ (dAFmt d) (dBFmt d))
  let sz := bellSize (dBFmt d) (cbBig record)
  let rows := s.extLines c w.home w.stage w.rt w.ct record
  (k, (List.range 8).foldl (fun m q => Nat.max m (sumNat (rows.map (fun l => sumNat ((List.range 4).map (fun i =>
    cdiv (if l.getD (4 * q + i) [] = [] then sz.1 else sz.1 + sz.2) 2)))))) 0)

/-- The wait cycles of an item whose accumulation ends are charged to its Bell: what the intake adds to K_cyc, and, where
extensions were read, the time beyond that (R303, R324, log entry 128). -/
def State.bellWaits (s : State) (c : Cmd) (core e : Nat) (w : WorkItem) : State :=
  if !dBell (c.desc w.stage) then s
  else
    let (k, i) := s.itemCycles c core e w
    let spent := (s.now - w.started) * 3 / 2
    let ext := if (s.engine core e).bell.extDone = [] then 0 else spent - Nat.max k i
    s.modEngine core e (fun g => { g with bell := { g.bell with stats := lbump g.bell.stats 1 (Nat.max k i - k + ext) } })

/-- Verdict of a tile's check applied: re-run, unresolved, or on to `next` with the status so far. -/
def State.verdict (s : State) (core e : Nat) (w : WorkItem) (res : CheckRes) (status : Word16)
    (next : State → Word16 → State) : State :=
  if res = .fail ∧ !stHas status stUNRESOLVED then
    if w.checkFail then next (s.unresolved (engNo core e) w) (status ||| stUNRESOLVED ||| stPOISON) else s.failTile core e w
  else next s status

/-- ACCUMULATION_DONE: the last reduction step of the running item and the check of its checksum column are done
(R100 to R106, R182, R183, R208 to R215, R223, R225). -/
def execAccumulationDone (me : EngineId) (flips : AccFlips) (errs : BoreErrs) (s : State) :
    Host.Outcome State Fault Refusal :=
  let g := s.engine me.core me.engine
  .next (match g.running with
  | none => s
  | some (w, i) =>
    match s.cmdOf w with
    | none => s
    | some c =>
      let d := c.desc w.stage
      let segs := itemSegs d (itemFloat d (s.itemRecord me.core me.engine w))
      if s.recovering me.core then s
      else if 1 < segs then
        if g.segs < segs then s
        else State.after s ((s.bellWaits c me.core me.engine w).fillDone me.core me.engine i w d (g.set i).rows ((g.set i).status ||| stSEGMENTED)) me.core
      else
        let (u, ok) := s.bellReach c me.core me.engine w (cdiv (dK d) 32)
        if !ok then State.after s u me.core
        else
          let u := u.fillFinds c me.core me.engine w errs
          let a := u.accumulate c me.core me.engine w 0 (dK d) s.draws flips
          let t : State := { u.bellWaits c me.core me.engine w with draws := s.draws + 4096 }
          State.after s (t.verdict me.core me.engine w a.res (a.status (dCheck d)) (fun t st =>
            t.fillDone me.core me.engine i w d a.rows st)) me.core)

/-- SEGMENT_DONE: one segment of 4,096 steps is checked and added into the set that holds the running total; the addition
is checked row by row (R213 to R215). -/
def execSegmentDone (me : EngineId) (flips addFlips : AccFlips) (errs : BoreErrs) (s : State) :
    Host.Outcome State Fault Refusal :=
  let g := s.engine me.core me.engine
  .next (match g.running with
  | none => s
  | some (w, i) =>
    match s.cmdOf w with
    | none => s
    | some c =>
      let d := c.desc w.stage
      let segs := itemSegs d (itemFloat d (s.itemRecord me.core me.engine w))
      if s.recovering me.core ∨ segs ≤ 1 ∨ segs ≤ g.segs then s
      else
        let (u, ok) := s.bellReach c me.core me.engine w (cdiv (Nat.min (dK d) (4096 * (g.segs + 1))) 32)
        if !ok then State.after s u me.core
        else
        let u := u.fillFinds c me.core me.engine w errs
        let a := u.accumulate c me.core me.engine w (4096 * g.segs) (Nat.min (dK d) (4096 * (g.segs + 1))) s.draws flips
        let t : State := { u with draws := s.draws + 4096 }
        let total := g.set i
        let st := total.status ||| a.status true
        let old := if g.segs = 0 then a.rows.map (fun l => l.map (fun _ => (0 : Word32))) else total.rows
        let new_ := (List.zip (List.range a.rows.length) (List.zip old a.rows)).map (fun q =>
          (List.zip (List.range 32) (List.zipWith f32Add q.2.1 q.2.2)).map (fun p => flipAt addFlips q.1 p.1 p.2))
        let sum := if a.poison then CheckRes.skip
          else CheckRes.all (List.zipWith (fun (o : List Word32 × List Word32) n => checkAdd o.1 o.2 n) (List.zip old a.rows) new_)
        let res := CheckRes.both a.res sum
        let st := if sum = .skip ∧ !a.poison then st ||| stSKIPPED else st
        let made := (List.zip (List.zip old.flatten a.rows.flatten) new_.flatten).any (fun q =>
          (f32 q.2).isNan && !(f32 q.1.1).isNan && !(f32 q.1.2).isNan)
        let st := if made then st ||| stNAN_OUT else st
        State.after s (t.verdict me.core me.engine w res st (fun t st =>
          (t.modEngine me.core me.engine (fun g =>
            { (g.putSet i { total with rows := new_, status := st }) with segs := g.segs + 1 })).progress me.core me.engine)) me.core)

/-! ### The fused conversion (R145 to R151, R161, R203, R206, R394, R395) -/

/-- What a conversion makes of one row: its stored codes, micro-exponent, statistics so far and status. -/
structure RowOut where
  codes : List (Option Nat)
  e : Nat
  stats : TileStats
  status : Word16
  deriving DecidableEq, Repr

/-- Code of −∞ in an output format (R395). -/
def minusInf (fmt : Nat) : Nat := if fmt = 0xC then 0xFC00 else 0xFF80

/-- One row of a tile converted. -/
def State.convertRow (s : State) (c : Cmd) (w : WorkItem) (float : Bool) (o : OutCtl) (acc : List Word32) (row : Nat) (t : TileStats)
    (status : Word16) : RowOut :=
  let d := c.desc w.stage
  let r := 64 * w.rt + row
  let cols := Nat.min 32 (dN d - 32 * w.ct)
  let za := actZero d
  let ins : List (Option FVal) := (List.range cols).map (fun j =>
    let col := 32 * w.ct + j
    if dOp d = 3 ∧ !s.scoreKept c w.home w.stage r col then none
    else some (convIn float (acc.getD j 0) za (s.convVec c w.home w.stage r col) o.sOut))
  let seg := o.segment ins
  let fill : Option Nat := if dOp d = 3 then some (minusInf o.fmt) else none
  let codes := seg.1.map (fun e => match e with | some x => some x.code | none => fill)
  let gathered := (List.zip ins seg.1).foldl (fun (q : TileStats × Word16) p =>
    match p.1, p.2 with
    | some v, some x => (q.1.add o row (FVal.mul v o.sOut) x, q.2 ||| x.status)
    | _, _ => q) (t, status)
  let made := fmtHasNan o.fmt && (List.range cols).any (fun j =>
    match ins.getD j none with
    | none => false
    | some v => convMakesNan float (acc.getD j 0) (s.convVec c w.home w.stage r (32 * w.ct + j)) o.sOut v)
  { codes := codes, e := seg.2, stats := gathered.1, status := gathered.2 ||| (if made then stNAN_OUT else 0) }

/-- A tile converted and written. -/
def State.convertTile (s : State) (c : Cmd) (core e i : Nat) (w : WorkItem) (a : AccSet) : State :=
  let d := c.desc w.stage
  let float := a.float
  let h := c.map w.stage (dOH d)
  let o := c.outCtl w.stage
  let poison := stHas a.status stPOISON || (!dRaw d && s.convPoisoned c w.home w.stage)
  let status := a.status ||| (if poison then stPOISON else 0)
  let cols := Nat.min 32 (dN d - 32 * w.ct)
  let done : State × TileStats × Word16 :=
    if dRaw d then
      ((List.zip (List.range a.rows.length) a.rows).foldl (fun t q =>
        t.bufWrite w.home h (outRow d (64 * w.rt + q.1) + 128 * w.ct)
          (((q.2.take cols).map (fun x => toLe 4 x.toNat)).flatten) poison) s, {}, status)
    else
      (List.zip (List.range a.rows.length) a.rows).foldl (fun (q : State × TileStats × Word16) (p : Nat × List Word32) =>
        let r := q.1.convertRow c w float o p.2 p.1 q.2.1 q.2.2
        (q.1.writeSegment w.home h d (64 * w.rt + p.1) w.ct 0 o.sWord r.codes r.e poison, r.stats, r.status)) (s, {}, status)
  let t := if dMicro d then ((List.range 64).drop a.rows.length).foldl (fun t r =>
      t.writeMasked w.home h d (64 * w.rt + r) w.ct 0 poison) done.1 else done.1
  let t := if dRaw d then t else t.writeStats w.home c w.stage w.rt w.ct done.2.1 poison
  let t := t.modEngine core e (fun g => (g.putSet i {}).freeSets w none)
  let t := t.modCmdOf w (fun c => { c with
    ringWrote := addNew c.ringWrote ((outSlots h d w.rt w.ct).map (fun i => (dOH d, i)) ++ c.ringSlots w.stage (c.statRanges w.stage w.rt w.ct))
    ringRead := addNew c.ringRead (s.readSlots c w float) })
  t.itemDone core e w done.2.2 done.2.1.maxAbs

/-- The set whose conversion is next: the one whose item started first (R183). -/
def Engine.oldest (g : Engine) (st : SetState) : Option (Nat × AccSet × WorkItem) :=
  let l := [(0, g.set0), (1, g.set1)].filterMap (fun q => if q.2.state = st then q.2.item.map (fun w => (q.1, q.2, w)) else none)
  bestBy (fun a b => decide (a.2.2.started < b.2.2.started)) l

/-- A conversion stalls: on a slot of its conversion block that is empty, or on a slot that it writes and that is full of
another's data (R356). -/
def State.convStalled (s : State) (c : Cmd) (w : WorkItem) : Bool :=
  let d := c.desc w.stage
  !s.slotsFull w.home (c.ringSlots w.stage (c.convRanges w.stage w.rt w.ct))
    || s.outStalled w.home (dOH d) c (outSlots (c.map w.stage (dOH d)) d w.rt w.ct)
    || s.outStalled w.home (dVecH d) c ((c.ringSlots w.stage (c.statRanges w.stage w.rt w.ct)).map Prod.snd)

/-- CONVERSION_DONE: the conversion of a CONVERTING set has written its tile, and the set is FREE; a ring slot can stall it
(R145 to R151, R161, R183, R203, R205 to R207, R356, R394, R395). -/
def execConversionDone (me : EngineId) (errs : BoreErrs) (s : State) : Host.Outcome State Fault Refusal :=
  .next (if s.recovering me.core then s
  else
    match (s.engine me.core me.engine).oldest .converting with
    | none => s
    | some (i, a, w) =>
      match s.cmdOf w with
      | none => s
      | some c =>
        if s.convStalled c w then s
        else
          let t := s.boreFinds w.home (c.mapped w.stage (c.convRanges w.stage w.rt w.ct)) errs
          State.after s (t.convertTile c me.core me.engine i w a) me.core)

end Sys2Proof.Machine
end

