-- ==== Sys2Proof/Machine/Memory.lean ====
section
/-! DEFINITION. The memory system (11): requests at the HBM controllers, the Windchest, the scrubber and the event log. -/

namespace Sys2Proof.Machine

/-! ### Controllers (R464 to R468, R505) -/

/-- A counter of a stack: corrected, uncorrectable, poison-signature writes, scrub passes. -/
def State.hbmCount (s : State) (stack i n : Nat) : State :=
  { s with mem := { s.mem with hbmErrors := bumpIn s.mem.hbmErrors 4 stack i n } }

/-- Lines given the poison signature. -/
def State.poisonLines (s : State) (l : List Nat) : State :=
  { s with mem := { s.mem with poison := l.foldl nins s.mem.poison } }

/-- What the check of a demand read finds: corrections and uncorrectable errors are counted, and a line that cannot be
corrected keeps the poison signature (R466, R467, R505). -/
def State.hbmChecked (s : State) (a : Nat) (ecc : EccResult) : State :=
  match ecc with
  | .clean => s
  | .corrected => s.hbmCount (stackOf a) 0 1
  | .uncorrectable => ((s.hbmCount (stackOf a) 1 1).hbmCount (stackOf a) 2 1).poisonLines [a / 64]

/-- A refused request writes a MEM_RANGE event (R464). -/
def State.rangeEvent (s : State) (owner a : Nat) : State :=
  s.logEvent 0x600A memRANGE.toNat 0x15 (stackOf a) [(8, owner), (64, a)]

/-- A write that the owner check has passed: poisoned lines that it stores are counted (R467, R468). -/
def State.hbmStore (s : State) (a : Nat) (bs : List Byte) (poison : Bool) : State :=
  let t := s.hbmWrite a bs poison
  if poison then t.hbmCount (stackOf a) 2 (linesOf a bs.length).length else t

/-- A write at the controllers by an owner: dropped, with its event, where the range is not the owner's (R464, R467, R468). -/
def State.hbmWriteAs (s : State) (owner a : Nat) (bs : List Byte) (poison : Bool) : State :=
  if !s.ownedBy owner a bs.length then s.rangeEvent owner a else s.hbmStore a bs poison

/-- The identity of a request as 0x3003 numbers owners. -/
def hbmOwnerOf (i : HbmId) : Nat := match i with | .partition p => p.val | .module _ => 0xFE

/-- The owner check passes a request: the range is the requester's own, or a hub agent's under a grant (R464, R631). -/
def State.mayAccess (s : State) (i : HbmId) (a n : Nat) (write : Bool) : Bool :=
  s.ownedBy (hbmOwnerOf i) a n || (match i with | .partition _ => false | .module g => s.granted g a n write)

/-! ### The Windchest (R470 to R473) -/

/-- Slice and set of a 128-byte line (R470). -/
def wcSlice (line : Nat) : Nat :=
  (match hbmPlace (line * 128) with | some (d, _) => d | none => 0) * 8 + Config.wcSlice line % 8
def wcSet (line : Nat) : Nat := wcSlice line * 3072 + Config.wcSet line % 3072

/-- A read of one line passes through its slice: a hit becomes the most recently used; a miss is fetched for the owner of its extent,
unless a fetch of the line is under way or the line is of the module region. The first 64 misses of a slice hold its trackers, and
the rest wait for one (R471 to R473). -/
def State.wcRead (s : State) (line : Nat) : State :=
  let sl := wcSlice line
  let entries := kgetD s.mem.sets (wcSet line) []
  let count (i : Nat) (m : MemSys) : MemSys := { m with wcStats := bumpIn m.wcStats 4 sl i 1 }
  match entries.find? (fun q => q.2 == line) with
  | some q => { s with mem := count 0 { s.mem with sets := kset s.mem.sets (wcSet line) (entries.filter (fun x => x != q) ++ [q]) } }
  | none =>
    let l := kgetD s.mem.misses sl []
    if l.any (fun m => m.line == line) then { s with mem := count 2 s.mem }
    else match s.hbmOwner (line * 128) with
      | none | some 0xFE => s
      | some p => { s with mem := count 1 { s.mem with misses := kset s.mem.misses sl (l ++ [{ line := line, part := some p }]) } }

/-- Lines of 128 bytes that a range touches. -/
def wcLines (a n : Nat) : List Nat := if n = 0 then [] else (List.range ((a + n - 1) / 128 - a / 128 + 1)).map (· + a / 128)

/-- A read passes through the Windchest. -/
def State.wcReads (s : State) (a n : Nat) : State := (wcLines a n).foldl State.wcRead s

/-- The line is held by its slice. -/
def State.wcHolds (s : State) (a : Nat) : Bool := (kgetD s.mem.sets (wcSet (a / 128)) []).any (fun q => q.2 == a / 128)

/-- HBM_REQUEST: a controller checks a request against the owner of the extent and the grants, and serves or refuses it; an uncorrectable
line is delivered poisoned and keeps the signature, a poisoned write leaves the signature (R464 to R468, R471, R473, R505,
R631). -/
def execHbmRequest (die : Fin 2) (source : HbmId) (addr : BitVec 40) (op : HbmOp) (ecc : EccResult) (s : State) :
    Host.Outcome State Fault Refusal :=
  let a := addr.toNat
  let owner := hbmOwnerOf source
  let here := (hbmPlace a).map Prod.fst == some die.val
  .next (match op with
  | .read n =>
    if !here || !s.mayAccess source a n false then s.rangeEvent owner a
    else
      let hit := s.wcHolds a
      let t := s.wcReads a n
      if hit then t else t.hbmChecked a ecc
  | .write bs poison =>
    if !here || !s.mayAccess source a bs.length true then s.rangeEvent owner a else s.hbmStore a bs poison)

/-- Ways of a die that a partition's fills may take: its own, or the common ways where it has none (R472). -/
def Persist.fillWays (p : Persist) (part die : Nat) : List Nat :=
  let own := match kget? p.parts part with | none => 0 | some r => r.ways.getD die 0
  let taken := p.parts.foldl (fun m q => m ||| q.2.ways.getD die 0) 0
  (List.range 16).filter (fun w => if own = 0 then !bit taken w else bit own w)

/-- WINDCHEST_FILL: the slice's oldest missed line returns and goes to an eligible way (R472, R473). -/
def execWindchestFill (slice : Fin 16) (s : State) : Host.Outcome State Fault Refusal :=
  .next (match kgetD s.mem.misses slice [] with
  | [] => s
  | m :: rest =>
    let key := wcSet m.line
    let entries := kgetD s.mem.sets key []
    let ways := s.persist.fillWays (m.part.getD 0xFE) (slice.val / 8)
    let mem := { s.mem with misses := if rest = [] then kdel s.mem.misses slice else kset s.mem.misses slice rest }
    match ways.find? (fun w => !entries.any (fun q => q.1 == w)) with
    | some w => { s with mem := { mem with sets := kset mem.sets key (entries ++ [(w, m.line)]) } }
    | none =>
      match entries.find? (fun q => ways.contains q.1) with
      | none => { s with mem := mem }
      | some q =>
        { s with mem := { mem with
          sets := kset mem.sets key (entries.filter (fun x => x != q) ++ [(q.1, m.line)])
          wcStats := bumpIn mem.wcStats 4 slice 3 1 } })

/-- Every slice of a die invalidates the lines of an extent (R474). -/
def MemSys.wcInvalidate (m : MemSys) (die ext : Nat) : MemSys :=
  let a := (die * 0x4000000000 + ext * extentBytes) / 128
  let inside (l : Nat) : Bool := decide (a ≤ l) && decide (l < a + extentBytes / 128)
  { m with
    sets := m.sets.filterMap (fun q =>
      let l := q.2.filter (fun x => !inside x.2)
      if l = [] then none else some (q.1, l))
    misses := m.misses.filterMap (fun q =>
      let l := q.2.filter (fun x => !inside x.line)
      if l = [] then none else some (q.1, l)) }

/-! ### The scrubber (R469, R506) -/

/-- Lines of a stack, and the address of one of them. -/
def stackLines : Nat := 402653184
def stackLine (stack k : Nat) : Nat :=
  stack / 6 * 0x4000000000 + (k / 64 * 6 + stack % 6) * 4096 + k % 64 * 64

/-- HBM is trained and its controllers run. -/
def State.hbmUp (s : State) : Bool := s.aon.boot == .firmware || s.aon.boot == .ready

/-- SCRUB_STEP: the scrubber reads the next line of its stack (R467, R469, R505, R506). -/
def execScrubStep (stack : Fin 12) (ecc : EccResult) (s : State) : Host.Outcome State Fault Refusal :=
  .next (if !s.hbmUp then s
  else
    let k := kgetD s.mem.scrub stack 0
    let a := stackLine stack k
    let last := decide (stackLines ≤ k + 1)
    let t : State := { s with mem := { s.mem with
      scrub := kset s.mem.scrub stack (if last then 0 else k + 1)
      scrubStart := if k = 0 then kset s.mem.scrubStart stack s.now else s.mem.scrubStart } }
    let t := if last then t.hbmCount stack 3 1 else t
    let t := t.hbmChecked a ecc
    match ecc with
    | .uncorrectable => t.logEvent 0x6009 0 0x15 stack [(8, stack.val), (64, a)]
    | _ => t)

/-! ### The event log (R497 to R499, R530) -/

/-- Records of the log. -/
def logRecords : Nat := 262144

/-- Order of commits: TIME_NS, then SOURCE_KIND, then SOURCE_INDEX. -/
def EventRec.before (a b : EventRec) : Bool :=
  decide (a.time < b.time)
    || (a.time == b.time && (decide (a.kind < b.kind) || (a.kind == b.kind && decide (a.index < b.index))))

/-- A record goes to the log. -/
def Recovery.append (r : Recovery) (e : EventRec) : Recovery :=
  { r with log := ((r.eventHead, e) :: r.log).take logRecords, eventHead := r.eventHead + 1 }

/-- A record goes to the log, and the floor of the record numbers is committed when the count passes it (R561). -/
def State.appendEvent (s : State) (r : Recovery) (e : EventRec) : State :=
  let r := r.append e
  let t : State := { s with recov := r }
  if s.persist.eventFloor < r.eventHead then
    ({ t with persist := { t.persist with eventFloor := r.eventHead + 0x1000000 } } : State).commitPersist
  else t

/-- Records that the hub may commit next: of each source the one that it issued first (R498). -/
def firstOfSource : List EventRec → List EventRec
  | [] => []
  | e :: l => e :: (firstOfSource l).filter (fun x => !(x.kind == e.kind && x.index == e.index))

/-- The record that is committed next, in order of TIME_NS, if the hub has held it for 2 µs (R498). -/
def nextEvent (held : List EventRec) (now : Nat) : Option EventRec :=
  (bestBy EventRec.before (firstOfSource held)).bind (fun e => if e.time + 2000 ≤ now then some e else none)

/-- EVENT_LOG_COMMIT: firmware moves the error queue into the log's intake; of its records one that is more than 2 µs old by then
is committed at once with LATE set. The hub commits the first record, in order of TIME_NS, that it has held for 2 µs (R498, R499,
R530, R561). -/
def execEventLogCommit (s : State) : Host.Outcome State Fault Refusal :=
  .next (if !s.hbmUp then s
  else
    let late := s.recov.errors.filter (fun e => decide (e.time + 2000 < s.now))
    let held := s.recov.heldEvents ++ s.recov.errors.filter (fun e => !decide (e.time + 2000 < s.now))
    let t : State := { s with recov := { s.recov with heldEvents := held, errors := [] } }
    let t := late.foldl (fun (t : State) e => t.appendEvent t.recov { e with late := true }) t
    match nextEvent held s.now with
    | none => t
    | some e => t.appendEvent { t.recov with heldEvents := held.erase e } e)

end Sys2Proof.Machine
end

