-- ==== Sys2Proof/Machine/Channels.lean ====
section
/-! DEFINITION. Stream channels and pools (R344 to R380): passes, pieces, rings, credits of remote writes, re-arms, pool
buffers and failure. -/

namespace Sys2Proof.Machine

/-! ### A pass's sides -/

/-- Bytes of a pass. -/
def sdTotal (x : Nat) : Nat := sdRows x * sdRowBytes x

/-- Core of the handle of a side of a kind. -/
def sideCore (core x kind : Nat) : Nat := if kind = 2 then sdRemote x else core

/-- Byte offset or HBM address of position `p` of a side that is no ring. -/
def plainAt (addr stride rowBytes p : Nat) : Nat := addr + p / rowBytes * stride + p % rowBytes

/-- Slot and byte offset of position `p` in a ring, from its first slot. -/
def ringSlot (h : HandleEntry) (first p : Nat) : Nat := (first + p / h.slotBytes) % h.slots
def ringAt (h : HandleEntry) (first p : Nat) : Nat := ringSlot h first p * h.slotBytes + p % h.slotBytes

/-- The side is a ring. -/
def Channel.srcRing (c : Channel) : Bool := sdSrcKind c.desc.toNat != 0 && c.srcMap.ring
def Channel.dstRing (c : Channel) : Bool := sdDstKind c.desc.toNat != 0 && c.dstMap.ring

/-- Offset or address at the source and at the destination. -/
def Channel.srcAt (c : Channel) (p : Nat) : Nat :=
  let x := c.desc.toNat
  if c.srcRing then ringAt c.srcMap c.srcSlot p else plainAt (sdSrcAddr x) (sdSrcStride x) (sdRowBytes x) p
def Channel.dstAt (c : Channel) (p : Nat) : Nat :=
  let x := c.desc.toNat
  if c.dstRing then ringAt c.dstMap c.dstSlot p else plainAt (sdDstAddr x) (sdDstStride x) (sdRowBytes x) p

/-- Where a pass's rows are split: the HBM address of a position, or the source offset where neither side is HBM (R347). -/
def Channel.cutAt (c : Channel) (p : Nat) : Nat :=
  if sdSrcKind c.desc.toNat ≠ 0 ∧ sdDstKind c.desc.toNat = 0 then c.dstAt p else c.srcAt p

/-- The piece that position `p` lies in begins there: at the start of its row or at a 2 KiB boundary (R347). -/
def Channel.pieceStart (c : Channel) (p : Nat) : Nat :=
  p - Nat.min (p % sdRowBytes c.desc.toNat) (c.cutAt p % 2048)

/-- Bytes from position `p` to the end of its piece: of the row, or to the 2 KiB boundary; a source ring's offsets end with
the ring (R347). -/
def Channel.pieceRest (c : Channel) (p : Nat) : Nat :=
  let x := c.desc.toNat
  let n := Nat.min (sdRowBytes x - p % sdRowBytes x) (2048 - c.cutAt p % 2048)
  if sdDstKind x ≠ 0 ∧ c.srcRing then Nat.min n (c.srcMap.slots * c.srcMap.slotBytes - c.srcAt p) else n

/-- Bytes that are issued at once from position `p`: the rest of its piece, as far as the ring slots reach that it lies in,
since the first byte of a slot may have to wait (R347, R354, R355). -/
def Channel.partLen (c : Channel) (p : Nat) : Nat :=
  let n := c.pieceRest p
  let n := if c.srcRing then Nat.min n (c.srcMap.slotBytes - p % c.srcMap.slotBytes) else n
  if c.dstRing then Nat.min n (c.dstMap.slotBytes - p % c.dstMap.slotBytes) else n

/-- The piece that position `p` lies in is wholly issued and written, so that its tag is free (R347, R476). -/
def Channel.pieceOver (c : Channel) (p : Nat) : Bool :=
  let a := c.pieceStart p
  decide (a + c.pieceRest a ≤ c.issued) && !c.flight.any (fun f => c.pieceStart f.pos == a)

/-- Beats of a range of a pass: position and bytes of each. -/
def beatsOf (p n : Nat) : List (Nat × Nat) :=
  (linesOf p n).map (fun l => (Nat.max p (l * 64), Nat.min (p + n) (l * 64 + 64) - Nat.max p (l * 64)))

/-- Partition of a channel. -/
def State.chanPart (s : State) (c : Channel) : Nat := match s.ctx? c.ctx with | none => 0 | some ct => ct.part

/-- A channel of a core changed. -/
def State.modChan (s : State) (core n : Nat) (f : Channel → Channel) : State :=
  s.modCore core (fun k => { k with channels := kmod? k.channels n f })

/-- One beat read at the source. -/
def State.beatRead (s : State) (core : Nat) (c : Channel) (p n : Nat) : List Byte × Bool :=
  let x := c.desc.toNat
  let a := c.srcAt p
  if sdSrcKind x = 0 then s.hbmFetch (s.chanPart c) a n
  else
    let k := sideCore core x (sdSrcKind x)
    (s.bufRead k c.srcMap a n, s.bufPoisoned k c.srcMap a n)

/-- One beat written at the destination. -/
def State.beatWrite (s : State) (core : Nat) (c : Channel) (p : Nat) (bs : List Byte) (poison : Bool) : State :=
  let x := c.desc.toNat
  let a := c.dstAt p
  if sdDstKind x = 0 then s.hbmWriteAs (s.chanPart c) a bs poison
  else s.bufWrite (sideCore core x (sdDstKind x)) c.dstMap a bs poison

/-- A piece written beat by beat, each with its poison (R378). -/
def State.pieceWrite (s : State) (core : Nat) (c : Channel) (q : Piece) : State :=
  (List.zip (beatsOf q.pos q.len) q.poison).foldl (fun t b =>
    t.beatWrite core c b.1.1 (slice q.data (b.1.1 - q.pos) b.1.2) b.2) s

/-! ### Passes begin and end (R345, R349, R362, R363, R366) -/

/-- A pass starts: mappings are copied, writing begins at WR_PTR (R342, R354). -/
def State.startPass (s : State) (core n : Nat) (desc : BitVec 256) (ctx seq : Nat) : State :=
  let x := desc.toNat
  let entry (kind h : Nat) : HandleEntry := if kind = 0 then {} else (s.core (sideCore core x kind)).handle h
  let d := entry (sdDstKind x) (sdDstH x)
  s.modCore core (fun k => { k with channels := kmod k.channels n {} (fun c =>
    { c with state := .running, desc := desc, ctx := ctx, seq := seq, srcMap := entry (sdSrcKind x) (sdSrcH x), dstMap := d
             issued := 0, flight := [], tags := 0, owed := [], dstSlot := d.wrPtr, creditAsked := false, poolSince := none }) })

/-- The credit of a plain remote handle that the channel took for its pass returns (R366). -/
def State.returnPlainCredit (s : State) (core n : Nat) : State :=
  let c := s.chan core n
  let x := c.desc.toNat
  if sdDstKind x = 2 ∧ !c.dstRing then s.modCore (sdRemote x) (fun k => k.putCredits (sdDstH x) (.channel core n) 0) else s

/-- The pending re-arm is applied, or the channel goes idle or free (R361 to R363). -/
def State.nextPass (s : State) (core n : Nat) : State :=
  let c := s.chan core n
  match c.pending with
  | some (src, dst, stop, seq) =>
    if stop then s.freeChannel core n
    else (s.modChan core n (fun c => { c with pending := none })).startPass core n
      (BitVec.ofNat 256 (rearmed c.desc.toNat src dst)) c.ctx seq
  | none =>
    if sdPersistent c.desc.toNat then s.modChan core n (fun c => { c with state := .idle }) else s.freeChannel core n

/-- Every piece of the pass has been written: SEM is signalled, then a pending re-arm is applied (R349, R355, R362). -/
def State.endPass (s : State) (core n : Nat) : State :=
  let c := s.chan core n
  let x := c.desc.toNat
  let next := if c.srcRing then ringSlot c.srcMap c.srcSlot (sdTotal x - 1 + c.srcMap.slotBytes) else c.srcSlot
  let t := s.modChan core n (fun c => { c with srcSlot := next })
  (((t.returnPlainCredit core n).semsetSignal c.ctx (sdSem x)).nextPass core n)

/-! ### Destination rings -/

/-- A ring slot of ordinal `q` of the pass has all its bytes written: its full bit is set and WR_PTR advances (R354). -/
def State.dstFilled (s : State) (core : Nat) (c : Channel) (q : Nat) : State :=
  let x := c.desc.toNat
  let k := sideCore core x (sdDstKind x)
  let slot := (c.dstSlot + q) % c.dstMap.slots
  (s.fillSlot k (sdDstH x) slot).modHandle k (sdDstH x) (fun h => { h with wrPtr := (h.wrPtr + 1) % h.slots })

/-- Pieces of an ordinal are still in flight, or not all issued. -/
def Channel.ordinalOpen (c : Channel) (q : Nat) : Bool :=
  let sb := c.dstMap.slotBytes
  decide (c.issued < Nat.min ((q + 1) * sb) (sdTotal c.desc.toNat)) || c.flight.any (fun f => f.pos / sb == q)

/-- The slot of ordinal `q` may take its first byte. -/
def State.dstEmpty (s : State) (core : Nat) (c : Channel) (q : Nat) : Bool :=
  let x := c.desc.toNat
  let h := (s.core (sideCore core x (sdDstKind x))).handle (sdDstH x)
  !h.isFull ((c.dstSlot + q) % c.dstMap.slots) && (decide (q < c.dstMap.slots) || !c.ordinalOpen (q - c.dstMap.slots))

/-- One credit of the remote destination is held, by the channel's context or by the channel. -/
def State.creditHeld (s : State) (core n : Nat) (c : Channel) : Option CreditHolder :=
  let x := c.desc.toNat
  let k := s.core (sdRemote x)
  if k.creditsOf (sdDstH x) (.context c.ctx) ≠ 0 then some (.context c.ctx)
  else if k.creditsOf (sdDstH x) (.channel core n) ≠ 0 then some (.channel core n)
  else none

/-- A credit is spent on a slot of the remote ring (R366, R367, R371). -/
def State.spendCredit (s : State) (core : Nat) (c : Channel) (o : CreditHolder) (q : Nat) : State :=
  let x := c.desc.toNat
  s.modCore (sdRemote x) (fun k =>
    let k := k.putCredits (sdDstH x) o (k.creditsOf (sdDstH x) o - 1)
    { k with spent := kset k.spent (sdDstH x * 64 + (c.dstSlot + q) % c.dstMap.slots) core })

/-- The channel asks the target router for one credit (R366, R368). -/
def State.askCredit (s : State) (core n : Nat) (c : Channel) : State :=
  if c.creditAsked then s
  else
    let x := c.desc.toNat
    (s.modCore (sdRemote x) (fun k => { k with creditReqs := k.creditReqs ++ [(sdDstH x, .channel core n, 1, s.now)] })).modChan
      core n (fun c => { c with creditAsked := true })

/-! ### Failure (R375, R380, R514) -/

/-- Ordinals of a ring destination that the pass has not filled. -/
def Channel.unfilled (c : Channel) : List Nat :=
  (List.range (cdiv (sdTotal c.desc.toNat) c.dstMap.slotBytes)).filter c.ordinalOpen

/-- Unfilled slots of the pass are marked full in their order, as far as they are empty and credit covers them; a slot that has
its buffer takes zero beats marked poisoned. The ordinals still owed are noted, and the credit that the first needs is asked for
(R380). -/
def State.failRing (s : State) (core n : Nat) (c : Channel) : List Nat → State
  | [] => s.modChan core n (fun c => { c with owed := [] })
  | q :: l =>
    let x := c.desc.toNat
    let k := sideCore core x (sdDstKind x)
    let slot := (c.dstSlot + q) % c.dstMap.slots
    let own := decide (q * c.dstMap.slotBytes < c.issued)
    let zero (t : State) : State := (List.range c.dstMap.slotLines).foldl (fun t i =>
      let o := slot * c.dstMap.slotBytes + i * 64
      if t.poolHole k c.dstMap o then t else t.bufWrite k c.dstMap o (List.replicate 64 0) true) t
    let wait (t : State) : State := t.modChan core n (fun c => { c with owed := q :: l })
    if own then ((zero s).dstFilled core c q).failRing core n c l
    else if ((s.core k).handle (sdDstH x)).isFull slot then wait s
    else if sdDstKind x = 2 ∧ (kget? (s.core k).spent (sdDstH x * 64 + slot)).isNone then
      match s.creditHeld core n c with
      | none => (wait s).askCredit core n (s.chan core n)
      | some o => (((zero s).spendCredit core c o q).dstFilled core c q).failRing core n c l
    else ((zero s).dstFilled core c q).failRing core n c l

/-- A channel fails: the rest of its pass is given out as poison, SEM is signalled, a completion record carries the code,
and an event is written (R380). -/
def State.failChannel (s : State) (core n : Nat) (code : Word16) : State :=
  let c := s.chan core n
  let x := c.desc.toNat
  let closed := sdDstKind x = 2 ∧ s.fenced (sdRemote x)
  let t := if c.dstRing ∨ closed then s else c.flight.foldl (fun t q => t.pieceWrite core c q) s
  let t :=
    if closed ∨ c.dstRing then t
    else (beatsOf c.issued (sdTotal x - c.issued)).foldl (fun t b =>
      t.beatWrite core c b.1 (List.replicate b.2 0) true) t
  let t := (t.returnPlainCredit core n).dropCredits (.channel core n)
  let t := t.semsetSignal c.ctx (sdSem x)
  let t := t.writeRecord c.ctx { seq := c.seq, code := code }
  let t := t.modCore core (fun k => { k with
    tags := k.tags - c.tags, poolStats := lbump k.poolStats 1 (b2n (code == memPOOL_EXHAUSTED)) })
  let t := t.modChan core n (fun c =>
    { c with state := .failed, code := code, flight := [], tags := 0, pending := none, poolSince := none, creditAsked := false })
  let t := if c.dstRing ∧ !closed then t.failRing core n c c.unfilled else t
  let t := if code = recFENCED then t.markFenced core c.ctx else t
  t.logEvent 0x8005 code.toNat 0x04 (core * 64 + n) [(8, core), (8, n), (16, (code.toNat : Int))]

/-! ### Commands (R345, R360 to R363) -/

/-- STREAM_START: the channel is armed and the command completes (R342, R345, R346). -/
def execStreamStart (ctx : Nat) (s : State) : Host.Outcome State Fault Refusal :=
  .next (match s.toIssue ctx 0x20 with
  | none => s
  | some (core, c) =>
    let d := c.desc 0
    let n := ssChan d
    if (s.chan core n).state ≠ .free then State.after s (s.rejectRunning core c cmdSTREAM) core
    else
      let t := s.modCmd core c.ctx c.seq (·.drain 0)
      State.after s (t.startPass core n (BitVec.ofNat 256 (ssDesc d)) c.ctx c.seq) core)

/-- A re-arm reaches its channel (R361 to R363). -/
def State.rearm (s : State) (core : Nat) (c : Cmd) : State :=
  let d := c.desc 0
  let n := raChan d
  let ch := s.chan core n
  let src := if raSetSrc d then some (raSrc d) else none
  let dst := if raSetDst d then some (raDst d) else none
  let t := s.modCmd core c.ctx c.seq (·.drain 0)
  match ch.state with
  | .idle => (t.modChan core n (fun ch => { ch with pending := some (src, dst, raStop d, c.seq) })).nextPass core n
  | .running =>
    let t := t.modChan core n (fun ch => { ch with pending := some (src, dst, raStop d, c.seq), overrun := ch.overrun || ch.pending.isSome })
    if ch.pending.isSome then
      (t.modCore core (fun k => { k with poolStats := lbump k.poolStats 2 1 })).logEvent 0x8004 0 0x04 (core * 64 + n) [(8, core), (8, n)]
    else t
  | _ => s.rejectRunning core c cmdSTREAM

/-- STREAM_REARM without STOP: one more pass, at once or after the one that runs (R360 to R362). -/
def execStreamRearm (ctx : Nat) (s : State) : Host.Outcome State Fault Refusal :=
  .next (match s.toIssue ctx 0x21 with
  | none => s
  | some (core, c) => if raStop (c.desc 0) then s else State.after s (s.rearm core c) core)

/-- A re-arm with STOP: the channel is freed, at once or after the pass that runs (R360 to R363). -/
def execStreamStop (ctx : Nat) (s : State) : Host.Outcome State Fault Refusal :=
  .next (match s.toIssue ctx 0x21 with
  | none => s
  | some (core, c) => if raStop (c.desc 0) then State.after s (s.rearm core c) core else s)

/-! ### Pieces (R347, R349, R354, R355, R366, R375, R476) -/

/-- The channel waits for a pool buffer of the slot it is about to write (R375). -/
def State.poolWait (s : State) (core n : Nat) : State :=
  s.modChan core n (fun c => { c with poolSince := some (c.poolSince.getD s.now) })

/-- The channel may write the first byte of the next ring slot: the slot is empty, credit and a pool buffer are held. The
state says what was taken or asked for on the way. -/
def State.takeSlot (s : State) (core n : Nat) (c : Channel) (q : Nat) : State × Bool :=
  let x := c.desc.toNat
  let k := sideCore core x (sdDstKind x)
  let key := (c.dstSlot + q) % c.dstMap.slots
  if !s.dstEmpty core c q then (s, false)
  else
    let covered := (kget? (s.core k).spent (sdDstH x * 64 + key)).isSome
    let credit : State × Bool :=
      if sdDstKind x ≠ 2 ∨ covered then (s, true)
      else match s.creditHeld core n c with
        | some o => (s.spendCredit core c o q, true)
        | none => (s.askCredit core n c, false)
    if !credit.2 then credit
    else if !c.dstMap.pool ∨ (kget? (s.core k).poolUsed (sdDstH x * 64 + key)).isSome then credit
    else if s.poolGrantable k (sdDstH x) then
      ((credit.1.poolTake k (sdDstH x) key).modChan core n (fun c => { c with poolSince := none }), true)
    else (credit.1.poolWait core n, false)

/-- What a channel must hold before the part of a piece at its position: data at the source, a transfer tag for the piece, and a
slot, or the credit of a plain remote handle (R347, R354, R355, R366, R477). -/
def State.pieceReady (s : State) (core n : Nat) (c : Channel) : State × Bool :=
  let x := c.desc.toNat
  let src := !c.srcRing || ((s.core (sideCore core x (sdSrcKind x))).handle (sdSrcH x)).isFull (ringSlot c.srcMap c.srcSlot c.issued)
  if !src then (s, false)
  else if c.pieceStart c.issued = c.issued ∧ !(s.core core).tagFree true then s.takeTag core (48 + n)
  else if c.dstRing then
    if c.issued % c.dstMap.slotBytes = 0 then s.takeSlot core n c (c.issued / c.dstMap.slotBytes) else (s, true)
  else if sdDstKind x = 2 ∧ c.issued = 0 ∧ (s.creditHeld core n c).isNone then (s.askCredit core n c, false)
  else (s, true)

/-- The part of a piece at a channel's position is read at the source; with its first byte the piece takes its transfer tag; a
ring slot read to its last byte drains (R329, R347, R355, R476). -/
def State.issuePiece (s : State) (core n : Nat) (c : Channel) (errs : BoreErrs) : State :=
  let x := c.desc.toNat
  let p := c.issued
  let len := c.partLen p
  let t := if c.pieceStart p = p then
      ((s.takeTag core (48 + n)).1).modChan core n (fun c => { c with tags := c.tags + 1 })
    else s
  let t := if sdSrcKind x = 0 then t.wcReads (c.srcAt p) len
    else t.boreFinds (sideCore core x (sdSrcKind x)) [(c.srcMap, c.srcAt p, len)] errs
  let beats := (beatsOf p len).map (fun b => t.beatRead core c b.1 b.2)
  let t := t.modChan core n (fun c => { c with
    issued := p + len, flight := c.flight ++ [{ pos := p, len := len, data := (beats.map Prod.fst).flatten, poison := beats.map Prod.snd }] })
  let ends := c.srcRing && ((p + len) % c.srcMap.slotBytes == 0 || p + len == sdTotal x)
  let t := if ends then t.drainSlot (sideCore core x (sdSrcKind x)) (sdSrcH x) (ringSlot c.srcMap c.srcSlot p) else t
  t.progress core (48 + n)

/-- A side of the pass lies in a fenced core (R513, R514). -/
def State.sideFenced (s : State) (c : Channel) : Bool :=
  let x := c.desc.toNat
  (sdSrcKind x == 2 || sdDstKind x == 2) && s.fenced (sdRemote x)

/-- CHANNEL_PIECE_ISSUE: a running channel issues its next piece, or takes up the wait that holds it; a failed one marks the
ring slots full that have become empty, or that credit now covers (R329, R342, R347 to R350, R354, R355, R366, R371, R375, R378,
R380, R476, R477, R514). -/
def execChannelPieceIssue (ch : ChannelId) (errs : BoreErrs) (s : State) : Host.Outcome State Fault Refusal :=
  let c := s.chan ch.core ch.chan
  .next (if s.recovering ch.core then s
  else if c.state = .failed then
    (if c.owed = [] ∨ s.sideFenced c then s else State.after s (s.failRing ch.core ch.chan c c.owed) ch.core)
  else if c.state ≠ .running ∨ sdTotal c.desc.toNat ≤ c.issued then s
  else if s.sideFenced c then State.after s (s.failChannel ch.core ch.chan recFENCED) ch.core
  else
    let q := s.pieceReady ch.core ch.chan c
    if q.2 then State.after s (q.1.issuePiece ch.core ch.chan (q.1.chan ch.core ch.chan) errs) ch.core else q.1)

/-- CHANNEL_PIECE_WRITTEN: a piece in flight, or a part of one, is written at the destination, in any order; its tag is free with
its last byte. A ring slot whose bytes are all written becomes full, and the last piece ends the pass (R347, R349, R350, R354,
R362, R378, R467, R476, R514). -/
def execChannelPieceWritten (core : Fin 8) (chan : Fin 64) (piece : Nat) (s : State) : Host.Outcome State Fault Refusal :=
  let c := s.chan core chan
  .next (if s.recovering core ∨ c.state ≠ .running then s
  else match c.flight[piece]? with
  | none => s
  | some q =>
    if s.sideFenced c then State.after s (s.failChannel core chan recFENCED) core
    else
      let t := s.pieceWrite core c q
      let t := t.modChan core chan (fun c => { c with flight := c.flight.eraseIdx piece })
      let over_ := (t.chan core chan).pieceOver q.pos
      let t := if over_ then (t.freeTags core 1).modChan core chan (fun c => { c with tags := c.tags - 1 }) else t
      let c' := t.chan core chan
      let ord := q.pos / c.dstMap.slotBytes
      let t := if c.dstRing ∧ !c'.ordinalOpen ord then t.dstFilled core c ord else t
      let t := t.progress core (48 + chan)
      let t := if c'.issued = sdTotal c.desc.toNat ∧ c'.flight = [] then t.endPass core chan else t
      State.after s t core)

/-- POOL_BUFFER_TIMEOUT: a pool buffer not granted within 50 µs: the channel fails (R375, R380). -/
def execPoolBufferTimeout (core : Fin 8) (chan : Fin 64) (s : State) : Host.Outcome State Fault Refusal :=
  let c := s.chan core chan
  .next (match c.poolSince with
  | none => s
  | some t0 =>
    if c.state ≠ .running ∨ s.now < t0 + 50000 then s
    else State.after s (s.failChannel core chan memPOOL_EXHAUSTED) core)

/-- The router grants a waiting channel a buffer of a core's pool (R375). -/
def State.grantPool (s : State) (core n : Nat) : State :=
  let c := s.chan core n
  let x := c.desc.toNat
  let k := sideCore core x (sdDstKind x)
  if c.state ≠ .running ∨ c.poolSince.isNone ∨ !s.poolGrantable k (sdDstH x) then s
  else
    let slot := (c.dstSlot + c.issued / c.dstMap.slotBytes) % c.dstMap.slots
    (s.poolTake k (sdDstH x) slot).modChan core n (fun c => { c with poolSince := none })

end Sys2Proof.Machine
end

