-- ==== Sys2Proof/Machine/Dict.lean ====
section
/-! DEFINITION. The table of the object dictionary (R42, R164, R231, R324, R381, R425, R435, R453, R500, R534, R535 to R541,
R559, R580, R581, R629, R657, R693, R707): every object with its type, length, access class, rights and default. -/

namespace Sys2Proof.Machine

/-! ### Type codes (R536) and access classes (R538) -/

def tBOOL : Nat := 0x01
def tU8 : Nat := 0x02
def tU16 : Nat := 0x03
def tU32 : Nat := 0x04
def tU64 : Nat := 0x05
def tTIME : Nat := 0x0C
def tOCTETS : Nat := 0x0D
def tSTRING : Nat := 0x0E
def tTABLE : Nat := 0x0F

def aCONST : Nat := 0
def aRO : Nat := 1
def aWO : Nat := 2
def aRW : Nat := 3
def aRWB : Nat := 4
def aRWI : Nat := 5

/-- Bytes of a value of a type code; 0 for OCTETS, STRING and TABLE (R536, R537). -/
def typeSize (t : Nat) : Nat := [0, 1, 1, 2, 4, 8, 1, 2, 4, 8, 4, 8, 8, 0, 0, 0].getD t 0

/-- An object, or the records of a TABLE. -/
structure Obj where
  index : Nat
  /-- Subindex of an object that is no TABLE. -/
  sub : Nat := 0
  /-- Records of a TABLE; 0 for any other object. -/
  count : Nat := 0
  name : String
  typ : Nat
  /-- Bytes of a value or record; the most that a STRING or a variable OCTETS may have. -/
  len : Nat
  acc : Nat
  pers : Bool := false
  /-- Boundary of an RWB object (R559). -/
  bound : Nat := 0
  /-- Rights as R559 gives them: operator read and write, tenant read and write, baseboard read and write. -/
  rights : Nat
  /-- First 16 bytes of the default. -/
  dflt : List Byte := []

/-- A TABLE of `n` records. -/
def table (index n : Nat) (name : String) (len acc : Nat) (pers : Bool) (rights : Nat) : Obj :=
  { index := index, count := n, name := name, typ := tTABLE, len := len, acc := acc, pers := pers, rights := rights }

/-- An object that is no TABLE. -/
def single (index sub : Nat) (name : String) (typ len acc : Nat) (pers : Bool) (rights : Nat) : Obj :=
  { index := index, sub := sub, name := name, typ := typ, len := len, acc := acc, pers := pers, rights := rights }

/-- An object with a default other than zero. -/
def Obj.withDefault (o : Obj) (bs : List Byte) : Obj := { o with dflt := bs }

/-! ### Rights of the ranges (R581) -/

def rgId : Nat := 0x17
def rgStream : Nat := 0x0F
def rgPart : Nat := 0x07
def rgOB : Nat := 0x13
def rgPower : Nat := 0x33

/-! ### The objects, by chapter -/

/-- R580. -/
def objComm : List Obj := [
  (single 0x1000 1 "id.part_number" tSTRING 16 aCONST true rgId).withDefault ("LKT8-M288".toList.map (fun c => BitVec.ofNat 8 c.toNat)),
  (single 0x1000 2 "id.stepping" tSTRING 4 aCONST true rgId).withDefault [0x41, 0x31],
  single 0x1000 3 "id.serial" tSTRING 16 aCONST true rgId,
  single 0x1000 4 "id.made_ns" tTIME 8 aCONST true rgId,
  (single 0x1000 5 "id.dictionary_version" tU16 2 aCONST true rgId).withDefault [0x00, 0x01],
  table 0x1001 3 "id.versions" 4 aRO false rgId,
  (table 0x1100 2 "comm.port" 41 aRWI true rgId).withDefault [1, 0x8E, 0xC6],
  table 0x1101 2 "comm.mac" 6 aCONST true rgId,
  table 0x1102 3 "comm.stats" 48 aRO false rgId,
  single 0x1200 0 "time.now" tTIME 8 aRO false rgId,
  single 0x1201 0 "time.source" tU8 1 aRWI true rgId,
  single 0x1202 0 "time.state" tU8 1 aRO false rgId,
  (table 0x1300 16 "telemetry.map" 160 aRW true rgId).withDefault [0, 0, 0, 0, 0x40, 0x42, 0x0F, 0],
  table 0x1301 16 "telemetry.stats" 16 aRO false rgId,
  single 0x1400 0 "sys.restore_defaults" tU8 1 aWO false rgId,
  single 0x6040 0 "health.event_head" tU64 8 aRO true rgOB]

/-- R42. -/
def objStream : List Obj := [
  single 0x2000 1 "stream.open" tOCTETS 64 aWO false rgStream,
  single 0x2000 2 "stream.close" tU16 2 aWO false rgStream,
  (single 0x2001 1 "stream.headroom" tU16 2 aRW true rgStream).withDefault (toLe 2 64),
  (single 0x2001 2 "stream.reserve_default_ns" tU32 4 aRW true rgStream).withDefault (toLe 4 500000),
  (single 0x2001 3 "stream.hbm_fraction" tU16 2 aRW true rgStream).withDefault (toLe 2 870),
  (single 0x2001 4 "stream.bridge_fraction" tU16 2 aRW true rgStream).withDefault (toLe 2 870),
  (single 0x2001 5 "stream.port_fraction" tU16 2 aRW true rgStream).withDefault (toLe 2 768),
  single 0x2001 6 "stream.miss_alert" tBOOL 1 aRW true rgStream,
  single 0x2002 1 "stream.miss_total" tU64 8 aRO false 0x1F,
  single 0x2002 2 "stream.degraded_total" tU64 8 aRO false 0x1F,
  single 0x2002 3 "stream.open_count" tU16 2 aRO false 0x1F,
  single 0x2002 4 "stream.refused_total" tU64 8 aRO false 0x1F,
  table 0x2100 0x4000 "stream.context" 128 aRO false rgStream,
  table 0x2200 0x4000 "stream.stats" 72 aRO false rgStream,
  table 0x2300 0x100 "stream.miss_log" 32 aRO false rgStream,
  table 0x2400 8 "stream.core_load" 32 aRO false rgStream]

/-- R425, R435, R453, R500, R657. -/
def objPart : List Obj := [
  single 0x3000 1 "partition.create" tOCTETS 32 aWO true rgPart,
  single 0x3000 2 "partition.destroy" tU8 1 aWO true rgPart,
  table 0x3001 8 "partition.config" 32 aRO true rgPart,
  table 0x3002 64 "model.resident" 18 aRO false rgPart,
  (table 0x3003 288 "partition.extent" 1 aRO true rgPart).withDefault [0xFF],
  table 0x3004 16 "partition.wc_stats" 32 aRO false rgPart,
  single 0x3010 1 "model.stage" tOCTETS 16 aWO false rgStream,
  single 0x3010 2 "model.load" tU8 1 aWO false rgStream,
  single 0x3010 3 "model.remove" tU8 1 aWO false rgStream,
  table 0x3100 8 "partition.kv_spill" 1 aRWI true rgPart,
  table 0x3101 128 "partition.kv_peer" 8 aRWI true rgPart,
  (table 0x3102 8 "partition.kv_walk_bound_ns" 4 aRWI true rgPart).withDefault (toLe 4 15000),
  table 0x3103 8 "partition.kv_staging" 4 aRWI true rgPart,
  table 0x3104 8 "partition.kv_release" 8 aRO false rgPart,
  table 0x3105 8 "partition.kv_stats" 64 aRO false rgPart,
  (table 0x4000 256 "sched.tenant" 6 aRW true rgPart).withDefault [0, 0, 1],
  table 0x4001 256 "sched.usage" 16 aRO false rgPart,
  single 0x4010 1 "sched.job_submit" tOCTETS 32 aWO false rgStream,
  single 0x4010 2 "sched.job_cancel" tU16 2 aWO false rgStream,
  table 0x4011 64 "sched.job_state" 21 aRO false rgPart]

/-- R164, R127, R534. -/
def objHealth : List Obj := [
  { (table 0x5001 8 "numeric.clip_threshold" 2 aRWB true rgPart).withDefault [64] with bound := 2 },
  (table 0x5002 8 "numeric.adapter_state" 1 aRWI true rgPart).withDefault [2],
  table 0x5010 8 "numeric.events" 40 aRO false rgPart,
  table 0x5011 8 "numeric.safeguards" 40 aRO false rgPart,
  table 0x5020 256 "numeric.tensor_stats" 162 aRO false rgPart,
  (single 0x6000 1 "recovery.window_ns" tU32 4 aRWI true rgOB).withDefault (toLe 4 100000),
  (single 0x6000 2 "recovery.dump_part_cycles" tU16 2 aRW true rgOB).withDefault (toLe 2 256),
  (single 0x6000 3 "recovery.scrub_period_s" tU32 4 aRW true rgOB).withDefault (toLe 4 86400),
  table 0x6001 8 "recovery.core_state" 17 aRO false rgOB,
  table 0x6002 2 "recovery.die_state" 17 aRO false rgOB,
  table 0x6003 11 "recovery.first_error" 32 aRO false rgOB,
  single 0x6004 0 "recovery.module_resets" tU64 8 aRO true rgOB,
  single 0x6010 0 "recovery.reset_core" tU8 1 aWO false rgOB,
  table 0x6020 16 "recovery.dump_dir" 64 aRO false rgOB,
  single 0x6021 0 "recovery.dump_release" tU8 1 aWO false 0x33,
  table 0x6030 12 "health.hbm_errors" 32 aRO false rgOB,
  table 0x6031 8 "health.bore_errors" 16 aRO false rgOB,
  table 0x6032 8 "health.poison_stats" 40 aRO false rgOB]

/-- R636, R657: rights as each entry gives them. -/
def objTrust : List Obj := [
  single 0x7000 1 "sec.identity_pub" tOCTETS 133 aCONST true 0x15,
  single 0x7000 2 "sec.identity_cert" tOCTETS 2048 aCONST true 0x15,
  single 0x7000 3 "sec.wrap_pub" tOCTETS 133 aRO true 0x15,
  table 0x7001 256 "sec.key" 13 aRO true 0x05,
  single 0x7002 1 "sec.key_enrol" tOCTETS 256 aWO true 0x0A,
  single 0x7002 2 "sec.key_revoke" tU16 2 aWO true 0x0A,
  single 0x7002 3 "sec.decommission" tU8 1 aWO true 0x02,
  table 0x7003 256 "sec.tenant" 135 aRO true 0x01,
  single 0x7004 1 "sec.tenant_enrol" tOCTETS 144 aWO true 0x02,
  single 0x7004 2 "sec.tenant_remove" tU16 2 aWO true 0x02,
  table 0x7005 4 "fw.slot" 8 aRO true 0x11,
  single 0x7006 1 "fw.verify" tU8 1 aWO true 0x22,
  single 0x7006 2 "fw.activate" tU8 1 aWO true 0x02,
  single 0x7006 3 "fw.floor_raise" tU8 1 aWO true 0x02,
  (table 0x7007 2 "fw.floor" 2 aRO true 0x11).withDefault [1],
  single 0x7010 1 "att.request" tOCTETS 72 aWO false 0x2A,
  table 0x7030 8 "sec.link_peer" 133 aRWI true 0x02]

/-- R231, R324, R381, R453, R500: the objects of core 0, at 0x200 x c beyond for core c. -/
def objCore : List Obj := [
  table 0x8010 16 "core.me_state" 4 aRO false rgOB,
  table 0x8011 16 "core.me_mismatch_total" 8 aRO false rgOB,
  single 0x8012 0 "core.me_quarantine" tU16 2 aRO true rgOB,
  single 0x8013 0 "core.me_release" tU16 2 aWO false rgOB,
  table 0x8014 4 "core.steal_stats" 8 aRO false rgOB,
  table 0x8018 16 "core.bell_stats" 40 aRO false rgOB,
  table 0x8020 64 "core.stream_channel" 4 aRO false rgOB,
  single 0x8021 1 "core.pool_first_bank" tU8 1 aRWI true rgOB,
  single 0x8021 2 "core.pool_banks" tU8 1 aRWI true rgOB,
  table 0x8022 4 "core.pool_stats" 8 aRO false rgOB,
  table 0x8030 16 "core.context_slot" 8 aRO false rgOB,
  table 0x8031 4 "core.sched_stats" 8 aRO false rgOB,
  table 0x8032 4 "core.prep_partition" 1 aRO false rgOB,
  table 0x8040 8 "core.sem_range" 4 aRO false rgOB,
  table 0x8041 2 "core.tag_stats" 8 aRO false rgOB]

/-- R324, R601, R629. -/
def objNet : List Obj := [
  (table 0x9000 2 "port.config" 10 aRWI true rgOB).withDefault [0, 0, 0xDC, 0x05, 46, 5, 16, 2, 0, 0],
  table 0x9001 2 "port.state" 81 aRO false rgOB,
  table 0x9002 0x1000 "port.srtp_key" 64 aWO false 0x1B,
  { (table 0x9010 8 "link.exw11_flush_max" 1 aRWB true rgOB).withDefault [2] with bound := 3 },
  table 0x9011 8 "link.state" 57 aRO false rgOB,
  (table 0x9012 8 "link.config" 3 aRWI true rgOB).withDefault [1, 0, 3],
  (single 0x9020 0 "ptp.config" tOCTETS 8 aRWI true rgOB).withDefault [0, 0, 60],
  single 0x9021 0 "ptp.state" tOCTETS 32 aRO false rgOB,
  single 0x9022 0 "time.pps_epoch" tTIME 8 aWO false rgOB]

/-- R693, R707. -/
def objPower : List Obj := [
  single 0xA000 1 "power.input_mv" tU32 4 aRO false rgPower,
  single 0xA000 2 "power.input_ma" tU32 4 aRO false rgPower,
  single 0xA000 3 "power.input_w" tU32 4 aRO false rgPower,
  table 0xA001 11 "power.rail" 7 aRO false rgPower,
  single 0xA002 0 "power.last_shutdown" tOCTETS 16 aRO true rgPower,
  table 0xA003 3 "power.shutdowns" 8 aRO true rgPower,
  table 0xA010 25 "thermal.sensor" 4 aRO false rgPower,
  single 0xA011 0 "thermal.coolant_flow" tU32 4 aRO false rgPower,
  single 0xA020 0 "board.alert" tU32 4 aRO false rgPower,
  single 0xA021 0 "board.alert_clear" tU32 4 aWO false rgPower,
  single 0xA030 0 "board.straps" tU8 1 aRO false rgPower,
  single 0xA040 0 "power.drain" tU32 4 aWO false rgPower,
  single 0xA041 0 "power.drain_state" tU8 1 aRO false rgPower]

/-- Every object at 0x1000 and above, core 0's for each core's. -/
def objects : List Obj :=
  objComm ++ objStream ++ objPart ++ objHealth ++ objTrust ++ objCore ++ objNet ++ objPower

/-- Core of an index of the 0x8000 range, and the index of core 0 that it repeats (R581). -/
def coreOf (index : Nat) : Nat := if index / 0x1000 = 8 then index % 0x1000 / 0x200 else 0
def baseIndex (index : Nat) : Nat := if index / 0x1000 = 8 then 0x8000 + index % 0x200 else index

/-- A subindex names the object, or one of its records (R535). -/
def Obj.has (o : Obj) (sub : Nat) : Bool := if o.count = 0 then sub == o.sub else decide (1 ≤ sub) && decide (sub ≤ o.count)

/-- The object at an address (R535, R537). -/
def objAt (index sub : Nat) : Option Obj :=
  if index < 0x100 then
    (if 1 ≤ index ∧ index ≤ 0x0F ∧ sub = 0 then
      some ((single index 0 "type.size" tU16 2 aCONST true 0x15).withDefault (toLe 2 (typeSize index)))
    else none)
  else if index < 0x1000 then
    (let n := Config.recCount index % 0x10000
     if 1 ≤ sub ∧ sub ≤ n then some (table index n "type.record" 8 aCONST true 0x15) else none)
  else objects.find? (fun o => o.index == baseIndex index && o.has sub)

/-- Dotted name of an object, zero-padded (R559). -/
def Obj.nameBytes (o : Obj) : List Byte := slice (o.name.toList.map (fun c => BitVec.ofNat 8 c.toNat)) 0 32

/-- Value of INFO (R559). -/
def Obj.info (o : Obj) : List Byte :=
  [BitVec.ofNat 8 o.typ, BitVec.ofNat 8 o.acc, BitVec.ofNat 8 (b2n o.pers + 2 * o.bound), BitVec.ofNat 8 o.rights]
    ++ toLe 2 o.len ++ toLe 2 o.count ++ toLe 2 (if o.typ = tTABLE then Config.recTypeOf o.index else 0) ++ List.replicate 6 0
    ++ slice o.dflt 0 16 ++ o.nameBytes

end Sys2Proof.Machine
end

