-- ==== Sys2Proof/Machine/Power.lean ====
section
/-! DEFINITION. The always-on controller: rails, sideband levels, straps, output pins, sensors, trips and shutdowns,
and the module reset. -/

namespace Sys2Proof.Machine

/-! ### Limits -/

/-- Nominal mV of the nine main rails, in the order of R662. -/
def railNominal : List Nat := [12000, 800, 1800, 1100, 750, 750, 850, 900, 1200]

/-- Group of each main rail (R662). -/
def railGroup : List Nat := [1, 2, 3, 4, 5, 5, 5, 6, 6]

/-- Rails of a group. -/
def railsOfGroup (g : Nat) : List Nat := (List.range 9).filter (fun r => railGroup.getD r 0 = g)

/-- "In regulation by", in ns, of groups 1 to 6 (R662). -/
def groupBound (g : Nat) : Nat := [0, 3000000, 4000000, 6000000, 8000000, 12000000, 15000000].getD g 0

/-- The input lies within the operating range (R658). -/
def inOperating (mv : Nat) : Bool := decide (50000 ≤ mv) && decide (mv ≤ 59500)

/-- The input lies within the standby range (R658). -/
def inStandby (mv : Nat) : Bool := decide (40000 ≤ mv) && decide (mv ≤ 62000)

/-- The input lies between an edge of the operating range and the trip point beyond it (R660). -/
def inWarnBand (mv : Nat) : Bool :=
  (decide (49500 ≤ mv) && decide (mv < 50000)) || (decide (59500 < mv) && decide (mv ≤ 60000))

/-- The main rails are on or being turned on: what a power fault or a trip ends. -/
def Phase.powered : Phase → Bool
  | .sequencing | .running | .internalReset | .resetHeld => true
  | .unpowered | .standby | .shutdown => false

/-- Warning and trip limits of a temperature sensor in m°C, numbered as 0xA010 less one (R681). -/
def tempLimits (i : Nat) : Option (Int × Int) :=
  if i < 10 then some (100000, 110000)
  else if i < 22 then some (85000, 95000)
  else if i = 24 then some (110000, 125000)
  else none

/-- CAUSE of a comparator's trip (R687). -/
def tripCause (i : Nat) : Nat := if i < 10 then 4 else if i < 22 then 5 else 6

/-! ### Pins (R675) -/

/-- MOD_PGOOD. -/
def State.pinPgood (s : State) : Bool := s.aon.phase = .running || s.aon.phase = .internalReset

/-- MOD_READY. -/
def State.pinReady (s : State) : Bool := s.aon.phase = .running && s.aon.ready

/-- MOD_FAULT. -/
def State.pinFault (s : State) : Bool :=
  s.aon.phase = .shutdown || (s.aon.phase = .running && s.aon.boot = .halted)

/-- MOD_ALERT# asserted (R675, R679). -/
def State.pinAlert (s : State) : Bool :=
  match s.aon.phase with
  | .running => s.aon.alert ≠ 0
  | .internalReset | .shutdown => true
  | .unpowered | .standby | .sequencing | .resetHeld => false

/-- THERM_TRIP# asserted: a shutdown latched for a thermal or coolant cause (R675, R684). -/
def State.pinThermTrip (s : State) : Bool :=
  s.aon.phase = .shutdown &&
    (match s.aon.pending with
     | some r => decide (4 ≤ r.cause)
     | none => decide (4 ≤ s.flash.lastShutdown.cause))

/-- What an output pin shows (R675): a push-pull output is low or high, an open-drain output released or asserted, and either
is in high impedance while the module is absent, unpowered or in reset. -/
inductive PinLevel where
  | highZ
  | low
  | high
  | released
  | asserted
  deriving DecidableEq, Repr

/-- The column of R675 that leaves every output in high impedance: the input outside the standby range, or MOD_RST# low with no
shutdown latched. -/
def State.outputsOff (s : State) : Bool := s.aon.phase = .unpowered || s.aon.phase = .resetHeld

/-- A push-pull output: MOD_PGOOD, MOD_READY, MOD_FAULT and PPS_OUT (R675). -/
def State.pushPull (s : State) (v : Bool) : PinLevel := if s.outputsOff then .highZ else if v then .high else .low

/-- An open-drain output: MOD_ALERT# and THERM_TRIP# (R675). -/
def State.openDrain (s : State) (v : Bool) : PinLevel := if s.outputsOff then .highZ else if v then .asserted else .released

/-! ### Loss of the module's volatile state -/

/-- What remains when the main rails go off: the always-on controller, the flash, and what was sent (R526, R684). -/
def powerOff (s : State) : State :=
  { State.reset with
    pending := s.pending
    draws := s.draws
    aon := { s.aon with
      ready := false, boot := .off, hubUp := false, ligSlot := none, sfSlot := none, activating := none
      drain := 0, drainEnd := none, graceOver := false, warned := [] }
    flash := s.flash
    persist := s.flash
    net := { tx := s.net.tx, tags := s.net.tags } }

/-- The values that the flash holds once every commit under way has completed (R542, R543). -/
def State.committed (s : State) : Persist :=
  match s.clotha.commits.getLast? with
  | none => s.flash
  | some c => c.snap

/-- A module reset (R526, R527, R602): every domain but AON resets; HBM stands in self-refresh and keeps its contents;
the first-error records and the dump slots stay; every stream ends. -/
def moduleReset (s : State) (cause : Nat) : State :=
  let f := s.committed
  let f := { f with moduleResets := s.persist.moduleResets + 1 }
  let t : State := { powerOff s with
    flash := f
    persist := f
    streams := { lost := (kkeys s.streams.ctx).foldl nins s.streams.lost }
    mem := { hbm := s.mem.hbm, poison := s.mem.poison, keyGen := s.mem.keyGen }
    recov := { log := s.recov.log, first := s.recov.first, dumps := s.recov.dumps, dumpSeq := s.recov.dumpSeq } }
  t.logEvent 0x6004 0 0x13 1 [(8, cause)]

/-! ### Shutdown (R684 to R687) -/

/-- Index in power.shutdowns of a cause (R693). -/
def shutdownClass (cause : Nat) : Nat := if cause < 4 then 0 else if cause < 7 then 1 else 2

/-- A power fault or a trip: `causes` are CAUSE, SENSOR and VALUE, first the one that R686 names first. -/
def shutdown (s : State) (causes : List (Nat × Nat × Int)) : State :=
  match causes with
  | [] => s
  | (c, sensor, v) :: _ =>
    let mask := causes.foldl (fun m q => m ||| 2 ^ (q.1 - 1)) 0
    let t := powerOff s
    let t := { t with aon := { t.aon with
      phase := .shutdown
      downGroup := if s.aon.groups = 0 then none else some s.aon.groups
      groups := 0
      decided := some s.aon.clock
      pending := some { cause := c, sensor := sensor, mask := mask, value := v, standbyS := s.aon.clock / 1000000000 } } }
    t.alertSet alertShutdown

/-- A shutdown record after one more cause of the same AON cycle; CAUSE numbers stand in the order of R686, so the lower one is
named first. -/
def ShutdownRec.join (r : ShutdownRec) (q : Nat × Nat × Int) : ShutdownRec :=
  let r := { r with mask := r.mask ||| 2 ^ (q.1 - 1) }
  if q.1 < r.cause then { r with cause := q.1, sensor := q.2.1, value := q.2.2 } else r

/-- The AON cycle of 20 ns in which the last shutdown was decided is still the present one (R24, R686). -/
def State.sameDecision (s : State) : Bool :=
  s.aon.phase = .shutdown && (match s.aon.decided with
    | none => false
    | some t => s.aon.clock / 20 == t / 20)

/-- Causes arise: a module that is powered shuts down; in the AON cycle of its decision they join the record, and later they
are not recorded (R684, R686). -/
def trip (s : State) (causes : List (Nat × Nat × Int)) : State :=
  if s.aon.phase.powered then shutdown s causes
  else if s.sameDecision then
    { s with aon := { s.aon with pending := s.aon.pending.map (fun r => causes.foldl ShutdownRec.join r) } }
  else s

/-- The shutdown record's commit to flash (R684, R687, R693). -/
def commitShutdown (s : State) : State :=
  match s.aon.pending with
  | none => s
  | some r =>
    let put (p : Persist) : Persist :=
      { p with lastShutdown := r, shutdowns := lbump p.shutdowns (shutdownClass r.cause) 1 }
    { s with flash := put s.flash, persist := put s.persist, aon := { s.aon with pending := none, shutdownNew := true } }

/-- A limit's run of samples: since when every sample has passed it (R681). -/
def sinceNext (m : KMap Nat) (key : Nat) (passed : Bool) (now : Nat) : KMap Nat :=
  if passed then (if (kget? m key).isSome then m else kset m key now) else kdel m key

/-- The limit of a key has been passed in every sample for a hold. -/
def heldFor (m : KMap Nat) (key hold now : Nat) : Bool :=
  match kget? m key with
  | none => false
  | some t => decide (t + hold ≤ now)

/-- Keys of the limits: 0 to 24 the temperature warnings, 30 the flow warning, 31 and 32 the trips of inlet and flow. -/
def limitPassed (r : SensorReading) (key : Nat) : Bool :=
  let temp (i : Nat) : Int := r.temps.getD i 0
  if key = 22 then decide (45000 < temp 22)
  else if key = 30 then decide (r.flow < 2000)
  else if key = 31 then decide (48000 < temp 22)
  else if key = 32 then decide (r.flow < 1500)
  else match tempLimits key with
    | some (w, _) => decide (w ≤ temp key)
    | none => false

/-- Hold of a limit in ns (R681). -/
def limitHold (key : Nat) : Nat :=
  if key = 22 ∨ key = 30 ∨ key = 31 then 1000000000 else if key = 32 then 2000000000 else 1000000

/-- Comparators that stand above their trip at the last sample (R681). -/
def standingTrips (temps : List Int) : List (Nat × Nat × Int) :=
  (List.range 25).filterMap (fun i =>
    match tempLimits i, temps[i]? with
    | some (_, trip), some v => if trip ≤ v then some (tripCause i, i + 1, v) else none
    | _, _ => none)

/-- The start of the power-on sequence: the cause register is cleared, unless a cause persists and latches the
shutdown again (R662, R677, R685). -/
def startSequence (s : State) : State :=
  let t : State := { s with aon := { s.aon with
    alert := 0, phase := .sequencing, groups := 0, seqStart := s.aon.clock, highWaits := none } }
  let now := s.aon.clock
  let coolant := (if heldFor s.aon.since 32 (limitHold 32) now then [(7, 0, (s.aon.flow : Int))] else [])
    ++ (if heldFor s.aon.since 31 (limitHold 31) now then [(8, 23, s.aon.temps.getD 22 0)] else [])
  shutdown t (sortBy (fun a b => decide (a.1 < b.1)) (standingTrips s.aon.temps) ++ coolant)

/-- A PWR_EN high that has been acted on starts the rails if the input allows it; otherwise the module waits in standby
for the input (R662). -/
def tryStart (s : State) : State :=
  if s.aon.phase = .standby ∧ s.aon.downGroup = none ∧ inOperating s.aon.inputMv then startSequence s else s

/-! ### Meanings -/

/-- STANDBY_SUPPLY_UP: the input enters the standby range, and the AON domain leaves its reset (R27, R658, R661). -/
def execStandbySupplyUp (inputMv : Nat) (s : State) : Host.Outcome State Fault Refusal :=
  .next (if s.aon.phase = .unpowered ∧ inStandby inputMv then
    { s with aon := { s.aon with phase := .standby, clock := 0, lowSince := some 0, inputMv := inputMv } }
  else s)

/-- STANDBY_SUPPLY_LOSS: the input leaves the standby range; every state but the flash's is gone, and a shutdown record
not yet committed is kept with CAUSE 0 (R27, R661, R687). -/
def execStandbySupplyLoss (s : State) : Host.Outcome State Fault Refusal :=
  let f : Persist := match s.aon.pending with
    | none => s.flash
    | some _ => { s.flash with lastShutdown := {} }
  .next { State.reset with
    pending := s.pending, draws := s.draws, flash := f, persist := f, net := { tx := s.net.tx, tags := s.net.tags }
    aon := { shutdownNew := s.aon.shutdownNew && s.aon.pending.isNone } }

/-- PWR_EN_HIGH: a high level of PWR_EN is accepted; the straps are sampled (R662, R668, R670, R672, R685). -/
def execPwrEnHigh (straps : Straps) (s : State) : Host.Outcome State Fault Refusal :=
  .next (if s.aon.phase = .unpowered ∨ s.aon.pwrEn then s
  else
    let t : State := { s with aon := { s.aon with pwrEn := true, straps := straps } }
    match s.aon.lowSince with
    | some l =>
      if s.aon.clock < l + 100000000 then { t with aon := { t.aon with highWaits := some straps } }
      else tryStart { t with aon := { t.aon with phase := if t.aon.phase = .shutdown then .standby else t.aon.phase } }
    | none => tryStart t)

/-- PWR_EN_LOW: a low level of PWR_EN is accepted; a module that sequences or runs powers down and latches nothing
(R665, R668, R688). -/
def execPwrEnLow (s : State) : Host.Outcome State Fault Refusal :=
  .next (if s.aon.phase = .unpowered ∨ !s.aon.pwrEn then s
  else
    let mark (t : State) : State :=
      { t with aon := { t.aon with pwrEn := false, lowSince := some s.aon.clock, highWaits := none } }
    if s.aon.phase.powered then
      let t := powerOff s
      mark { t with aon := { t.aon with
        phase := .standby, rstLow := false, groups := 0
        downGroup := if s.aon.groups = 0 then none else some s.aon.groups } }
    else mark s)

/-- PWR_EN_LOW_TIME_ELAPSED: 100 ms have passed since PWR_EN went low; a latched shutdown ends if it is still low, and a
high that came sooner is acted on (R670, R685). -/
def execPwrEnLowTimeElapsed (s : State) : Host.Outcome State Fault Refusal :=
  .next (match s.aon.lowSince with
  | none => s
  | some l =>
    if s.aon.phase = .unpowered ∨ s.aon.clock < l + 100000000 then s
    else if s.aon.pwrEn then
      match s.aon.highWaits with
      | none => s
      | some _ => tryStart { s with aon := { s.aon with highWaits := none } }
    else if s.aon.phase = .shutdown then { s with aon := { s.aon with phase := .standby } }
    else s)

/-- RAIL_GROUP_IN_REGULATION: the group being raised is in regulation; past its limit it is a power fault, and after
group 6 MOD_PGOOD goes high and the boot chain begins (R662, R663). -/
def execRailGroupInRegulation (s : State) : Host.Outcome State Fault Refusal :=
  .next (if s.aon.phase = .sequencing then
    let g := s.aon.groups + 1
    if s.aon.seqStart + groupBound g + 2000000 < s.aon.clock then
      shutdown s [(3, (railsOfGroup g).headD 0, ((kgetD s.aon.rails ((railsOfGroup g).headD 0) (0, 0)).1 : Int))]
    else
      let t : State := { s with aon := { s.aon with
        groups := g
        rails := (railsOfGroup g).foldl (fun m r => kset m r (railNominal.getD r 0, 0)) s.aon.rails } }
      if g = 6 then
        { t with aon := { t.aon with phase := .running, boot := .rom }, time := { t.time with running := true } }
      else t
  else s)

/-- RAIL_SEQUENCE_TIMEOUT: a group is not in regulation by its time plus 2 ms: a power fault (R663). -/
def execRailSequenceTimeout (s : State) : Host.Outcome State Fault Refusal :=
  .next (let g := s.aon.groups + 1
    let r := (railsOfGroup g).headD 0
    if s.aon.phase = .sequencing ∧ s.aon.seqStart + groupBound g + 2000000 ≤ s.aon.clock then
      shutdown s [(3, r, ((kgetD s.aon.rails r (0, 0)).1 : Int))]
    else s)

/-- RAIL_FAULT: a main rail has left ±5 % of its nominal for more than 10 µs while enabled: a power fault (R664). -/
def execRailFault (rail : Fin 9) (mv : Int) (s : State) : Host.Outcome State Fault Refusal :=
  let n : Int := railNominal.getD rail 0
  .next (if railGroup.getD rail 0 ≤ (if s.sameDecision then s.aon.downGroup.getD 0 else s.aon.groups)
      ∧ n < 20 * (mv - n).natAbs then
    trip { s with aon := { s.aon with rails := kset s.aon.rails rail (mv.toNat, 0) } } [(3, rail, mv)]
  else s)

/-- RAIL_GROUP_BELOW_TEN_PERCENT: the group being turned off is below 10 % of nominal, and the group before it goes off
(R665). -/
def execRailGroupBelowTenPercent (s : State) : Host.Outcome State Fault Refusal :=
  .next (match s.aon.downGroup with
  | none => s
  | some g =>
    { s with aon := { s.aon with
      downGroup := if g ≤ 1 then none else some (g - 1)
      rails := (railsOfGroup g).foldl kdel s.aon.rails } })

/-- MOD_RST_ASSERT: MOD_RST# low with the rails up and no shutdown latched starts a module reset (R527, R689). -/
def execModRstAssert (s : State) : Host.Outcome State Fault Refusal :=
  .next (if s.aon.phase = .running ∨ s.aon.phase = .internalReset then
    let t := moduleReset s 1
    { t with aon := { t.aon with phase := .resetHeld, rstLow := true } }
  else s)

/-- MOD_RST_RELEASE: the straps are sampled; a module held in reset sets RESET and starts from ROM (R672, R678, R689,
R696). -/
def execModRstRelease (straps : Straps) (s : State) : Host.Outcome State Fault Refusal :=
  .next (if s.aon.phase = .unpowered then s
  else
    let t : State := { s with aon := { s.aon with straps := straps, rstLow := false } }
    if s.aon.phase = .resetHeld then
      let t : State := { t with aon := { t.aon with phase := .running, boot := .rom }
                                time := { t.time with running := true } }
      t.alertSet alertReset
    else t)

/-- INPUT_TRIP: the input has passed its over- or under-voltage trip for the time of R658: a power fault. -/
def execInputTrip (overVolt : Bool) (mv : Int) (s : State) : Host.Outcome State Fault Refusal :=
  let t : State := { s with aon := { s.aon with inputMv := mv.toNat } }
  .next (if !s.aon.phase.powered && !s.sameDecision then s
  else if overVolt ∧ 60000 < mv then trip t [(1, 0, mv)]
  else if !overVolt ∧ mv < 49500 then trip t [(2, 0, mv)]
  else s)

/-- THERMAL_TRIP: a hardware comparator finds a junction, HBM or converter temperature at its trip (R681, R684). -/
def execThermalTrip (sensor : Fin 25) (mC : Int) (s : State) : Host.Outcome State Fault Refusal :=
  .next (match tempLimits sensor with
  | none => s
  | some (_, limit) =>
    if (s.aon.phase.powered || s.sameDecision) ∧ limit ≤ mC then
      trip { s with aon := { s.aon with temps := lset s.aon.temps sensor mC } }
        [(tripCause sensor, sensor.val + 1, mC)]
    else s)

/-- A warning stands: its bit is set, and its event is written when it begins, while the service firmware runs
(R660, R678, R682). -/
def warn (s : State) (key bit_ : Nat) (standing : Bool) (needFw : Bool) (event : Nat) (detail : List (Nat × Int)) : State :=
  if !standing then { s with aon := { s.aon with warned := ndel s.aon.warned key } }
  else
    let t := s.alertSet bit_
    if s.aon.warned.contains key then t
    else
      let t := if needFw && !s.fw then t else t.logFw event 0 detail
      { t with aon := { t.aon with warned := nins t.aon.warned key } }

/-- SENSOR_SAMPLE: the sensors are sampled and compared with the limits; while a warning stands, the environment is outside
its specification (R83, R660, R681, R682). -/
def execSensorSample (r : SensorReading) (s : State) : Host.Outcome State Fault Refusal :=
  .next (if s.aon.phase = .unpowered then s
  else
    let now := s.aon.clock
    let keys := List.range 25 ++ [30, 31, 32]
    let since := keys.foldl (fun m k => sinceNext m k (limitPassed r k) now) s.aon.since
    let s : State := { s with aon := { s.aon with
      inputMv := r.inputMv, inputMa := r.inputMa, temps := r.temps, flow := r.flow, since := since } }
    if s.aon.phase.powered || s.sameDecision then
      let trips := (if heldFor since 32 (limitHold 32) now then [(7, 0, (r.flow : Int))] else [])
        ++ (if heldFor since 31 (limitHold 31) now then [(8, 23, r.temps.getD 22 0)] else [])
      if trips ≠ [] then trip s trips
      else if s.aon.phase = .running then
        let s := warn s 40 alertInputWarn (inWarnBand r.inputMv) false 0xA001 [(32, r.inputMv)]
        let s := (List.range 25).foldl (fun t i =>
          if i = 22 then t
          else warn t i alertThermalWarn (heldFor since i (limitHold i) now) true 0xA002 [(8, i + 1), (8, 1)]) s
        let coolant := [(32, (r.flow : Int)), (32, r.temps.getD 22 0), (8, 1)]
        let s := warn s 22 alertCoolantWarn (heldFor since 22 (limitHold 22) now) true 0xA003 coolant
        let s := warn s 30 alertCoolantWarn (heldFor since 30 (limitHold 30) now) true 0xA003 coolant
        if s.aon.warned = [] then s else s.markCause 3 (fun _ _ => true)
      else s
    else if s.aon.pwrEn ∧ s.aon.highWaits = none then tryStart s
    else s)

end Sys2Proof.Machine
end

