-- ==== Sys2Proof/Machine/DictRead.lean ====
section
/-! DEFINITION. The value that every object of the dictionary reads as (R42 to R45, R82, R127, R163, R164, R231, R324, R381,
R425, R428, R435, R453, R500, R519, R528, R534, R575, R580, R629, R643, R657, R687, R693, R707). -/

namespace Sys2Proof.Machine

/-- A record packed from bit 0 upward: widths and values. -/
def packFields (l : List (Nat × Nat)) : Nat := l.foldr (fun p a => p.2 % 2 ^ p.1 + 2 ^ p.1 * a) 0

/-- Concatenated U64 counters. -/
def u64s (l : List Nat) : List Byte := (l.map (toLe 8)).flatten

/-- Counters of a keyed family, `n` of them. -/
def countsOf (m : KMap (List Nat)) (n k : Nat) : List Byte := u64s ((List.range n).map (countIn m k))

/-! ### Streams -/

/-- A stream.context record (R43). -/
def StreamCtx.record (x : StreamCtx) (i : Nat) : List Byte :=
  toLe 128 (packFields [
    (14, i), (2, if x.closing then 2 else 1), (1, b2n x.be), (1, b2n x.variantFb), (1, b2n (x.onFallback && !x.variantFb)), (1, b2n x.spillOk),
    (3, x.period), (3, x.part), (3, x.core), (1, x.port), (3, x.payload), (2, x.rate), (1, b2n x.srtp), (1, b2n x.lateDiscard),
    (11, 0), (16, x.tenant), (16, x.modelId), (16, x.keySlot), (32, x.promise), (32, x.reserve), (32, x.lateLimit),
    (32, x.ssrcIn.toNat), (32, x.ssrcOut.toNat), (32, x.maxContext), (32, x.slack), (64, x.openNs),
    (64, (x.anchorNs % 2 ^ 64).toNat), (64, (x.anchorTs % 2 ^ 64).toNat), (32, x.nextChunk), (8, x.ring.length), (24, 0),
    (64, x.stateAddr), (64, x.lastDeadline)])

/-- A stream.stats record (R44). -/
def StreamStats.record (r : StreamStats) : List Byte :=
  u64s [r.accepted, r.delivered, r.degraded, r.misses, r.gaps, r.latePackets, r.earlyPackets, r.rerunChunks, r.maxLatency]

/-- A miss record (R82). -/
def MissRec.record (m : MissRec) : List Byte :=
  toLe 32 (packFields [
    (64, m.accept), (64, m.deadline), (64, m.deliver.getD (2 ^ 64 - 1)), (14, m.stream), (2, 0), (4, m.cause), (12, 0),
    (16, m.flags.toNat), (16, m.chunk)])

/-- A stream.core_load record (R45). -/
def State.coreLoad (s : State) (c : Nat) : List Byte :=
  toLe 32 (packFields [
    (64, s.demand c), (64, s.capacity c), (16, (s.lcOn c).length), (5, (s.liveEngines c).length), (1, b2n (s.overcommitBit c)),
    (1, b2n (s.recovering c))])

/-! ### Partitions, models, tenants and jobs -/

/-- A partition creation record (R428). -/
def PartRec.record (p : PartRec) (n : Nat) : List Byte :=
  toLe 32 (packFields [
    (3, n), (5, 0), (8, p.cores), (16, p.tenant), (8, p.quota.getD 0 0), (8, p.quota.getD 1 0), (16, p.ways.getD 0 0),
    (16, p.ways.getD 1 0), (2, p.prepPerCore), (14, 0), (10, p.ctxPerCore)])

/-- A model.resident record (R435): of a package's stages, the smallest minimum and the largest maximum round size. -/
def ModelSlot.record (m : ModelSlot) : List Byte :=
  let st := match m.pkg with
    | none => []
    | some p => p.stages
  let mn := match st with
    | [] => 0
    | x :: l => l.foldl (fun a y => Nat.min a y.minRound) x.minRound
  toLe 2 m.modelId ++ toLe 1 m.part ++ toLe 1 m.die ++ toLe 1 st.length ++ toLe 2 mn
    ++ toLe 2 (maxNat (st.map (·.maxRound))) ++ toLe 8 m.bytes ++ toLe 1 m.state

/-- A sched.job_state record (R453). -/
def Job.record (j : Job) (slot : Nat) : List Byte :=
  toLe 2 (slot + 1) ++ toLe 1 j.state ++ toLe 8 j.done ++ toLe 8 (j.usage / 1500) ++ toLe 2 j.code.toNat

/-! ### Recovery -/

/-- State code of a sequencer (R534). -/
def RecState.code : RecState → Nat
  | .running => 0
  | .fenced => 1
  | .resetting => 2
  | .resuming => 3

/-- A recovery.core_state or die_state record (R534). -/
def Sequencer.record (q : Sequencer) : List Byte := toLe 1 q.state.code ++ toLe 8 q.resets ++ toLe 8 q.lastNs

/-- A first-error record of a domain (R528). -/
def FirstError.record (f : FirstError) (dom : Nat) : List Byte :=
  toLe 32 (packFields [
    (64, f.time), (16, f.event.toNat), (16, f.code.toNat), (8, f.kind.toNat), (16, f.index),
    (4, if f.event = 0 then 0 else dom), (4, 0), (32, f.later)])

/-- The mask of a set of bits. -/
def setMask (l : NSet) : Nat := l.foldl (fun m i => m ||| 2 ^ i) 0

/-- A dump header (R519). -/
def Dump.header (d : Dump) : List Byte :=
  toLe 64 (packFields [
    (64, d.detect), (64, d.endNs), (3, d.core), (2, d.level), (3, d.cause), (8, d.unitKind), (8, d.unitIndex),
    (1, b2n d.complete), (1, b2n d.locked), (6, 0), (32, setMask d.bankBad), (1, b2n d.htBad), (1, b2n d.qpBad), (1, b2n d.pcBad),
    (29, 0), (32, d.sequence)])

/-! ### Communication and network -/

/-- A comm.port record (R580). -/
def CommPort.record (c : CommPort) : List Byte :=
  [c.clothaOn] ++ toLe 2 c.udpPort.toNat ++ toBe 16 c.ipv6.toNat ++ [c.ipv6Prefix] ++ toBe 4 c.ipv4.toNat ++ [c.ipv4Prefix]
    ++ toBe 16 c.gateway.toNat

/-- A telemetry.map record (R575). -/
def TelMap.record (m : TelMap) : List Byte :=
  toLe 160 (packFields ([
    (1, b2n m.enable), (7, 0), (2, m.transport), (6, 0), (16, m.keyId.toNat), (32, m.periodUs), (128, m.destAddr.toNat),
    (16, m.destPort.toNat), (6, m.count), (42, 0)] ++ (m.addrs.map (fun a => [(16, a.1), (16, a.2)])).flatten))

/-- A port.config record (R596, R629). -/
def PortConfig.record (p : PortConfig) : List Byte :=
  toLe 2 p.vlan.toNat ++ toLe 2 p.mtu.toNat
    ++ ((List.range 3).map (fun i => [p.dscp.getD i 0, p.prio.getD i 0])).flatten

/-- Reserved bytes per second of a link in a class, each direction (R627, R629). -/
def State.linkReserved (s : State) (l : Nat) (f : CostTable → Nat) : Nat :=
  sumNat ((s.lcTables.filter (fun q => match s.pkg? q.1.modelSlot with
    | none => false
    | some p => p.links.contains l)).map (fun q => linkRate (f q.2) q.1.period))

/-- A link.state record (R629). -/
def State.linkRecord (s : State) (l : Nat) : List Byte :=
  let k := s.link l
  [BitVec.ofNat 8 (b2n k.up)] ++ slice k.peerSerial 0 16 ++ u64s [k.counts.getD 0 0, k.counts.getD 1 0, k.counts.getD 2 0,
    s.linkReserved l (·.lb1), s.linkReserved l (·.lb2)]

/-! ### Firmware slots (R643, R657) -/

/-- Bytes of the image that a slot holds. -/
def FwSlot.byte (f : FwSlot) (slot off : Nat) : Byte := if f.factory then Config.factoryByte slot off else rdByte f.bytes off
def FwSlot.bytesAt (f : FwSlot) (slot off n : Nat) : List Byte := (List.range n).map (fun i => f.byte slot (off + i))

/-- KIND of the image of a slot (R647). -/
def slotKind (slot : Nat) : Nat := if slot < 2 then 1 else 2

/-- VERSION and SVN of the image that a slot holds. -/
def FwSlot.version (f : FwSlot) (slot : Nat) : Nat :=
  if f.factory then Config.factoryVersion slot % 2 ^ 32 else ofLe (rdBytes f.bytes 8 4)
def FwSlot.svn (f : FwSlot) (slot : Nat) : Nat :=
  if f.factory then 1 + Config.factorySvn slot % 65535 else ofLe (rdBytes f.bytes 12 2)

/-- The layout of R643: MAGIC, KIND, ROOT, a SVN and a LENGTH in range, and every RSVD field zero. The image of manufacture
has it (log entry 41). -/
def FwSlot.layoutOk (f : FwSlot) (slot : Nat) : Bool :=
  f.factory || (
    let h := rdBytes f.bytes 0 512
    let z (a n : Nat) : Bool := (slice h a n).all (· == 0)
    decide (f.state ≠ 0) && leAt h 0 4 == 0x4C494D47 && leAt h 4 1 == slotKind slot && decide (leAt h 5 1 ≤ 1)
      && z 6 2 && decide (1 ≤ leAt h 12 2) && z 14 2
      && decide (leAt h 16 8 ≤ (if slot < 2 then 458752 else 67108864)) && z 24 8 && z 361 151)

/-- A fw.slot record. -/
def FwSlot.record (f : FwSlot) (slot : Nat) : List Byte :=
  if f.state = 0 then List.replicate 8 0
  else toLe 1 (if f.factory then slotKind slot else ofLe (rdBytes f.bytes 4 1)) ++ toLe 1 f.state ++ toLe 4 (f.version slot)
    ++ toLe 2 (f.svn slot)

/-- A firmware slot. -/
def Persist.fwSlot (p : Persist) (i : Nat) : FwSlot := kgetD p.fwSlots i {}

/-- Versions of the ROM, of the running Ligature and of the running service firmware. -/
def State.versions (s : State) : List Nat :=
  let v (o : Option Nat) : Nat := match o with
    | none => 0
    | some i => (s.persist.fwSlot i).version i
  [Config.romVersion, v s.aon.ligSlot, v s.aon.sfSlot]

/-! ### Power -/

/-- The shutdown record (R687). -/
def ShutdownRec.record (r : ShutdownRec) : List Byte :=
  toLe 1 r.cause ++ toLe 1 r.sensor ++ toLe 2 r.mask ++ leInt 4 r.value ++ toLe 4 r.standbyS ++ toLe 4 0

/-- A power.rail record: mV, mA and state (R693). -/
def State.railRecord (s : State) (i : Nat) : List Byte :=
  let (mv, ma) := kgetD s.aon.rails i (if i = 9 then (3300, 0) else if i = 10 then (1800, 0) else (0, 0))
  let g := railGroup.getD i 0
  let st := if 9 ≤ i then 2
    else if g ≤ s.aon.groups then 2
    else if s.aon.phase = .sequencing ∧ g = s.aon.groups + 1 then 1
    else 0
  toLe 2 mv ++ toLe 4 ma ++ toLe 1 st

/-- Straps as the management port and board.straps read them (R565, R693). -/
def strapsByte (p : Straps) : Nat := p.addr.toNat + 16 * p.boot.toNat

/-! ### Cores -/

/-- The objects of a core: index of core 0's, record number less one. -/
def State.coreValue (s : State) (c index r : Nat) : List Byte :=
  let k := s.core c
  if index = 0x8010 then
    toLe 4 (b2n (s.quarantined c r) + 256 * Nat.min 255
      ((kgetD k.mismatch r []).filter (fun t => decide (s.now ≤ t + 10000000000))).length)
  else if index = 0x8011 then toLe 8 (kgetD k.mismatchTotal r 0)
  else if index = 0x8012 then toLe 2 (kgetD s.persist.quarantine c 0)
  else if index = 0x8014 then toLe 8 (k.stealStats.getD r 0)
  else if index = 0x8018 then u64s ((List.range 5).map (fun i => (k.engine r).bell.stats.getD i 0))
  else if index = 0x8020 then
    (match kget? k.channels r with
     | none => toLe 4 0
     | some x =>
       let st := match x.state with
         | .free => 0
         | .running => 1
         | .idle => 2
         | .failed => 3
       toLe 4 (packFields [(2, st), (1, b2n x.pending.isSome), (1, b2n x.overrun), (12, 0), (16, x.code.toNat)]))
  else if index = 0x8022 then toLe 8 (k.poolStats.getD r 0)
  else if index = 0x8030 then
    (match (kget? k.slots r).bind (fun i => (s.ctx? i).map (fun x => (i, x))) with
     | none => toLe 8 0
     | some (i, x) => toLe 8 (packFields [
         (16, i), (3, x.part), (2, x.cls), (1, b2n x.pin), (3, s.ctxState i x), (7, 0), (8, x.holdCount)]))
  else if index = 0x8031 then toLe 8 (k.schedStats.getD r 0)
  else if index = 0x8032 then toLe 1 (kgetD k.preps r 0xFF)
  else if index = 0x8040 then
    (let (f, n) := kgetD k.sems.ranges r (0, 0)
     toLe 4 (packFields [(12, f), (4, 0), (13, n)]))
  else if index = 0x8041 then toLe 8 (if r = 0 then k.tagPeak else k.tagWait)
  else []

/-! ### The value of an object -/

/-- 0x1000 to 0x1FFF. -/
def State.commValue (s : State) (index sub : Nat) : List Byte :=
  let r := sub - 1
  if index = 0x1000 then
    (if sub = 1 then "LKT8-M288".toList.map (fun c => BitVec.ofNat 8 c.toNat)
     else if sub = 2 then [0x41, 0x31]
     else if sub = 3 then Config.serial.take 16
     else if sub = 4 then toLe 8 Config.madeNs
     else [0x00, 0x01])
  else if index = 0x1001 then toLe 4 (s.versions.getD r 0)
  else if index = 0x1100 then (kgetD s.persist.commPort r {}).record
  else if index = 0x1101 then toBe 6 (Config.mac r)
  else if index = 0x1102 then countsOf s.clotha.stats 6 r
  else if index = 0x1200 then toLe 8 s.now
  else if index = 0x1201 then toLe 1 s.persist.timeSource
  else if index = 0x1202 then toLe 1 s.time.state
  else if index = 0x1300 then (kgetD s.persist.telMaps r {}).record
  else if index = 0x1301 then u64s [(kgetD s.clotha.tel r {}).sent, (kgetD s.clotha.tel r {}).skipped]
  else []

/-- 0x2000 to 0x2FFF. -/
def State.streamValue (s : State) (index sub : Nat) : List Byte :=
  let r := sub - 1
  if index = 0x2001 then
    (if sub = 1 then toLe 2 s.persist.headroom
     else if sub = 2 then toLe 4 s.persist.reserveDefault
     else if sub = 3 then toLe 2 s.persist.hbmFraction
     else if sub = 4 then toLe 2 s.persist.bridgeFraction
     else if sub = 5 then toLe 2 s.persist.portFraction
     else toLe 1 (b2n s.persist.missAlert))
  else if index = 0x2002 then
    (if sub = 1 then toLe 8 s.streams.missTotal
     else if sub = 2 then toLe 8 s.streams.degradedTotal
     else if sub = 3 then toLe 2 s.streams.ctx.length
     else toLe 8 s.streams.refusedTotal)
  else if index = 0x2100 then
    (match s.stream? r with
     | none => List.replicate 128 0
     | some x => x.record r)
  else if index = 0x2200 then (kgetD s.streams.stats r {}).record
  else if index = 0x2300 then
    (match s.streams.missLog[r]? with
     | none => List.replicate 32 0
     | some m => m.record)
  else if index = 0x2400 then s.coreLoad r
  else []

/-- 0x3000 to 0x5FFF. -/
def State.partValue (s : State) (index sub : Nat) : List Byte :=
  let r := sub - 1
  if index = 0x3001 then
    (match kget? s.persist.parts r with
     | none => List.replicate 32 0
     | some p => p.record r)
  else if index = 0x3002 then
    (match s.model? r with
     | none => List.replicate 18 0
     | some m => m.record)
  else if index = 0x3003 then toLe 1 (s.persist.extentOwner (r / 144) (r % 144))
  else if index = 0x3004 then countsOf s.mem.wcStats 4 r
  else if index = 0x3100 then toLe 1 (kgetD s.persist.kvSpill r 0)
  else if index = 0x3101 then toLe 8 (kgetD s.persist.kvPeer r 0)
  else if index = 0x3102 then toLe 4 (kgetD s.persist.kvWalkBound r 15000)
  else if index = 0x3103 then toLe 4 (kgetD s.persist.kvStaging r 0)
  else if index = 0x3104 then toLe 8 (match kget? s.persist.parts r with | none => 0 | some p => p.releaseRing)
  else if index = 0x3105 then countsOf s.mem.kvStats 8 r
  else if index = 0x4000 then
    (match kget? s.persist.tenants r with
     | none => List.replicate 6 0
     | some t => toLe 2 t.tenant ++ toLe 2 t.beWeight ++ toLe 2 t.lcLimit)
  else if index = 0x4001 then u64s [(kgetD s.svc.usage r (0, 0)).1 / 1500, (kgetD s.svc.usage r (0, 0)).2 / 1500]
  else if index = 0x4011 then
    (match kget? s.svc.jobs r with
     | none => List.replicate 21 0
     | some j => j.record r)
  else if index = 0x5001 then toLe 2 (kgetD s.persist.clipThreshold r 64)
  else if index = 0x5002 then toLe 1 (kgetD s.persist.adapterState r 2)
  else if index = 0x5010 then countsOf s.svc.numEvents 5 r
  else if index = 0x5011 then countsOf s.svc.safeguards 5 r
  else if index = 0x5020 then slice (kgetD s.svc.tensorStats r []) 0 162
  else []

/-- 0x6000 to 0x7FFF. -/
def State.trustValue (s : State) (index sub : Nat) : List Byte :=
  let r := sub - 1
  if index = 0x6000 then
    (if sub = 1 then toLe 4 s.persist.windowNs
     else if sub = 2 then toLe 2 s.persist.dumpPartCycles
     else toLe 4 s.persist.scrubPeriodS)
  else if index = 0x6001 then (s.core r).seqr.record
  else if index = 0x6002 then (kgetD s.recov.dies r {}).record
  else if index = 0x6003 then (kgetD s.recov.first r {}).record r
  else if index = 0x6004 then toLe 8 s.persist.moduleResets
  else if index = 0x6020 then (kgetD s.recov.dumps r {}).header
  else if index = 0x6030 then countsOf s.mem.hbmErrors 4 r
  else if index = 0x6031 then u64s [(s.core r).boreErrors.getD 0 0, (s.core r).boreErrors.getD 1 0]
  else if index = 0x6032 then countsOf s.recov.poisonStats 5 r
  else if index = 0x6040 then toLe 8 s.recov.eventHead
  else if index = 0x7000 then
    (if sub = 1 then (List.range 133).map Config.identityPub
     else if sub = 2 then Config.identityCert.take 2048
     else (List.range 133).map (Config.wrapPub s.persist.wrapGen))
  else if index = 0x7001 then
    (match kget? s.persist.keys sub with
     | none => List.replicate 13 0
     | some k => toLe 2 k.keyId ++ toLe 1 k.role ++ toLe 2 k.tenant ++ toLe 8 k.enrolledNs)
  else if index = 0x7003 then
    (match kget? s.persist.tenants r with
     | none => List.replicate 135 0
     | some t => toLe 2 t.tenant ++ slice t.pkgKey 0 133)
  else if index = 0x7005 then (s.persist.fwSlot r).record r
  else if index = 0x7007 then toLe 2 (if sub = 1 then s.persist.floorLig else s.persist.floorSf)
  else if index = 0x7030 then slice (kgetD s.persist.linkPeer r []) 0 133
  else []

/-- 0x8000 to 0xAFFF. -/
def State.boardValue (s : State) (index sub : Nat) : List Byte :=
  let r := sub - 1
  if index / 0x1000 = 8 then
    (let c := coreOf index
     if baseIndex index = 0x8021 then
       toLe 1 (if sub = 1 then kgetD s.persist.poolFirst c 0 else kgetD s.persist.poolBanks c 0)
     else s.coreValue c (baseIndex index) r)
  else if index = 0x9000 then (kgetD s.persist.portConfig r {}).record
  else if index = 0x9001 then
    (let p := s.port r
     toLe 1 (b2n p.up) ++ u64s ((List.range 9).map (fun i => p.counts.getD i 0)) ++ toLe 8 p.holds)
  else if index = 0x9010 then toLe 1 (kgetD s.persist.flushMax r 2)
  else if index = 0x9011 then s.linkRecord r
  else if index = 0x9012 then
    (let c := kgetD s.persist.linkConfig r {}
     [c.enable] ++ toLe 2 c.reserveFraction.toNat)
  else if index = 0x9020 then
    toLe 1 s.persist.ptpDomain ++ toLe 1 s.persist.ptpTransport ++ toLe 4 s.persist.holdoverS ++ [0, 0]
  else if index = 0x9021 then
    leInt 8 s.time.offset ++ leInt 8 s.time.delay ++ toBe 8 (match s.time.master with | none => 0 | some i => i.toNat)
      ++ toLe 8 s.time.syncs
  else if index = 0xA000 then
    toLe 4 (if sub = 1 then s.aon.inputMv else if sub = 2 then s.aon.inputMa else s.aon.inputMv * s.aon.inputMa / 1000000)
  else if index = 0xA001 then s.railRecord r
  else if index = 0xA002 then s.persist.lastShutdown.record
  else if index = 0xA003 then toLe 8 (s.persist.shutdowns.getD r 0)
  else if index = 0xA010 then leInt 4 (s.aon.temps.getD r 0)
  else if index = 0xA011 then toLe 4 s.aon.flow
  else if index = 0xA020 then toLe 4 s.aon.alert.toNat
  else if index = 0xA030 then toLe 1 (strapsByte s.aon.straps)
  else if index = 0xA041 then toLe 1 s.aon.drain
  else []

/-- The value of an object that lies at an address. -/
def State.objValue (s : State) (index sub : Nat) : List Byte :=
  if index < 0x100 then toLe 2 (typeSize index)
  else if index < 0x1000 then toLe 8 (Config.recField index sub)
  else if index < 0x2000 then s.commValue index sub
  else if index < 0x3000 then s.streamValue index sub
  else if index < 0x6000 then s.partValue index sub
  else if index < 0x8000 then s.trustValue index sub
  else s.boardValue index sub

/-- PENDING: the value of an RWB object has been written and is not yet in effect (R459, R460, R550). -/
def State.objPending (s : State) (index sub : Nat) : Bool :=
  let r := sub - 1
  if index = 0x5001 then
    (match kget? s.persist.parts r with
     | none => false
     | some p =>
       let v := kgetD s.persist.clipThreshold r 64
       (coresOf p.cores).any (fun c => kgetD s.svc.clipEff (c * 8 + r) v != v))
  else if index = 0x9010 then (s.link r).flushEff != kgetD s.persist.flushMax r 2
  else false

/-- The tenant to which a record belongs (R547, R602). -/
def State.recTenant (s : State) (index sub : Nat) : Option Nat :=
  let r := sub - 1
  let ofPart (p : Nat) : Option Nat := (kget? s.persist.parts p).map (·.tenant)
  if index = 0x2100 ∨ index = 0x2200 then (s.stream? r).map (·.tenant)
  else if index = 0x2300 then (s.streams.missLog[r]?).bind (fun m => (s.stream? m.stream).map (·.tenant))
  else if index = 0x3001 ∨ index = 0x3100 ∨ (0x3102 ≤ index ∧ index ≤ 0x3105) ∨ index = 0x5001 ∨ index = 0x5002 ∨ index = 0x5010
      ∨ index = 0x5011 then ofPart r
  else if index = 0x3101 then ofPart (r / 16)
  else if index = 0x3002 then (s.model? r).bind (fun m => ofPart m.part)
  else if index = 0x3003 then ofPart (s.persist.extentOwner (r / 144) (r % 144))
  else if index = 0x4000 ∨ index = 0x4001 then (kget? s.persist.tenants r).map (·.tenant)
  else if index = 0x4011 then (kget? s.svc.jobs r).map (·.tenant)
  else if index = 0x7001 then (kget? s.persist.keys sub).map (fun k => if k.role = 2 then k.tenant else 0x10000)
  else if index = 0x9002 then (kget? s.net.srtp r).map (·.owner)
  else none

end Sys2Proof.Machine
end

