-- ==== Sys2Proof/Machine/Kv.lean ====
section
/-! DEFINITION. Attention and the key-value cache (09): walks of MATMUL_GATHER and MATMUL_SCORE, the gather buffer, its
check vectors and the conversion block, and the quarantine of freed pages. Spilled pairs are fetched in Spill.lean. -/

namespace Sys2Proof.Machine

/-! ### Page-table entries (R407) -/

def pteFmt (x : Nat) : Nat := bits x 1 0
def pteFill (x : Nat) : Nat := bits x 7 3
def pteBase (x : Nat) : Nat := bits x 53 8 * 256
def ptePeer (x : Nat) : Nat := bits x 53 50
def pteSlot (x : Nat) : Nat := bits x 49 8
def pteGen (x : Nat) : Nat := bits x 61 54
def pteState (x : Nat) : Nat := bits x 63 62

/-! ### Columns of a walk (R387, R388) -/

/-- A key column that a walk entry fills: member, column, position, GLOBAL; its codes and scales, and their poison. -/
structure KeyCol where
  member : Nat
  col : Nat
  pos : Nat
  glob : Bool
  codes : List Nat := []
  kScale : Nat := 0
  vScale : Nat := 0
  poison : Bool := false
  scalePoison : Bool := false
  deriving DecidableEq, Repr

/-- What a walk has read: columns filled, spilled pairs to fetch, page-table addresses of mismatches, pages read. -/
structure WalkOut where
  cols : List KeyCol := []
  pairs : List (Nat × Nat × Nat × Nat × Nat × Nat) := []
  bad : List Nat := []
  reads : List (Nat × Nat) := []
  deriving DecidableEq, Repr

def WalkOut.join (a b : WalkOut) : WalkOut := ⟨a.cols ++ b.cols, a.pairs ++ b.pairs, a.bad ++ b.bad, a.reads ++ b.reads⟩

/-- Pages of a walk entry, each once, with the tokens it names: token and key column (R388). -/
def State.walkPages (s : State) (c : Cmd) (core st e : Nat) : List (Nat × List (Nat × Nat)) :=
  if weGlobal e then
    let h := c.map st (weGlobH e)
    let ps := (List.range (weCount e)).map (fun i => (s.bufNat core h (weGlobOff e * 64 + 4 * i) 4, weFirstCol e + i))
    ((ps.map (fun p => p.1 / 16)).foldl nins []).map (fun g => (g, (ps.filter (fun p => p.1 / 16 == g)).map (fun p => (p.1 % 16, p.2))))
  else
    (List.range (weCount e)).map (fun i => (weFirst e + i, (List.range 16).map (fun t => (t, weFirstCol e + 16 * i + t))))

/-- HBM address of the page-table entry of a logical page. -/
def wePteAddr (e g : Nat) : Nat := wePt e + 8 * (if weGlobal e then g else g - weFirst e)

/-- Bytes of a staging record (R403). -/
def stageRec (dh w : Nat) : Nat := 64 * (1 + cdiv (dh * w) 256)

/-- Codes of one token of a page or staging buffer, with its scales (R402, R403). -/
def State.tokenOf (s : State) (part d x t : Nat) (k : KeyCol) : KeyCol × List (Nat × Nat) :=
  let w := fmtBits (dBFmt d)
  let dh := headDim d
  let b := pteBase x
  let values := dRole d == 1
  if pteState x = 1 then
    let a := b + t * stageRec dh w
    let sc := s.hbmFetch part a 4
    let place := a + 64 + (if values then dh * w / 8 else 0)
    let q := s.hbmFetch part place (dh * w / 8)
    ({ k with codes := (List.range dh).map (packedAt q.1 w), kScale := leAt sc.1 0 2, vScale := leAt sc.1 2 2
              poison := q.2, scalePoison := sc.2 }, [(a, stageRec dh w)])
  else
    let ks := s.hbmFetch part (b + 2 * t) 2
    let vs := s.hbmFetch part (b + 32 + 2 * t) 2
    if values then
      let v := s.hbmFetch part (b + 64 + 2 * dh * w) (2 * dh * w)
      ({ k with codes := (List.range dh).map (fun j => packedAt v.1 w (16 * j + t)), kScale := leAt ks.1 0 2, vScale := leAt vs.1 0 2
                poison := v.2, scalePoison := false }, [(b + 64 + 2 * dh * w, 2 * dh * w)])
    else
      let q := s.hbmFetch part (b + 64 + t * dh * w / 8) (dh * w / 8)
      ({ k with codes := (List.range dh).map (packedAt q.1 w), kScale := leAt ks.1 0 2, vScale := leAt vs.1 0 2
                poison := q.2, scalePoison := ks.2 || vs.2 }, [(b, 64 + 2 * dh * w)])

/-- One page of a walk entry by the snapshot of its entry (R408, R410, R411). -/
def State.walkPage (s : State) (part d e : Nat) (page : Nat × List (Nat × Nat)) : WalkOut :=
  let a := wePteAddr e page.1
  let q := s.hbmFetch part a 8
  let x := ofLe q.1
  let key (t : Nat × Nat) : KeyCol :=
    { member := weMember e, col := t.2, pos := (16 * page.1 + t.1) % 2 ^ 20, glob := weGlobal e }
  let live := page.2.filter (fun t => decide (t.1 < pteFill x))
  let zero (t : Nat × Nat) : KeyCol := { key t with codes := List.replicate (headDim d) 0, poison := true }
  if pteState x = 0 then {}
  else if pteState x = 3 ∧ dBFmt d = 0xF then
    if page.1 % 2 = 0 then
      let y := ofLe (s.hbmFetch part (a + 8) 8).1
      { cols := live.map (fun t => { key t with poison := q.2 })
        pairs := [(ptePeer x, pteSlot x, page.1, pteGen x + 256 * pteGen y, (page.2.headD (0, 0)).2, weMember e)], reads := [(a, 8)] }
    else { cols := live.map (fun t => { key t with poison := q.2 }), reads := [(a, 8)] }
  else if pteState x = 3 ∨ dBFmt d = 0xF ∨ pteFmt x + 4 ≠ dBFmt d then { cols := live.map zero, bad := [a], reads := [(a, 8)] }
  else
    let l := live.map (fun t => s.tokenOf part d x t.1 (key t))
    { cols := l.map (fun p => { p.1 with poison := p.1.poison || q.2 }), reads := (a, 8) :: (l.map Prod.snd).flatten.eraseDups }

/-- What the router receives of a walk: page-table lines, each once for an entry of the list, and page beats (R393). -/
def State.walkBeats (s : State) (c : Cmd) (core st : Nat) (w : WalkOut) : Nat :=
  let d := c.desc st
  let lines := sumNat (((s.walkOf core c.part d).getD []).map (fun e =>
    (((s.walkPages c core st e).map (fun p => wePteAddr e p.1 / 64)).eraseDups).length))
  lines + sumNat ((w.reads.filter (fun q => q.2 != 8)).map (fun q => (linesOf q.1 q.2).length))

/-- The whole walk of a stage. -/
def State.walkAll (s : State) (c : Cmd) (core st : Nat) : WalkOut :=
  let d := c.desc st
  (((s.walkOf core c.part d).getD []).map (fun e =>
    ((s.walkPages c core st e).map (s.walkPage c.part d e)).foldl WalkOut.join {})).foldl WalkOut.join {}

/-! ### The gather buffer (R386, R389) -/

/-- The key in a column of a member. -/
def colAt (l : List KeyCol) (m j : Nat) : Option KeyCol := l.find? (fun k => k.member == m && k.col == j)

/-- Whole lines written from a 64-byte place, each with its poison. -/
def State.linesWrite (s : State) (core : Nat) (h : HandleEntry) (o : Nat) (bs : List Byte) (poison : Nat → Bool) : State :=
  (List.range (cdiv bs.length 64)).foldl (fun t i => t.bufWrite core h (o + 64 * i) (slice bs (64 * i) 64) (poison i)) s

/-- One column of the gather buffer: its elements with their poison, packed. -/
def State.gatherCol (s : State) (core : Nat) (h : HandleEntry) (o w : Nat) (l : List (Nat × Bool)) : State :=
  let per := 512 / w
  s.linesWrite core h o (packElems w (l.map Prod.fst)) (fun i => ((l.drop (i * per)).take per).any Prod.snd)

/-- One member's block of B. -/
def State.gatherMember (s : State) (core : Nat) (h : HandleEntry) (d m : Nat) (l : List KeyCol) : State :=
  let w := fmtBits (dBFmt d)
  let base := dBOff d + (if dMembers d ≤ 1 then 0 else m) * memberBytes d true
  let cells := (List.range (keyCount d)).map (colAt l m)
  let code (k : Option KeyCol) (i : Nat) : Nat × Bool := match k with
    | none => (0, false)
    | some k => (k.codes.getD i 0, k.poison)
  (List.range (dNPad d)).foldl (fun t j =>
    let o := base + j * dBStr d * 64
    if dBFmt d = 0xF then
      let n := colBytes d (s.codebookInfo core (dPart d) d).2
      let bad := if dRole d = 1 then cells.any (fun k => match k with | some k => k.poison | none => false)
        else match (cells[j]?).join with | some k => k.poison | none => false
      t.linesWrite core h o (List.replicate n 0) (fun _ => bad)
    else if dRole d = 1 then t.gatherCol core h o w (cells.map (fun k => code k j))
    else t.gatherCol core h o w ((List.range (dK d)).map (code ((cells[j]?).join)))) s

/-- The check vectors of a member's block, from the decoded codes (R208, R209, R390). -/
def State.gatherCheck (s : State) (core : Nat) (h : HandleEntry) (d m : Nat) (l : List KeyCol) : State :=
  let base := dBOff d + (if dMembers d ≤ 1 then 0 else m) * memberBytes d true + dNPad d * dBStr d * 64
  let values := dRole d == 1
  let at_ (k j : Nat) : FVal × Bool :=
    match colAt l m (if values then k else j) with
    | none => (fZero, false)
    | some c => ((decodeElem (dBFmt d) none (c.codes.getD (if values then j else k) 0)).1, c.poison)
  (List.range (dCT d)).foldl (fun t ct =>
    let es := (List.range (dK d)).map (fun k =>
      let b := (List.range 32).map (fun i => at_ k (32 * ct + i))
      let ws := toF32 ((b.map Prod.fst).foldl FVal.add fZero)
      let wa := match (b.map (fun q => FVal.abs q.1)).foldl FVal.add fZero with
        | .fin _ q => bf16Up q
        | .inf _ => 0x7F80
        | .nan => bf16.nanCode
      (toLe 4 ws.toNat ++ toLe 2 wa, b.any Prod.snd))
    let bytes := (es.map Prod.fst).flatten
    t.linesWrite core h (base + ct * checkBytes d true) bytes
      (fun i => es.zipIdx.any (fun q => q.1.2 && decide (6 * q.2 < 64 * i + 64) && decide (64 * i < 6 * q.2 + 6)))) s

/-! ### The conversion block of a score (R391) -/

/-- BF16 scale as an FP32 code. -/
def bf16As32 (v : Nat) : Nat := v * 65536

/-- KEY_POS of a column. -/
def keyPos (k : Option KeyCol) : Nat := match k with | none => 0xFFFFFFFF | some k => k.pos + 2 ^ 31 * b2n k.glob

/-- D, KEY_POS and VSCALE of every column of every member. -/
def State.scoreBlock (s : State) (core : Nat) (h : HandleEntry) (d : Nat) (l : List KeyCol) : State :=
  let o := dVecOff d * 256
  let cells := ((List.range (dMembers d)).map (fun m => (List.range (dNPad d)).map (colAt l m))).flatten
  let bad (i : Nat) : Bool := ((cells.drop (16 * i)).take 16).any (fun k => match k with | some k => k.scalePoison | none => false)
  let put (t : State) (at_ : Nat) (f : Option KeyCol → Nat) : State :=
    t.linesWrite core h at_ ((cells.map (fun k => toLe 4 (f k))).flatten) bad
  let v := convLen d
  let t := put s o (fun k => match k with | none => 0 | some k => bf16As32 k.kScale)
  let t := put t (o + 4 * v) keyPos
  put t (o + 8 * v) (fun k => match k with | none => 0 | some k => bf16As32 k.vScale)

/-! ### MATMUL_GATHER and MATMUL_SCORE (R384 to R396, R410 to R412) -/

/-- The walk of a stage: snapshots, fetches and the writing of B, its check vectors and the conversion block; its spilled
pairs stay to be fetched and keep the walk registered at its epoch. -/
def State.walk (s : State) (core : Nat) (c : Cmd) : State :=
  let st := c.stage
  let d := c.desc st
  let w := s.walkAll c core st
  let bh := c.map st (dBH d)
  let t := w.reads.foldl (fun t q => t.wcReads q.1 q.2) s
  let t := t.progressBy core 116 (s.walkBeats c core st w)
  let t := (List.range (dMembers d)).foldl (fun t m =>
    let t := t.gatherMember core bh d m w.cols
    if dCheck d then t.gatherCheck core bh d m w.cols else t) t
  let t := if dOp d = 3 then t.scoreBlock core (c.map st (dVecH d)) d w.cols else t
  let t := w.bad.foldl (fun t a => (t.kvCount c.part 5).logEvent 0x3006 0 0x05 core [(16, c.ctx), (64, a)]) t
  let epoch := kgetD s.mem.epoch c.part 0
  if w.pairs = [] then t
  else (t.kvCount c.part 3).modCmd core c.ctx c.seq (fun c => { c with walk := some { epoch := epoch, stage := st, pairs := w.pairs } })

/-- A walk command's stage: its walk, then its work items; with no transfer tag to take, the router waits (R476, R477). -/
def State.walkStage (s : State) (ctx op : Nat) : State :=
  match s.toIssue ctx op with
  | none => s
  | some (core, c) =>
    if !c.stageFree || c.walk.isSome then s
    else if !(s.core core).tagFree false then (s.takeTag core 116).1
    else
      let t := s.walk core c
      match t.cmd? core c.ctx c.seq with
      | none => s
      | some c' => State.after s (t.issueStage core c') core

/-- MATMUL_GATHER (R384 to R393, R408 to R412). -/
def execMatmulGather (ctx : Nat) (s : State) : Host.Outcome State Fault Refusal := .next (s.walkStage ctx 0x02)

/-- MATMUL_SCORE (R384 to R396, R408 to R412). -/
def execMatmulScore (ctx : Nat) (s : State) : Host.Outcome State Fault Refusal := .next (s.walkStage ctx 0x03)

/-! ### Quarantine of freed pages (R412 to R415) -/

/-- Lowest epoch of a registered walk of a partition, if any is registered. -/
def State.oldestWalk (s : State) (part : Nat) : Option Nat :=
  (((List.range 8).map (fun c => (s.core c).cmds.filterMap (fun m =>
    if m.part == part then m.walk.map (·.epoch) else none))).flatten).min?

/-- PAGE_FREE: the freed value is tagged with the partition's walk epoch, which then advances (R412, R425, R513). -/
def execPageFree (core : Fin 8) (prep : Fin 4) (value : Word64) (s : State) : Host.Outcome State Fault Refusal :=
  .next (match s.prepPart core prep with
  | none => s
  | some part =>
    if s.fenced core then s
    else
      let e := kgetD s.mem.epoch part 0
      let l := kgetD s.mem.freed part [] ++ [(value, e)]
      let peak (m : KMap (List Nat)) : KMap (List Nat) :=
        kmod m part (List.replicate 8 0) (fun c => lset c 7 (Nat.max (c.getD 7 0) l.length))
      let t := s.progress core (112 + prep)
      { t with mem := { t.mem with
          epoch := kset s.mem.epoch part ((e + 1) % 2 ^ 64), freed := kset s.mem.freed part l, kvStats := peak s.mem.kvStats } })

/-- Bit 63 of a release-ring entry's second word: VALID. -/
def State.releaseValid (s : State) (base i : Nat) : Bool := bit (s.hbmNat (base + 16 * i + 8) 8) 63

/-- PAGE_RELEASE: the oldest freed value that no registered walk of its epoch or an earlier one holds goes to the
partition's release ring; a ring whose next entry is still valid holds it back and a ring-full event is written (R412, R414). -/
def execPageRelease (p : Fin 8) (s : State) : Host.Outcome State Fault Refusal :=
  .next (match kgetD s.mem.freed p [], kget? s.persist.parts p with
  | (v, e) :: rest, some r =>
    let held := match s.oldestWalk p with | none => false | some w => decide (w ≤ e)
    if held then s
    else
      let i := kgetD s.mem.releaseWr p 0
      if s.releaseValid r.releaseRing i then (s.kvCount p 6).logEvent 0x3008 0 0x12 0 [(8, p.val)]
      else
        let t : State := { s with mem := { s.mem with
          freed := if rest = [] then kdel s.mem.freed p else kset s.mem.freed p rest
          releaseWr := kset s.mem.releaseWr p ((i + 1) % 4096) } }
        t.hbmWriteAs p (r.releaseRing + 16 * i) (toLe 8 v.toNat ++ toLe 8 (2 ^ 63 + e % 2 ^ 63)) false
  | _, _ => s)

end Sys2Proof.Machine
end

