-- ==== Sys2Proof/Machine/Links.lean ====
section
/-! DEFINITION. The transmitter of a scale link (R614 to R629): EXW11 on the wire, headers, flits and their credits,
messages sent, and the completion of what a message belongs to. -/

namespace Sys2Proof.Machine

/-! ### EXW11 on the wire (R293 to R296, R319 to R321) -/

/-- BF16 code of element `e` of a block. -/
def exwBits (blk ext : List Byte) (e : Nat) : Nat :=
  let base := leAt blk 0 1
  if base = 0xFF then (if e < 22 then leAt blk (1 + 2 * e) 2 else leAt ext (2 * (e - 22)) 2)
  else
    let x := bits (leAt blk 0 45) (11 * e + 18) (11 * e + 8)
    let off := bits x 9 7
    if off = 0 then b2n (bit x 10) * 2 ^ 15
    else b2n (bit x 10) * 2 ^ 15 + Nat.min (base + off) 0xFF * 128 + bits x 6 0

/-- One run of 32 BF16 codes as a block on the wire. -/
def exwEncode (flushMax : Nat) (l : List Nat) : List Byte :=
  let ex (v : Nat) : Nat := bits v 14 7
  let top := (l.map ex).foldl Nat.max 0
  let base := top - 7
  let lost := (l.filter (fun v => bits v 14 0 != 0 && decide (ex v ≤ base))).length
  if top = 255 ∨ flushMax < lost then 0xFF :: (l.map (toLe 2)).flatten
  else
    let code (v : Nat) : Nat :=
      if ex v ≤ base then b2n (bit v 15) * 1024 else b2n (bit v 15) * 1024 + (ex v - base) * 128 + bits v 6 0
    toLe 45 (base + 256 * (l.reverse.foldl (fun acc v => acc * 2048 + code v) 0))

/-- A BF16 payload coded, padded to whole blocks with +0. -/
def exwPayload (flushMax : Nat) (bs : List Byte) : List Byte :=
  ((List.range (cdiv bs.length 64)).map (fun b => exwEncode flushMax ((List.range 32).map (fun e => leAt bs (64 * b + 2 * e) 2)))).flatten

/-- The BF16 values of a coded payload, block after block. -/
def exwUnpack : Nat → List Byte → List Byte
  | 0, _ => []
  | n + 1, bs =>
    match bs with
    | [] => []
    | b :: _ =>
      let raw := b == 0xFF
      let out := ((List.range 32).map (fun e => toLe 2 (exwBits (bs.take 45) ((bs.drop 45).take 20) e))).flatten
      out ++ exwUnpack n (bs.drop (if raw then 65 else 45))

/-! ### Headers (R615, R621) -/

def lhOp (h : Nat) : Nat := bits h 127 124
def lhTc (h : Nat) : Nat := bits h 123 121
def lhPart (h : Nat) : Nat := bits h 120 118
def lhTag (h : Nat) : Nat := bits h 105 96
def lhLen (h : Nat) : Nat := bits h 95 64
def lhOff (h : Nat) : Nat := bits h 63 0

/-- A message header. -/
def linkHeader (op tc part tag len off : Nat) : BitVec 128 :=
  BitVec.ofNat 128 (op * 2 ^ 124 + tc * 2 ^ 121 + part * 2 ^ 118 + tag * 2 ^ 96 + len * 2 ^ 64 + off % 2 ^ 64)

/-! ### Flits and credits (R615, R616, R618, R619) -/

/-- Receive credits of a class after training. -/
def linkCredits : List Nat := [16, 192, 160, 64, 64]

/-- Flits of a message of `n` payload bytes with its header and tag. -/
def flitsOf (n : Nat) : Nat := cdiv (n + 32) 242

/-- Flits of one class leave while a credit of the class and the replay buffer allow it. -/
def Link.sendClass (k : Link) (tc : Nat) : Link :=
  let want := sumNat ((k.txq.filter (fun q => q.1 == tc)).map Prod.snd)
  let n := Nat.min want (Nat.min (k.credits.getD tc 0) (512 - k.replay.length))
  if n = 0 then k
  else
    { k with
      txq := (k.txq.filter (fun q => q.1 != tc)) ++ (if want = n then [] else [(tc, want - n)])
      credits := lset k.credits tc (k.credits.getD tc 0 - n)
      replay := k.replay ++ (List.range n).map (fun i => ((k.txSeq + i) % 4096, tc))
      txSeq := (k.txSeq + n) % 4096 }

/-- Flits of a class that wait. -/
def Link.queued (k : Link) (tc : Nat) : Nat := sumNat ((k.txq.filter (fun q => q.1 == tc)).map Prod.snd)

/-- A flit of a class waits and may leave. -/
def Link.mayLeave (k : Link) (tc : Nat) : Bool :=
  decide (0 < k.queued tc) && decide (0 < k.credits.getD tc 0) && decide (k.replay.length < 512)

/-- One flit of a class leaves. -/
def Link.sendOne (k : Link) (tc : Nat) : Link :=
  let want := k.queued tc
  { k with
    txq := (k.txq.filter (fun q => q.1 != tc)) ++ (if want = 1 then [] else [(tc, want - 1)])
    credits := lset k.credits tc (k.credits.getD tc 0 - 1)
    replay := k.replay ++ [(k.txSeq, tc)], txSeq := (k.txSeq + 1) % 4096
    served := if tc = 1 then (k.served.1 + 1, k.served.2) else (k.served.1, k.served.2 + 1) }

/-- Classes 1 and 2 take turns in proportion to their reserved bytes per second `w`, a flit at a time (R619; the quantum is log entry
140). -/
def Link.sendPair (w : Nat × Nat) : Nat → Link → Link
  | 0, k => k
  | n + 1, k =>
    if k.mayLeave 1 && (!k.mayLeave 2 || decide (k.served.1 * w.2 ≤ k.served.2 * w.1)) then Link.sendPair w n (k.sendOne 1)
    else if k.mayLeave 2 then Link.sendPair w n (k.sendOne 2)
    else if k.queued 1 = 0 ∧ k.queued 2 = 0 then { k with served := (0, 0) }
    else k

/-- Flits that may leave do so: class 0 first, then classes 1 and 2 in their turns, and what these leave goes to 3 and 4 (R618,
R619). -/
def Link.pump (k : Link) (w : Nat × Nat) : Link := (Link.sendPair w 512 (k.sendClass 0)).sendClass 3 |>.sendClass 4

/-- Reserved bytes per second of classes 1 and 2 of a link; equal turns where neither has any (R619, R627). -/
def State.linkShares (s : State) (l : Nat) : Nat × Nat :=
  let on := s.lcTables.filter (fun q => match s.pkg? q.1.modelSlot with
    | none => false
    | some p => p.links.contains l)
  let sum (f : CostTable → Nat) : Nat := sumNat (on.map (fun q => linkRate (f q.2) q.1.period))
  if sum (·.lb1) = 0 ∧ sum (·.lb2) = 0 then (1, 1) else (sum (·.lb1), sum (·.lb2))

/-- A message is handed to a link's transmitter. -/
def State.linkSend (s : State) (l op tc part tag len off : Nat) (payload : List Byte) : State :=
  let t := s.send (.link l (linkHeader op tc part tag len off) payload)
  t.modLink l (fun k => ({ k with txq := k.txq ++ [(tc, flitsOf payload.length)], txCounter := k.txCounter + 1 } : Link).pump
    (s.linkShares l))

/-- Flits up to a sequence number, in order of sending, are acknowledged. -/
def Link.ackTo (k : Link) (seq : Nat) : Link :=
  match k.replay.findIdx? (fun q => q.1 == seq) with
  | none => k
  | some i => { k with replay := k.replay.drop (i + 1), replayed := 0 }

/-! ### Completing what a message belongs to (R418, R617, R624, R625) -/

/-- A link request's record changed. -/
def State.modLinkReq (s : State) (part idx : Nat) (f : LinkReq → LinkReq) : State :=
  { s with svc := { s.svc with linkReqs := s.svc.linkReqs.map (fun r => if r.part == part && r.idx == idx then f r else r) } }

/-- One message of a link request has ended with a code. -/
def LinkReq.msgDone (r : LinkReq) (code : Word16) : LinkReq :=
  { r with left := r.left - 1, code := if r.code = 0 then code else r.code }

/-- A message that waited has ended: its tag is freed and its data, or zero beats marked poisoned, are written (R617, R626). -/
def State.endWait (s : State) (l : Nat) (w : LinkWait) (data : Option (List Byte)) (code : Word16) : State :=
  let t := s.modLink l (fun k => { k with waits := k.waits.filter (fun q => q.tag != w.tag) })
  let t : State := { t with mem := { t.mem with hubTags := t.mem.hubTags - 1 } }
  let t := if w.op = 2 then
      match data with
      | some bs => t.hbmWriteAs w.part w.dest (slice bs 0 w.len) false
      | none => t.hbmWriteAs w.part w.dest (List.replicate w.len 0) true
    else t
  match w.req with
  | some (p, i) => t.modLinkReq p i (·.msgDone code)
  | none => t

/-- Receivers stop accepting the old epoch once every message sent before the key change is acknowledged (R646). -/
def Link.settleEpoch (k : Link) : Link :=
  match k.oldEpoch with
  | none => k
  | some e => if k.waits.any (fun w => w.epoch == e) then k else { k with oldEpoch := none }

end Sys2Proof.Machine
end

