-- ==== Sys2Proof/Machine/Spill.lean ====
section
/-! DEFINITION. Spilled pairs (R416 to R420): the pair request over a scale link, its arrival in the landing region, the
copy into the gather buffer, and its time limit. -/

namespace Sys2Proof.Machine

/-- A spilled pair that a walk fetches. -/
structure PairRef where
  peer : Nat
  slot : Nat
  page : Nat
  gens : Nat
  col : Nat
  member : Nat
  deriving DecidableEq, Repr

def pairRef (p : Nat × Nat × Nat × Nat × Nat × Nat) : PairRef := ⟨p.1, p.2.1, p.2.2.1, p.2.2.2.1, p.2.2.2.2.1, p.2.2.2.2.2⟩

/-- The command of a context whose walk waits for spilled pairs, with its core and the walk. -/
def State.walkCmd (s : State) (ctx : Nat) : Option (Nat × Cmd × Walk) :=
  match s.ctx? ctx with
  | none => none
  | some ct => (s.core ct.core).cmds.findSome? (fun c => if c.ctx = ctx then c.walk.map (fun w => (ct.core, c, w)) else none)

/-- Sizes of the pair's blocks: coded part, extension, and their count for one role (R417). -/
structure PairShape where
  c : Nat
  x : Nat
  n : Nat
  dh : Nat
  values : Bool
  deriving DecidableEq, Repr

def State.pairShape (s : State) (core : Nat) (d : Nat) : PairShape :=
  let b := bellSize 0xF (s.codebookInfo core (dPart d) d).2
  { c := b.1, x := b.2, n := headDim d, dh := headDim d, values := dRole d == 1 }

/-- Offsets in a slot: coded parts of the role, the scales, and the role's extensions (R417). -/
def PairShape.codedAt (p : PairShape) : Nat := 64 + (if p.values then p.dh * p.c else 0)
def PairShape.scalesAt (p : PairShape) : Nat := 64 + 2 * p.dh * p.c
def PairShape.extAt (p : PairShape) (i : Nat) : Nat := 192 + 2 * p.dh * p.c + ((if p.values then p.dh else 0) + i) * p.x

/-- Base of the landing region of a command: it ends at EXT_BASE of the gather buffer's handle (R418). -/
def landingAt (h : HandleEntry) (p : PairShape) : Nat := h.extBase - (192 + 2 * p.dh * p.c)

/-- Column and block of the gather buffer that hold block `i` of the pair's role (R389, R417). -/
def PairShape.blockPlace (p : PairShape) (col i : Nat) : Nat × Nat :=
  if p.values then (i, col / 32) else (col + i / (p.dh / 32), i % (p.dh / 32))

/-- Offset in the gather buffer of a member's block of B. -/
def memberBase (d m : Nat) : Nat := dBOff d + (if dMembers d ≤ 1 then 0 else m) * memberBytes d true

/-- One read over the link that `kv_peer` names for a pair, whose bytes go to an HBM address. -/
def State.pairRead (s : State) (l part ctx off dest n : Nat) : State :=
  let k := s.link l
  let wait : LinkWait := { tag := k.nextTag, req := none, ctx := some ctx, op := 2, dest := dest, len := n, part := part
                           since := s.now, epoch := k.epoch.getD 0 }
  let t := s.modLink l (fun k => { k with nextTag := (k.nextTag + 1) % 1024, waits := k.waits ++ [wait] })
  let t : State := { t with mem := { t.mem with hubTags := t.mem.hubTags + 1 } }
  t.linkSend l 2 2 part k.nextTag n off []

/-- The link on which a partition reaches a peer, if it is granted and up (R418, R425). -/
def State.peerLink (s : State) (part peer : Nat) : Option Nat :=
  let e := kgetD s.persist.kvPeer (part * 16 + peer) 0
  if bit e 3 ∧ (s.link (bits e 2 0)).up then some (bits e 2 0) else none

/-- The parts of a pair that a role reads first: header, coded parts and, for keys, the scales: offset and bytes. -/
def PairShape.parts (p : PairShape) : List (Nat × Nat) :=
  [(0, 64), (p.codedAt, p.n * p.c)] ++ (if p.values then [] else [(p.scalesAt, 128)])

/-- Coded part of block `i` as it stands in the landing region. -/
def State.landedBlock (s : State) (part : Nat) (h : HandleEntry) (p : PairShape) (i : Nat) : List Byte × Bool :=
  s.hbmFetch part (landingAt h p + p.codedAt + i * p.c) p.c

/-- The walk of a command changed. -/
def State.modWalk (s : State) (core : Nat) (c : Cmd) (f : Walk → Option Walk) : State :=
  s.modCmd core c.ctx c.seq (fun m => { m with walk := m.walk.bind f })

/-- CAUSE 0x6 may hold for the chunks of the round that a context serves on a core (R83, R418). -/
def State.markWalk (s : State) (core ctx : Nat) : State :=
  let steps : List StepRef := match (s.core core).roundOf ctx with | none => [] | some r => r.steps.map (fun (x : ReadyStep) => x.step)
  s.markCause 6 (fun i x => steps.any (fun y => !y.job && y.id == i) && x.core == core)

/-- The pair is complete: its coded parts go to the gather buffer, its scales to the conversion block, all poisoned where
the header's GENs differ from the snapshot, after which a miss has CAUSE 0x6, or a part is missing; the walk goes on to its next
pair or ends (R83, R412, R418). -/
def State.pairDone (s : State) (core : Nat) (c : Cmd) (w : Walk) (q : PairRef) : State :=
  let d := c.desc w.stage
  let h := c.map w.stage (dBH d)
  let p := s.pairShape core d
  let land := landingAt h p
  let head := s.hbmFetch c.part land 2
  let stale := !head.2 && leAt head.1 0 2 != q.gens
  let bad := head.2 || stale
  let base := memberBase d q.member
  let t := (List.range p.n).foldl (fun t i =>
    let blk := s.landedBlock c.part h p i
    let at_ := p.blockPlace q.col i
    t.bufWrite core h (base + at_.1 * dBStr d * 64 + at_.2 * p.c) blk.1 (bad || blk.2)) s
  let t :=
    if dOp d ≠ 3 then t
    else
      let sc := s.hbmFetch c.part (land + p.scalesAt) 128
      let vh := c.map w.stage (dVecH d)
      let o := dVecOff d * 256 + 4 * (q.member * dNPad d + q.col)
      let line (f : Nat) : List Byte := ((List.range 32).map (fun i => toLe 4 (bf16As32 (leAt sc.1 (f + 2 * i) 2)))).flatten
      (t.bufWrite core vh o (line 0) (bad || sc.2)).bufWrite core vh (o + 8 * convLen d) (line 64) (bad || sc.2)
  let t := t.progressBy core 116 (sumNat (p.parts.map (fun x => (linesOf (land + x.1) x.2).length)))
  let t := if stale then t.markWalk core c.ctx else t
  t.modWalk core c (fun w =>
    let l := w.pairs.drop 1
    if l = [] then none else some { w with pairs := l, asked := none, ext := false })

/-- Blocks of the pair that are raw by the coded parts in the landing region. -/
def State.rawBlocks (s : State) (part : Nat) (h : HandleEntry) (p : PairShape) : List Nat :=
  (List.range p.n).filter (fun i => bit ((s.landedBlock part h p i).1.headD 0).toNat 0)

/-- Every part asked for has arrived: the extensions of raw blocks are asked for, or the pair is complete (R418). -/
def State.pairArrived (s : State) (core : Nat) (c : Cmd) (w : Walk) (q : PairRef) (l : Nat) : State :=
  let d := c.desc w.stage
  let h := c.map w.stage (dBH d)
  let p := s.pairShape core d
  let big := (s.codebookInfo core (dPart d) d).2
  let raw := s.rawBlocks c.part h p
  if w.ext ∨ raw = [] then s.pairDone core c w q
  else
    let t := s.modWalk core c (fun w => some { w with ext := true })
    raw.foldl (fun t i =>
      let at_ := p.blockPlace q.col i
      t.pairRead l c.part c.ctx (q.slot * 256 + p.extAt i) (extAddr d h big (memberBase d q.member) at_.1 at_.2) p.x) t

/-- SPILL_PAIR_REQUEST: the hub asks the peer for the parts of the walk's next pair; where the peer is not granted or its
link is down, they are answered with poisoned zeros (R418, R617). -/
def execSpillPairRequest (ctx : Nat) (s : State) : Host.Outcome State Fault Refusal :=
  .next (match s.walkCmd ctx with
  | none => s
  | some (core, c, w) =>
    if s.recovering core ∨ w.asked.isSome then s
    else match w.pairs with
    | [] => s
    | q :: _ =>
      let q := pairRef q
      let d := c.desc w.stage
      let h := c.map w.stage (dBH d)
      let p := s.pairShape core d
      let land := landingAt h p
      match s.peerLink c.part q.peer with
      | none =>
        let t := p.parts.foldl (fun t x => t.hbmWriteAs c.part (land + x.1) (List.replicate x.2 0) true) s
        let t := if bit (kgetD s.persist.kvPeer (c.part * 16 + q.peer) 0) 3 then t.markWalk core ctx else t
        State.after s (t.pairDone core c w q) core
      | some l =>
        if 1020 < (s.link l).waits.length ∨ 4092 < s.mem.hubTags then s
        else
          let t := s.modWalk core c (fun w => some { w with asked := some s.now })
          p.parts.foldl (fun t x => t.pairRead l c.part ctx (q.slot * 256 + x.1) (land + x.1) x.2) t)

/-- Every part of a context's pair that was outstanding has been answered with poisoned zeros (R617). -/
def State.pairLost (s : State) (ctx : Nat) : State :=
  match s.walkCmd ctx with
  | none => s
  | some (core, c, w) =>
    match w.pairs with
    | [] => s
    | q :: _ => State.after s (s.pairDone core c w (pairRef q)) core

/-- SPILL_WALK_TIMEOUT: parts not arrived within kv_walk_bound_ns, extensions not yet asked for among them, are
written as poisoned zeros, later responses are
discarded, an event is written, and the chunks of the command's round may miss with CAUSE 0x6 (R83, R418, R425). -/
def execSpillWalkTimeout (ctx : Nat) (s : State) : Host.Outcome State Fault Refusal :=
  .next (match s.walkCmd ctx with
  | none => s
  | some (core, c, w) =>
    match w.asked, w.pairs with
    | some t0, q :: _ =>
      let q := pairRef q
      if s.now < t0 + kgetD s.persist.kvWalkBound c.part 15000 then s
      else
        let t := (List.range 8).foldl (fun t l => ((t.link l).pairWaits ctx).foldl (fun t x => t.endWait l x none 0) t) s
        let t := (t.kvCount c.part 4).logEvent 0x3007 0 0x05 core [(16, ctx), (8, q.peer), (64, q.slot)]
        let d := c.desc w.stage
        let h := c.map w.stage (dBH d)
        let p := t.pairShape core d
        let big := (t.codebookInfo core (dPart d) d).2
        let t := if w.ext then t else (t.rawBlocks c.part h p).foldl (fun t i =>
          let at_ := p.blockPlace q.col i
          t.hbmWriteAs c.part (extAddr d h big (memberBase d q.member) at_.1 at_.2) (List.replicate p.x 0) true) t
        let t := t.markWalk core ctx
        State.after s (t.pairDone core c w q) core
    | _, _ => s)

end Sys2Proof.Machine
end

