-- ==== Sys2Proof/Machine/LinkOps.lean ====
section
/-! DEFINITION. Commands of the scale links (R614 to R629, R645, R646): links going down and up, keys, flits received,
messages and windows, link requests of cores, and responses. -/

namespace Sys2Proof.Machine

/-! ### Down and up (R617) -/

/-- A link goes down: reads are answered with poisoned zeros; writes and queued requests complete with LNK_SCALE_DOWN; it
begins to retrain. -/
def State.linkGoDown (s : State) (l : Nat) (code : Word16) : State :=
  let k := s.link l
  if !k.trained then s
  else
    let t := k.waits.foldl (fun t w => t.endWait l w none (if w.op = 2 then 0 else lnkSCALE_DOWN)) s
    let t := (k.waits.filterMap (·.ctx)).eraseDups.foldl (fun t x => t.pairLost x) t
    let t := k.reqs.foldl (fun t q => t.modLinkReq q.1 q.2.1 (fun r => { r with left := 0, code := if r.code = 0 then lnkSCALE_DOWN else r.code })) t
    let t := t.modLink l (fun k => { k with
      up := false, trained := false, epoch := none, oldEpoch := none, txq := [], served := (0, 0), replay := [], replayed := 0, nakSent := false
      reqs := [], waits := [], owed := [0, 0, 0, 0, 0], trainSince := some s.now
      counts := lbump k.counts 2 1 })
    let t := t.markCause 6 (fun _ x => (s.streamLinks x).contains l)
    if k.up then t.logEvent 0x9002 code.toNat 0x11 l [(8, l), (8, 0)] else t

/-- LINK_DOWN (R617). -/
def execLinkDown (link : Fin 8) (s : State) : Host.Outcome State Fault Refusal := .next (s.linkGoDown link lnkSCALE_DOWN)

/-- ENABLE of a link. -/
def State.linkEnabled (s : State) (l : Nat) : Bool := (kgetD s.persist.linkConfig l {}).enable != 0

/-- LINK_UP: all eight lanes are trained; sequence numbers and credits begin afresh and, where a peer is enrolled, the
class-0 key exchange begins (R614, R617, R618, R645). -/
def execLinkUp (link : Fin 8) (s : State) : Host.Outcome State Fault Refusal :=
  let k := s.link link
  .next (if !s.fw ∨ !s.linkEnabled link ∨ k.trained then s
  else
    let t := s.modLink link (fun k => { k with
      trained := true, txSeq := 0, rxSeq := 0, nakSent := false, replay := [], replayed := 0, credits := linkCredits
      owed := [0, 0, 0, 0, 0], txq := [] })
    if (kgetD s.persist.linkPeer link []).all (· == 0) then t else t.send (.linkKey link))

/-- LINK_RETRAIN_TIMEOUT: a link that has not come up within 50 ms reports the peer absent (R617). -/
def execLinkRetrainTimeout (link : Fin 8) (s : State) : Host.Outcome State Fault Refusal :=
  let k := s.link link
  .next (match k.trainSince with
  | none => s
  | some t0 =>
    if k.up ∨ k.peerAbsent ∨ s.now < t0 + 50000000 then s
    else (s.modLink link (fun k => { k with peerAbsent := true })).logEvent 0x9002 lnkPEER_ABSENT.toNat 0x11 link [(8, link.val), (8, 0)])

/-- LINK_KEY_EXCHANGE: the peer's signed key is checked against sec.link_peer; both directions' keys and a new epoch are
made, or the link stays down and retries (R645). -/
def execLinkKeyExchange (link : Fin 8) (peerKey : List Byte) (sigOk : Bool) (peerSerial : List Byte) (s : State) :
    Host.Outcome State Fault Refusal :=
  let k := s.link link
  let want := kgetD s.persist.linkPeer link []
  .next (if !k.trained ∨ k.up ∨ want.all (· == 0) then s
  else if sigOk ∧ peerKey = want then
    (s.modLink link (fun k => { k with
      up := true, epoch := some k.epochs, epochs := k.epochs + 1, oldEpoch := none, txCounter := 0, peerSerial := slice peerSerial 0 16
      peerAbsent := false, trainSince := none })).logEvent 0x9002 0 0x11 link [(8, link.val), (8, 1)]
  else
    (s.modLink link (fun k => { k with trained := false, trainSince := some s.now })).logEvent 0x9002 lnkAUTH.toNat 0x11 link
      [(8, link.val), (8, 0)])

/-- LINK_REKEY: the running link takes a new key and epoch, and the transmitter switches at a key-change message (R622, R646). -/
def execLinkRekey (link : Fin 8) (s : State) : Host.Outcome State Fault Refusal :=
  .next (if !(s.link link).up then s
  else
    let t := s.modLink link (fun k => ({ k with
      oldEpoch := k.epoch, epoch := some k.epochs, epochs := k.epochs + 1, txCounter := 0 } : Link).settleEpoch)
    t.send (.linkRekey link))

/-! ### Flits received (R615, R616, R619) -/

/-- A NAK: flits up to the last good one are acknowledged and the rest replayed; the eighth replay of one flit without an
acknowledgement takes the link down (R616). -/
def State.linkReplay (s : State) (l lastGood : Nat) : State :=
  let k := s.link l
  if !k.trained then s
  else
    let k := k.ackTo lastGood
    if k.replay = [] then s.modLink l (fun _ => k)
    else
      let k := { k with replayed := k.replayed + 1, counts := lbump k.counts 1 1 }
      let t := s.modLink l (fun _ => k)
      if 8 ≤ k.replayed then (t.logEvent 0x9003 lnkREPLAY.toNat 0x11 l [(8, l)]).linkGoDown l lnkREPLAY else t

/-- LINK_NAK (R616). -/
def execLinkNak (link : Fin 8) (lastGood : BitVec 12) (s : State) : Host.Outcome State Fault Refusal :=
  .next (s.linkReplay link lastGood.toNat)

/-- A received flit is discarded and a NAK names the last good one; later flits are discarded without another (R616). -/
def State.linkDiscard (s : State) (l : Nat) (crc : Bool) : State :=
  let k := s.link l
  let t := s.modLink l (fun k => { k with nakSent := true, counts := lbump k.counts 0 (b2n crc) })
  if k.nakSent then t else t.send (.linkNak l ((k.rxSeq + 4095) % 4096))

/-- Acknowledgement and credits that a good flit carries. -/
def Link.headerTaken (k : Link) (w : Nat × Nat) (h : Nat) : Link :=
  let k := k.ackTo (bits h 47 36)
  let tc := bits h 32 30
  let give := Nat.min (linkCredits.getD tc 0) (k.credits.getD tc 0 + bits h 29 20)
  ({ k with credits := lset k.credits tc give } : Link).pump w

/-- LINK_FLIT_RECEIVE: CRC and sequence are checked; acknowledgements and credits are taken; a bad flit is answered with a
NAK (R615, R616, R619). A flit has 242 payload bytes: anything else is no flit. -/
def execLinkFlitReceive (link : Fin 8) (flit : Flit) (s : State) : Host.Outcome State Fault Refusal :=
  let k := s.link link
  let h := flit.header.toNat
  let type := bits h 63 60
  if flit.payload.length ≠ 242 then .fault .notAFlit
  else .next (if !k.trained then s
  else if !flit.crcOk then s.linkDiscard link true
  else if type = 0 then
    if bits h 59 48 ≠ k.rxSeq then s.linkDiscard link false
    else s.modLink link (fun k => ({ k with
      rxSeq := (k.rxSeq + 1) % 4096, nakSent := false, owed := lbump k.owed (bits h 35 33) 1 } : Link).headerTaken (s.linkShares link) h)
  else if k.nakSent then s
  else if type = 1 then s.modLink link (·.headerTaken (s.linkShares link) h)
  else if type = 2 then (s.modLink link (·.headerTaken (s.linkShares link) h)).linkReplay link (bits h 47 36)
  else s)

/-- The payload of a message has left the link buffer: its flits' credits are returned (R619). -/
def State.linkDrained (s : State) (l tc n : Nat) : State :=
  s.modLink l (fun k => { k with owed := lset k.owed tc (k.owed.getD tc 0 - flitsOf n) })

/-! ### Windows and messages (R621 to R624) -/

/-- The range lies in the partition's window. -/
def State.inWindow (s : State) (l part off n : Nat) : Bool :=
  s.ownedBy part (windowAddr l part off) n && decide (off % extentBytes + n ≤ extentBytes)

/-- A message as received is authentic and the link runs; `none` where the link goes down or is down (R622). -/
def State.linkMsg? (s : State) (l : Nat) (m : LinkMsg) : Option State :=
  if !(s.link l).up then none
  else some (s.linkDrained l (lhTc m.header.toNat) m.payload.length)

/-- An inauthentic message takes the link down (R622). -/
def State.linkUnauth (s : State) (l : Nat) : State := if (s.link l).up then s.linkGoDown l lnkAUTH else s

/-- Bytes that a class-1 payload stands for: a coded one is decoded, and LENGTH counts the bytes it stands for (R318, R321, log
entry 37). -/
def linkPayload (h : Nat) (m : LinkMsg) : List Byte :=
  if lhTc h = 1 ∧ m.coded then slice (exwUnpack 4096 m.payload) 0 (lhLen h) else m.payload

/-- LINK_WRITE_MESSAGE: a write is checked against the partition's window, written to HBM and acknowledged; outside the
window it is refused and answered with MEM_RANGE (R316, R321, R464, R621 to R624). -/
def execLinkWriteMessage (link : Fin 8) (msg : LinkMsg) (s : State) : Host.Outcome State Fault Refusal :=
  let h := msg.header.toNat
  .next (if !msg.tagOk then s.linkUnauth link
  else match s.linkMsg? link msg with
  | none => s
  | some t =>
    if lhOp h ≠ 0 then s
    else
      let bs := linkPayload h msg
      let p := lhPart h
      let a := windowAddr link p (lhOff h)
      if t.inWindow link p (lhOff h) bs.length then
        (t.hbmWriteAs p a bs false).linkSend link 1 (lhTc h) p (lhTag h) 2 (lhOff h) (toLe 2 0)
      else (t.rangeEvent p a).linkSend link 1 (lhTc h) p (lhTag h) 2 (lhOff h) (toLe 2 memRANGE.toNat))

/-- LINK_READ_REQUEST: a read is checked against the window and answered with its bytes, or with MEM_RANGE (R464, R621 to
R623). -/
def execLinkReadRequest (link : Fin 8) (msg : LinkMsg) (s : State) : Host.Outcome State Fault Refusal :=
  let h := msg.header.toNat
  .next (if !msg.tagOk then s.linkUnauth link
  else match s.linkMsg? link msg with
  | none => s
  | some t =>
    if lhOp h ≠ 2 ∨ lhLen h = 0 ∨ 4096 < lhLen h then s
    else
      let p := lhPart h
      let a := windowAddr link p (lhOff h)
      if t.inWindow link p (lhOff h) (lhLen h) then
        let bs := t.hbmRead a (lhLen h)
        t.linkSend link 3 (lhTc h) p (lhTag h) (lhLen h) (lhOff h) bs
      else (t.rangeEvent p a).linkSend link 1 (lhTc h) p (lhTag h) 2 (lhOff h) (toLe 2 memRANGE.toNat))

/-! ### Link requests (R625, R626) -/

def lrOp (w : Nat) : Nat := bits w 1 0
def lrLink (w : Nat) : Nat := bits w 4 2
def lrTc (w : Nat) : Nat := bits w 7 5
def lrEncode (w : Nat) : Bool := bit w 8
def lrLen (w : Nat) : Nat := bits w 47 16
def lrLocal (w : Nat) : Nat := bits w 103 64
def lrRemote (w : Nat) : Nat := bits w 191 128
def lrSemIdx (w : Nat) : Nat := bits w 203 192
def lrSemCore (w : Nat) : Nat := bits w 206 204
def lrSemVal (w : Nat) : Nat := bits w 239 208

/-- Bytes that one message of a request carries: 4,096, or the 63 runs of 32 elements whose coded blocks fit them (R625, R627). -/
def lrStep (w : Nat) : Nat := if lrEncode w then 4032 else 4096

/-- The request breaks the table of R625 (log entry 38). -/
def lrBad (w : Nat) : Bool :=
  decide (1 < lrOp w) || lrTc w == 0 || decide (4 < lrTc w) || (lrEncode w && lrTc w != 1) || bits w 15 9 != 0
    || lrLen w == 0 || decide (16777216 < lrLen w) || bits w 63 48 != 0 || bits w 127 104 != 0 || bit w 207

/-- One message of the first queued request of a link leaves, if a TAG and a hub transfer tag are free (R478, R621, R626). -/
def State.sendNext (s : State) (l : Nat) : State :=
  let k := s.link l
  match k.reqs with
  | [] => s
  | (p, i, sent) :: rest =>
    match s.svc.linkReqs.find? (fun r => r.part == p && r.idx == i) with
    | none => s.modLink l (fun k => { k with reqs := rest })
    | some r =>
      if !k.up ∨ 1024 ≤ k.waits.length ∨ 4096 ≤ s.mem.hubTags then s
      else
        let w := r.word.toNat
        let n := Nat.min (lrStep w) (lrLen w - sent)
        let k := if lrEncode w ∧ sent = 0 then { k with flushEff := kgetD s.persist.flushMax l 2 } else k
        let tag := k.nextTag
        let wait : LinkWait := { tag := tag, req := some (p, i), ctx := none, op := if lrOp w = 1 then 2 else 0, dest := lrLocal w + sent
                                 len := n, part := p, since := s.now, epoch := k.epoch.getD 0 }
        let k := { k with
          nextTag := (tag + 1) % 1024, waits := k.waits ++ [wait]
          reqs := if lrLen w ≤ sent + n then rest else (p, i, sent + n) :: rest }
        let t : State := { (s.modLink l (fun _ => k)) with mem := { s.mem with hubTags := s.mem.hubTags + 1 } }
        if lrOp w = 1 then t.linkSend l 2 (lrTc w) p tag n (lrRemote w + sent) []
        else
          let bs := s.hbmRead (lrLocal w + sent) n
          t.linkSend l 0 (lrTc w) p tag n (lrRemote w + sent) (if lrEncode w then exwPayload k.flushEff bs else bs)

/-- Messages of a link's queued requests leave as far as tags allow. -/
def State.sendAll (s : State) (l : Nat) : Nat → State
  | 0 => s
  | n + 1 =>
    let t := s.sendNext l
    if t.mem.hubTags = s.mem.hubTags ∧ (t.link l).reqs = (s.link l).reqs then t else t.sendAll l n

/-- One request of a partition's link ring is taken up. -/
def State.takeRequest (s : State) (part ring idx : Nat) : State :=
  let w := s.hbmNat (ring + 32 * idx) 32
  let l := lrLink w
  let n := cdiv (lrLen w) (lrStep w)
  let code : Word16 :=
    if lrBad w then cmdCONTROL
    else if !s.ownedBy part (lrLocal w) (lrLen w) then memRANGE
    else if !(s.link l).up then lnkSCALE_DOWN
    else 0
  let t : State := { s with svc := { s.svc with linkReqs := s.svc.linkReqs ++
    [{ part := part, idx := idx, word := BitVec.ofNat 256 w, left := if code = 0 then n else 0, code := code }] } }
  let t := if code = memRANGE then t.rangeEvent part (lrLocal w) else t
  if code = 0 then t.modLink l (fun k => { k with reqs := k.reqs ++ [(part, idx, 0)] }) else t

/-- LINK_REQUEST: a prep core's store of the link ring's tail has the hub take up each new request and send its messages
(R478, R513, R625, R626). -/
def execLinkRequest (core : Fin 8) (prep : Fin 4) (tail : Word16) (s : State) : Host.Outcome State Fault Refusal :=
  .next (match s.prepPart core prep with
  | none => s
  | some part =>
    match kget? s.persist.parts part with
    | none => s
    | some r =>
      if s.fenced core then s
      else
        let old := kgetD s.svc.linkTail part 0
        let n := (tail.toNat + 65536 - old) % 65536
        if 1024 < n then s
        else
          let t := (List.range n).foldl (fun t i => t.takeRequest part r.linkRing ((old + i) % 1024)) s
          let t : State := { t with svc := { t.svc with linkTail := kset t.svc.linkTail part tail.toNat } }
          (List.range 8).foldl (fun t l => t.sendAll l 1024) t)

/-- LINK_REQUEST_COMPLETE: the hub writes the code of the partition's oldest ended request and then signals its semaphore
(R625); a write of class 2 that ends well is a pair spilled (R419, R425, log entry 130). -/
def execLinkRequestComplete (p : Fin 8) (s : State) : Host.Outcome State Fault Refusal :=
  .next (match kget? s.persist.parts p, s.svc.linkReqs.find? (fun r => r.part == p.val && r.left == 0) with
  | some rec, some r =>
    let w := r.word.toNat
    let t : State := { s with svc := { s.svc with linkReqs := s.svc.linkReqs.filter (fun q => !(q.part == r.part && q.idx == r.idx)) } }
    let t := t.hbmWriteAs p (rec.linkRing + 32 * r.idx + 30) (toLe 2 r.code.toNat) false
    let t := if lrOp w = 0 ∧ lrTc w = 2 ∧ r.code = 0 then t.kvCount p 2 else t
    if t.semOwned p (lrSemCore w) (lrSemIdx w) then t.semSend (lrSemCore w) (lrSemIdx w) (.add (BitVec.ofNat 32 (lrSemVal w))) else t
  | _, _ => s)

/-- LINK_WRITE_ACK_TIMEOUT: a write whose acknowledgement has not returned within kv_walk_bound_ns completes with
LNK_PEER_ABSENT (R624). -/
def execLinkWriteAckTimeout (link : Fin 8) (tag : BitVec 10) (s : State) : Host.Outcome State Fault Refusal :=
  .next (match (s.link link).waits.find? (fun w => w.tag == tag.toNat && w.op == 0) with
  | none => s
  | some w =>
    if s.now < w.since + kgetD s.persist.kvWalkBound w.part 15000 then s
    else
      let t := s.endWait link w none lnkPEER_ABSENT
      (t.modLink link (·.settleEpoch)).sendAll link 1024)

/-- LINK_RESPONSE: a write acknowledgement or a read response completes its message; one for a TAG that no longer waits is
discarded; the walk of a fenced core ends with its last outstanding part (R415, R418, R464, R621, R624, R626, R646). -/
def execLinkResponse (link : Fin 8) (msg : LinkMsg) (s : State) : Host.Outcome State Fault Refusal :=
  let h := msg.header.toNat
  .next (if !msg.tagOk then s.linkUnauth link
  else match s.linkMsg? link msg with
  | none => s
  | some t =>
    if lhOp h ≠ 1 ∧ lhOp h ≠ 3 then s
    else
      match (t.link link).waits.find? (fun w => w.tag == lhTag h) with
      | none => t
      | some w =>
        if w.op = 0 ∧ lhOp h = 3 then t
        else
          let code := BitVec.ofNat 16 (leAt msg.payload 0 2)
          let t := t.endWait link w (if lhOp h = 3 then some (linkPayload h msg) else none) (if lhOp h = 1 then code else 0)
          let t := (t.modLink link (·.settleEpoch)).sendAll link 1024
          match w.ctx.bind t.walkCmd with
          | none => t
          | some (core, c, k) =>
            match k.pairs with
            | [] => t
            | q :: _ =>
              if (t.link link).pairWaits c.ctx ≠ [] then t
              else if s.recovering core then t.modWalk core c (fun _ => none)
              else State.after s (t.pairArrived core c k (pairRef q) link) core)

end Sys2Proof.Machine
end

