-- ==== Sys2Proof/Machine/Streams.lean ====
section
/-! DEFINITION. Chunks and their timing: timestamps, packets into chunks, chunk closes, moves of the anchor, and the steps
of an accepted chunk becoming eligible (R46 to R57, R83, R454, R597, R600, R603 to R606). -/

namespace Sys2Proof.Machine

/-! ### Timestamps (R46, R47) -/

/-- Hertz of a stream's timestamp clock. -/
def StreamCtx.rateHz (x : StreamCtx) : Int := rateKhz x.rate * 1000

/-- Timestamp units of a chunk. -/
def StreamCtx.units (x : StreamCtx) : Nat := chunkUnits x.period x.rate

/-- The extended timestamp of the first sample of the chunk now open. -/
def StreamCtx.openTs (x : StreamCtx) : Int := x.firstTs + x.nextChunk * x.units

/-- The instant at which an extended timestamp is due, rounded down to a whole nanosecond. -/
def StreamCtx.dueAt (x : StreamCtx) (ts : Int) : Int := x.anchorNs + (ts - x.anchorTs) * 1000000000 / x.rateHz

/-- The timestamp boundary of the chunk now open. -/
def StreamCtx.boundary (x : StreamCtx) : Nat := (x.dueAt (x.openTs + x.units)).toNat

/-- A received timestamp extended to the value within -2^31 to 2^31 - 1 of a reference. -/
def extendTs (ref : Int) (ts : Nat) : Int := ref + sext 32 (((ts : Int) - ref) % 4294967296).toNat

/-! ### Items of a payload (R90, R597, R598, R606, R713) -/

/-- How a stream's payload divides: timestamp units and bytes of an item, items of a chunk, and an item of zero. -/
structure PayShape where
  step : Nat
  bytes : Nat
  items : Nat
  zero : List Byte
  deriving DecidableEq, Repr

/-- The payload shape of a stream: a sample of audio, or a frame of the package's DIM elements in its FMT. -/
def StreamCtx.payShape (x : StreamCtx) (p : Package) : PayShape :=
  let n := x.units
  if x.payload = 0 then { step := 1, bytes := 2, items := n, zero := [0, 0] }
  else if x.payload = 1 then { step := 1, bytes := 1, items := n, zero := [0xD5] }
  else if x.payload = 2 then { step := 1, bytes := 1, items := n, zero := [0xFF] }
  else
    let st := Nat.max 1 p.frameStep
    let b := Nat.max 1 (cdiv (p.dim * fmtBits p.fmt) 8)
    { step := st, bytes := b, items := cdiv n st, zero := List.replicate b 0 }

/-- Bytes between two places of a stream's ingress ring (R713). -/
def PayShape.share (g : PayShape) : Nat := cdiv (g.items * g.bytes) 4096 * 4096

/-- The item of a packet that lies in the timestamp units from `t` to one item later. -/
def Arrived.item? (a : Arrived) (g : PayShape) (t : Int) : Option (List Byte) :=
  let j : Int := if a.ts ≤ t then (t - a.ts + g.step - 1) / g.step else 0
  let at_ := a.ts + j * g.step
  if t ≤ at_ ∧ at_ < t + g.step ∧ at_ < a.ts + a.len then some (slice a.data (j.toNat * g.bytes) g.bytes) else none

/-- The item of a chunk at a timestamp, from the packet that came first, with that packet's arrival. -/
def itemFrom (g : PayShape) (t : Int) : List Arrived → Option (Nat × List Byte)
  | [] => none
  | a :: l =>
    match a.item? g t with
    | some b => some (a.at_, b)
    | none => itemFrom g t l

/-- The items of the chunk now open, in order; `none` where missing. -/
def StreamCtx.openItems (x : StreamCtx) (g : PayShape) : List (Option (List Byte)) :=
  (List.range g.items).map (fun (i : Nat) => (itemFrom g (x.openTs + (i : Int) * g.step) x.arrived).map Prod.snd)

/-- The arrival instant of the packet that carries the open chunk's last sample, once it has come. -/
def StreamCtx.lastArrival (x : StreamCtx) (g : PayShape) : Option Nat :=
  (itemFrom g (x.openTs + ((g.items - 1 : Nat) : Int) * g.step) x.arrived).map Prod.fst

/-! ### Conditions of R83 that stand -/

/-- The conditions of R83 that hold now for a stream's resources and outlast the command that brought them. -/
def State.standingCauses (s : State) (x : StreamCtx) : NSet :=
  let k := (s.core x.core).seqr
  let one := (k.state != .running && (x.uncovered k.gap k.lastProgress || s.overcommitted x.core))
    || (kgetD s.recov.dies (dieOf x.core) {}).state != .running
  ([(1, one), (2, s.overloaded x.core 0), (3, s.time.lost || s.aon.warned != []),
    (4, !(s.port x.port).up || (s.port x.port).holdUntil.isSome), (6, (s.streamLinks x).any (fun l => !(s.link l).up))].filter Prod.snd).map Prod.fst

/-! ### Closing a chunk (R13, R48 to R54, R454, R603) -/

/-- When the chunk now open closes, and the lag of an arrival; `none` while it stays open. `late` says whether the instant
of the late limit itself has passed without the packet. -/
def StreamCtx.closeAt (x : StreamCtx) (g : PayShape) (now : Nat) (late : Bool) : Option (Nat × Option Int) :=
  let b := x.boundary
  let lim := b + x.lateLimit
  if !x.anchored || x.closing then none
  else
    match x.lastArrival g with
    | some a =>
      let c := Nat.max (if a ≤ lim then Nat.max a b else lim) x.lastClose
      if c ≤ now then some (c, if a ≤ lim then some ((a : Int) - b) else none) else none
    | none =>
      if lim < now ∨ (late ∧ lim ≤ now) then some (Nat.max lim x.lastClose, none) else none

/-- The runs of R52 and R53 after a chunk that closed with a lag, and the move of the anchor that they bring. The spec does not say
whether the runs start afresh after a move: both do (DESIGN CHOICE, log entry 137). -/
def StreamCtx.lagged (x : StreamCtx) (lag : Option Int) : StreamCtx × Option Int :=
  let t : Int := periodNs x.period
  let run := match lag with
    | some l => if 0 < l ∧ (x.lateLimit : Int) ≤ 2 * l then l.toNat :: x.lagRun else []
    | none => []
  let early := match lag with
    | some l => if l ≤ -t then x.earlyRun + 1 else 0
    | none => 0
  if run.length = 16 then
    let m : Int := ((run.foldl Nat.min (run.headD 0) : Nat) : Int)
    ({ x with lagRun := [], earlyRun := 0, anchorNs := x.anchorNs + m, reanchorDue := true }, some m)
  else if early = 16 then
    ({ x with lagRun := [], earlyRun := 0, anchorNs := x.anchorNs - t / 16, reanchorDue := true }, some (-(t / 16)))
  else ({ x with lagRun := run, earlyRun := early }, none)

/-- Keys written to a slot in use take effect at the stream's next chunk; the old keys are accepted for 100 ms more. -/
def State.newKeys (s : State) (x : StreamCtx) : State :=
  if !x.srtp then s
  else { s with net := { s.net with srtp := kmod? s.net.srtp x.keySlot (fun k =>
    match k.next with
    | none => k
    | some n => { k with keys := n, next := none, old := some (s.now + 100000000, k.keys) }) } }

/-- The chunk now open as it is accepted at an instant. -/
def State.acceptedChunk (s : State) (x : StreamCtx) (at_ : Nat) (gap : Bool) : Chunk :=
  { idx := x.nextChunk, accept := at_, deadline := if x.be then 2 ^ 64 - 1 else at_ + x.promise
    flags := (if gap then fGap else 0) ||| (if x.reanchorDue then fReanchored else 0)
      ||| (if x.variantFb then fFallback ||| fDegraded else 0)
    onFallback := x.variantFb, causes := s.standingCauses x }

/-- The chunk now open closes: it is accepted and put in the ring with zeros for what is missing, or, where a best-effort
stream's ring already holds four chunks, discarded. Where the ring of a latency-critical stream holds four, the spec says nothing:
the chunk takes the oldest one's place and the ring counts four (DESIGN CHOICE, log entry 134). -/
def State.closeChunk (s : State) (i : Nat) (x : StreamCtx) (g : PayShape) (at_ : Nat) (lag : Option Int) : State :=
  let items := x.openItems g
  let gap := items.any (·.isNone)
  let img := (items.map (fun o => o.getD g.zero)).flatten
  let c := s.acceptedChunk x at_ gap
  let (y, moved) := { x with reanchorDue := false }.lagged lag
  let y := { y with nextChunk := x.nextChunk + 1, lastClose := at_ }
  let y := { y with arrived := y.arrived.filter (fun a => decide (y.openTs < a.ts + a.len)) }
  let drop := x.be && decide (4 ≤ x.ring.length)
  let z : StreamCtx :=
    if drop then
      { y with chunks := y.chunks.map (fun q => if some q.idx == x.ring.head? then { q with flags := q.flags ||| fGap } else q) }
    else
      { y with chunks := y.chunks ++ [c], lastDeadline := c.deadline, ring := (y.ring ++ [x.nextChunk]).drop (y.ring.length - 3)
               ringWr := (x.ringWr + 1) % 4 }
  let t := if drop then s else s.hbmWrite (x.ringAddr + x.ringWr * g.share) img false
  let t := t.modStream i (fun _ => z)
  let t := t.modStats i (fun r => { r with accepted := r.accepted + 1, gaps := r.gaps + b2n (gap || drop) })
  let t := t.newKeys x
  match moved with
  | none => t
  | some m => t.logEvent 0x2004 0 0x12 0 [(16, i), (64, m)]

/-- Closes up to a number of chunks of a stream that close by an instant. -/
def State.closeChunks (s : State) (i : Nat) (g : PayShape) (late : Bool) (now : Nat) : Nat → State
  | 0 => s
  | n + 1 =>
    match s.stream? i with
    | none => s
    | some x =>
      match x.closeAt g now late with
      | none => s
      | some (c, lag) => State.closeChunks (s.closeChunk i x g c lag) i g late now n

/-- A bound on the chunks of a stream that can close by now. -/
def State.closeFuel (s : State) (x : StreamCtx) : Nat := 4 + (s.now + periodNs x.period - x.boundary) / periodNs x.period

/-- The payload shape of a stream under the package that its model slot holds. -/
def State.shapeOf (s : State) (x : StreamCtx) : Option PayShape := (s.pkg? x.modelSlot).map x.payShape

/-! ### Packets (R46, R50, R51, R600, R604) -/

/-- A packet of a stream as its headers give it. -/
structure MediaIn where
  seq : Nat
  ts : Nat
  pt : Option Nat
  data : List Byte
  deriving DecidableEq, Repr

/-- The samples of a packet that belong to the open chunk and the three after it go to their places in the ring, where a
place is free of chunks not yet served (R55, R592). -/
def State.fillRing (s : State) (x : StreamCtx) (g : PayShape) (a : Arrived) : State :=
  (List.range 4).foldl (fun t d =>
    if 4 ≤ x.ring.length + d then t
    else
      let lo := x.openTs + ((d * x.units : Nat) : Int)
      (List.range g.items).foldl (fun t (i : Nat) =>
        match a.item? g (lo + (i : Int) * g.step) with
        | none => t
        | some b => t.hbmWrite (x.ringAddr + (x.ringWr + d) % 4 * g.share + i * g.bytes) b false) t) s

/-- A packet of a stream that arrived at an instant: the first anchors the mapping; one that comes late, early or a second
time is counted; the samples of any other are placed in their chunks (R46, R47, R50, R51). -/
def State.ingest (s : State) (i : Nat) (x : StreamCtx) (g : PayShape) (m : MediaIn) (at_ : Nat) (replay : Bool) : State :=
  let len := m.data.length / g.bytes * g.step
  if len = 0 ∨ x.closing then s
  else
    let first := !x.anchored
    let x : StreamCtx := if first then
        { x with anchored := true, firstTs := m.ts, anchorTs := (m.ts : Int) + len, anchorNs := at_, payloadType := m.pt }
      else x
    let ts := extendTs x.openTs m.ts
    let count (f : StreamStats → StreamStats) : State := s.modStats i f
    if ts + len ≤ x.openTs then count (fun r => { r with latePackets := r.latePackets + 1 })
    else if replay || decide (x.openTs + 4 * x.units ≤ ts) || x.arrived.any (fun a => a.seq == m.seq && a.ts == ts) then
      (count (fun r => { r with earlyPackets := r.earlyPackets + 1 })).markCause 5 (fun j _ => j == i)
    else
      let a : Arrived := { ts := ts, len := len, data := m.data, at_ := at_, seq := m.seq }
      let t := s.modStream i (fun _ => { x with arrived := x.arrived ++ [a] })
      t.fillRing x g a

/-- An RTP packet's fields; `none` where it is dropped (R597). -/
def rtpParse (g : PayShape) (bs : List Byte) : Option MediaIn :=
  let b0 := leAt bs 0 1
  let cc := b0 % 16
  let h := 12 + 4 * cc
  let h := if bit b0 4 then h + 4 + 4 * beAt bs (h + 2) 2 else h
  let pad := if bit b0 5 then leAt bs (bs.length - 1) 1 else 0
  if b0 / 64 ≠ 2 ∨ bs.length < h + pad ∨ (bs.length - h - pad) % g.bytes ≠ 0 then none
  else some { seq := beAt bs 2 2, ts := beAt bs 4 4, pt := some (leAt bs 1 1 % 128), data := slice bs h (bs.length - h - pad) }

/-- A datagram of feature frames or tensor framing; `none` where it is dropped (R605, R606). -/
def framingParse (p : Package) (g : PayShape) (payload : Nat) (bs : List Byte) : Option MediaIn :=
  let n := beAt bs 22 2
  if bs.length < 24 + n ∨ beAt bs 0 2 ≠ 0x4C54 ∨ beAt bs 2 1 ≠ 1 ∨ beAt bs 3 1 % 16 ≠ payload - 3
      ∨ bits (beAt bs 16 8) 43 40 ≠ p.fmt ∨ beAt bs 20 2 ≠ p.dim ∨ n % g.bytes ≠ 0 then none
  else some { seq := beAt bs 12 2, ts := beAt bs 8 4, pt := none, data := slice bs 24 n }

/-- The index of an SRTP packet after RFC 3711: of the three that its sequence number allows, the one nearest the highest
accepted (R600). -/
def srtpIndex (high : Option Nat) (seq : Nat) : Nat :=
  match high with
  | none => seq
  | some h =>
    let roc := h / 65536
    let hs := h % 65536
    if hs < 32768 then (if hs + 32768 < seq ∧ 0 < roc then (roc - 1) * 65536 + seq else roc * 65536 + seq)
    else if seq + 32768 < hs then (roc + 1) * 65536 + seq else roc * 65536 + seq

/-- An index already accepted or older than the replay window of 128 (R600). -/
def StreamCtx.srtpReplayed (x : StreamCtx) (idx : Nat) : Bool :=
  match x.srtpHigh with
  | none => false
  | some h => decide (idx + 128 ≤ h) || x.srtpSeen.contains idx

/-- The replay window after an accepted index. -/
def StreamCtx.srtpAccept (x : StreamCtx) (idx : Nat) : StreamCtx :=
  let h := match x.srtpHigh with
    | none => idx
    | some h => Nat.max h idx
  { x with srtpHigh := some h, srtpSeen := (nins x.srtpSeen idx).filter (fun j => decide (h < j + 128)) }

/-- A packet that fails authentication: counted as late, with an event at most once a second (R604). -/
def State.srtpFail (s : State) (i : Nat) (x : StreamCtx) : State :=
  let t := s.modStats i (fun r => { r with latePackets := r.latePackets + 1 })
  let due := match x.authEventAt with
    | none => true
    | some e => decide (e + 1000000000 ≤ s.now)
  if due then (t.modStream i (fun y => { y with authEventAt := some s.now })).logEvent 0x9004 0 0x10 x.port [(16, i)] else t

/-- A media datagram of a stream: overdue chunks close first, then the packet is taken in, then every chunk that it lets
close by arrival closes. -/
def State.mediaIn (s : State) (i : Nat) (x : StreamCtx) (p : Package) (bs : List Byte) (authOk : Bool) (at_ : Nat) : State :=
  let g := x.payShape p
  if x.closing then s
  else if x.srtp && !authOk then s.srtpFail i x
  else
    let s := s.closeChunks i g false at_ (s.closeFuel x)
    let m? := if x.payload ≤ 2 then rtpParse g bs else framingParse p g x.payload bs
    match m?, s.stream? i with
    | some m, some x =>
      let idx := srtpIndex x.srtpHigh m.seq
      let replay := x.srtp && x.srtpReplayed idx
      let x := if x.srtp && !replay then x.srtpAccept idx else x
      let t := s.modStream i (fun _ => x)
      let t := t.ingest i x g m at_ replay
      match t.stream? i with
      | none => t
      | some y => t.closeChunks i g false t.now (t.closeFuel y)
    | _, _ => s.markCause 5 (fun j _ => j == i)

/-! ### Meanings -/

/-- CHUNK_CLOSE_AT_BOUNDARY: the open chunk's boundary passes with its last sample already here, so it closes, is accepted
and is stamped with its deadline (R13, R47, R49, R83). -/
def execChunkCloseAtBoundary (stream : Fin 16384) (s : State) : Host.Outcome State Fault Refusal :=
  .next (match s.stream? stream with
  | none => s
  | some x =>
    match s.shapeOf x with
    | none => s
    | some g => if (x.lastArrival g).isSome then s.closeChunks stream g false s.now 1 else s)

/-- LATE_LIMIT_EXPIRY: the boundary plus the late limit passes without the chunk's last packet: it closes at that instant,
or with the chunk before it, zero-filled and with GAP (R48, R49). -/
def execLateLimitExpiry (stream : Fin 16384) (s : State) : Host.Outcome State Fault Refusal :=
  .next (match s.stream? stream with
  | none => s
  | some x =>
    match s.shapeOf x with
    | none => s
    | some g => if (x.lastArrival g).isSome then s else s.closeChunks stream g true s.now 1)

/-- The first chunk of a stream that is not yet committed: a later chunk starts no step before it (R55). -/
def StreamCtx.current (x : StreamCtx) : Option Chunk := x.chunks.find? (fun c => c.phase != .committed)

/-- The ready step of a chunk's current stage. -/
def State.readyStepOf (s : State) (i : Nat) (x : StreamCtx) (c : Chunk) : ReadyStep :=
  { step := { id := i, chunk := c.idx }, slot := x.modelSlot, stage := c.stage, fallback := c.onFallback, be := x.be
    deadline := c.deadline, since := s.now, tenant := x.tenant }

/-- STEP_ELIGIBLE: the current step of a stream's first uncommitted chunk becomes eligible and enters its ready queue: the
first after the chunk's close and its predecessor's commit, a later one once the step before it has completed
(R55, R57, R60, R440). -/
def execStepEligible (stream : Fin 16384) (s : State) : Host.Outcome State Fault Refusal :=
  .next (match s.stream? stream with
  | none => s
  | some x =>
    match x.current with
    | none => s
    | some c =>
      if c.phase ≠ .waiting then s
      else
        let t := s.modChunk stream c.idx (fun c => { c with phase := .ready, eligibleAt := s.now })
        State.after s (t.enqueueStep x.core (s.readyStepOf stream x c)) x.core)

end Sys2Proof.Machine
end

