-- ==== Sys2Proof/Machine/Monitor.lean ====
section
/-! DEFINITION. The deadline monitor, the commit of a chunk, its result's way out of a port, misses, and the freeing of a
closed stream's context (R56, R58, R68 to R85, R170, R171, R507 to R509, R594, R596, R599, R605, R607). -/

namespace Sys2Proof.Machine

/-- A counter of a partition's poison_stats (R534). -/
def State.bumpPoison (s : State) (part i : Nat) : State :=
  { s with recov := { s.recov with poisonStats := bumpIn s.recov.poisonStats 5 part i 1 } }

/-- The cost table of the variant that a chunk runs on. -/
def State.tableFor (s : State) (x : StreamCtx) (fallback : Bool) : Option CostTable :=
  (s.pkg? x.modelSlot).bind (fun p => pkgTable p x.period fallback)

/-! ### Checkpoints (R72) -/

/-- Remaining path and engine-cycles of a chunk for the variant that it runs on: those of its latest evaluated checkpoint,
or the whole of its cost table. -/
def State.remaining (s : State) (x : StreamCtx) (c : Chunk) : Nat × Nat :=
  match c.rem with
  | some (pp, pc, fp, fc) => if c.onFallback then (fp, fc) else (pp, pc)
  | none =>
    match s.tableFor x c.onFallback with
    | some t => (t.p, costE t)
    | none => (0, 0)

/-- Engine-cycles that stand ahead of a chunk on its core. -/
def State.aheadOf (s : State) (stream : Nat) (x : StreamCtx) (c : Chunk) : Nat :=
  sumNat (s.streams.ctx.map (fun q =>
    if q.2.be || q.2.core != x.core then 0
    else sumNat (q.2.chunks.map (fun o =>
      if o.phase != .committed && (decide (o.deadline < c.deadline) || (o.deadline == c.deadline && decide (q.1 < stream)))
          && !(q.1 == stream && o.idx == c.idx)
        then (s.remaining q.2 o).2 else 0))))

/-- The predicted completion of a chunk with a remaining path. -/
def State.predict (s : State) (stream : Nat) (x : StreamCtx) (c : Chunk) (path : Nat) : Nat :=
  let ahead := s.aheadOf stream x c
  let cap := s.capacity x.core
  s.now + path + (if ahead = 0 then 0 else if cap = 0 then 2 ^ 64 else cdiv (ahead * 1000000000) cap) + blockNs

/-- A decision on the optional work of one checkpoint. -/
inductive OptDecision where
  | noWork | granted | suppressed
  deriving DecidableEq, Repr

/-- What the monitor decides at a checkpoint: a switch to the fallback variant, the suppression of all optional work, and
the checkpoint's own optional work. -/
structure Verdict where
  fallback : Bool
  offAll : Bool
  opt : OptDecision
  deriving DecidableEq, Repr

/-- R72 for a latency-critical chunk, R171 for a best-effort one. Each checkpoint decides its own optional work alone, also
where an earlier one has suppressed what followed it (R72, R711). -/
def decideCkpt (be onFallback available follows : Bool) (pred optCost d reserve : Nat) : Verdict :=
  let supp := if follows then OptDecision.suppressed else .noWork
  if be then { fallback := onFallback, offAll := false, opt := if follows then .granted else .noWork }
  else if onFallback || decide (d < pred + aOut) then { fallback := onFallback || available, offAll := true, opt := supp }
  else if follows && decide (pred + optCost + reserve + aOut ≤ d) then { fallback := onFallback, offAll := false, opt := .granted }
  else { fallback := onFallback, offAll := false, opt := supp }

/-- A re-run of a poisoned step (R507). -/
inductive RerunDecision where
  /-- The report carries no poison that is new, or it is already being re-run. -/
  | none_
  | granted
  /-- Refused, or the re-run was poisoned again. -/
  | stands (refused : Bool)
  deriving DecidableEq, Repr

/-- R507 for a report: pred is pred_p, cost the step's cost. -/
def decideRerun (be poison : Bool) (c : Chunk) (pred cost reserve : Nat) : RerunDecision :=
  if !poison || c.rerunDue || c.standingPoison then .none_
  else if c.poisonRerun then .stands false
  else if be || decide (pred + cost + reserve + aOut ≤ c.deadline) then .granted
  else .stands true

/-- DECISION byte of R71. -/
def decisionByte (fallback : Bool) (o : OptDecision) (r : RerunDecision) : Byte :=
  BitVec.ofNat 8 (b2n fallback + 2 * b2n (o == .granted) + 4 * b2n (o == .suppressed) + 8 * b2n (r == .granted))

/-- The chunk after the decisions on a report. -/
def Chunk.decided (c : Chunk) (v : Verdict) (r : RerunDecision) (poison clipped : Bool)
    (rem : Option (Nat × Nat × Nat × Nat)) : Chunk :=
  let f := c.flags ||| (if v.fallback then fFallback ||| fDegraded else 0)
    ||| (if v.opt == .suppressed then fOptSuppressed ||| fDegraded else 0)
    ||| (if clipped then fClipped else 0)
    ||| (match r with | .stands _ => fPoisoned | _ => 0)
  { c with
    flags := f, onFallback := v.fallback, optOff := c.optOff || v.offAll, rem := rem.orElse (fun _ => c.rem)
    stepPoison := c.stepPoison || poison
    rerunDue := c.rerunDue || r == .granted
    rerunCounted := c.rerunCounted || r == .granted
    standingPoison := c.standingPoison || (match r with | .stands _ => true | _ => false) }

/-- The round that a report is of. -/
def CkptReport.of_ (r : CkptReport) (q : Round) : Bool := q.ctx == r.ctx && !q.yielded

/-- The clip-share threshold in force for a report: the one that its round latched (R164, R166). -/
def State.reportThreshold (s : State) (core : Nat) (r : CkptReport) : Nat :=
  match (s.core core).rounds.find? r.of_ with
  | none => 0
  | some q => q.clipThreshold

/-- A decision noted: the chunk's flags and path, the stream's fallback, and the counters of the safeguards and of poison. -/
def State.noteDecision (s : State) (core : Nat) (r : CkptReport) (x : StreamCtx) (c : Chunk) (v : Verdict) (rr : RerunDecision)
    (exceeds wider clipped : Bool) (rem : Option (Nat × Nat × Nat × Nat)) : State :=
  let t := s.modChunk r.stream c.idx (·.decided v rr r.poison clipped rem)
  let t := if v.fallback && !c.onFallback then t.modStream r.stream (fun x => { x with onFallback := true }) else t
  let rerun := exceeds && wider && v.opt == .granted
  let t := if exceeds then (t.bumpSafeguard x.part 1).bumpSafeguard x.part (if !wider then 4 else if rerun then 2 else 3) else t
  let t := if rerun then t.modCore core (fun k => { k with rounds := k.rounds.map (fun q => if r.of_ q then { q with wider := true } else q) })
    else t
  let t := if r.poison && !c.stepPoison then t.bumpPoison x.part 0 else t
  match rr with
  | .granted =>
    let t := t.bumpPoison x.part 1
    if c.rerunCounted then t else t.modStats r.stream (fun q => { q with rerunChunks := q.rerunChunks + 1 })
  | .stands true => t.bumpPoison x.part 2
  | _ => t

/-- One report decided: the chunk, the counters of the safeguards and of poison, and the decision byte. A chunk exceeds at a
safeguarded layer when its report says so and the round's threshold is not 0; at a checkpoint where it has been tested it is
not tested again (R164, R166, R169 to R172). -/
def State.decideReport (s : State) (core : Nat) (r : CkptReport) : State × Byte :=
  match s.stream? r.stream with
  | none => (s, 0)
  | some x =>
    match x.chunk? r.chunk with
    | none => (s, 0)
    | some c =>
      let e? := (s.tableFor x r.fallback).bind (fun t => t.ckpts[r.ckpt]?)
      let safe := match e? with | some e => e.safeguarded | none => false
      let wider := match e? with | some e => e.wider.isSome | none => false
      let exceeds := safe && r.clip && s.reportThreshold core r != 0 && !c.clipTested.contains r.ckpt
      let follows := match e? with
        | some e => (exceeds && wider) || e.optFollows
        | none => false
      let path := match e? with
        | some e => if c.onFallback then e.fbPath else e.remPath
        | none => (s.remaining x c).1
      let pPath := match e? with
        | some e => e.remPath
        | none => (s.remaining x c).1
      let pred := s.predict r.stream x c pPath
      let v :=
        if e?.isNone then { fallback := c.onFallback, offAll := false, opt := .noWork }
        else decideCkpt x.be c.onFallback (s.tableFor x true).isSome follows pred
          ((e?.bind (·.optCost)).getD 0) c.deadline x.reserve
      let rr := decideRerun x.be r.poison c pred ((s.remaining x c).1 - path) x.reserve
      let clipped := exceeds && !(wider && v.opt == .granted)
      let rem := e?.map (fun e => (e.remPath, e.remCycles, e.fbPath, e.fbCycles))
      let t := s.noteDecision core r x c v rr exceeds wider clipped rem
      (if safe then t.modChunk r.stream c.idx (fun c => { c with clipTested := nins c.clipTested r.ckpt }) else t,
       decisionByte v.fallback v.opt rr)

/-- CHECKPOINT_REPORT: the deadline monitor takes the oldest report of a core, decides it and writes its decision byte at
byte 3,072 + n of the context's round inbox (R68, R71, R72, R164, R170, R171, R507, R508). -/
def execCheckpointReport (core : Fin 8) (s : State) : Host.Outcome State Fault Refusal :=
  .next (match (s.core core).reports with
  | [] => s
  | r :: rest =>
    let t := s.modCore core (fun k => { k with reports := rest })
    let (t, b) := t.decideReport core r
    let t := match t.ctx? r.ctx with
      | none => t
      | some ct => t.hbmWrite (ct.inboxBase + 3072 + r.n) [b] false
    State.after s (t.modCmd core r.ctx r.seq (fun c => { c with decisions := c.decisions - 1 })) core)

/-! ### Packet-pool buffers (R376, R591, R594) -/

/-- Reserve of a channel of the hub packet pool. -/
def poolReserveOf (chan : Nat) : Nat :=
  if chan < 2 then 1536 else if chan < 4 then 128 else if chan < 6 then 1024 else if chan < 14 then 256 else 0

/-- Shared buffers in use. -/
def Net.sharedUsed (n : Net) : Nat := sumNat ((List.range 16).map (fun c => kgetD n.pool c 0 - poolReserveOf c))

/-- A channel may be given so many buffers now. -/
def Net.poolFits (n : Net) (chan want : Nat) : Bool :=
  let u := kgetD n.pool chan 0
  decide (n.sharedUsed - (u - poolReserveOf chan) + (u + want - poolReserveOf chan) ≤ 768)

/-- Buffers taken by a channel, and returned. -/
def State.poolUse (s : State) (chan want : Nat) : State :=
  { s with net := { s.net with pool := kset s.net.pool chan (kgetD s.net.pool chan 0 + want) } }
def State.poolReturn (s : State) (chan want : Nat) : State :=
  { s with net := { s.net with pool := kset s.net.pool chan (kgetD s.net.pool chan 0 - want) } }

/-- The channel from which a result takes its buffers: the port's egress, or only shared buffers where best-effort. -/
def egressChan (port : Nat) (be : Bool) : Nat := if be then 14 + port else 4 + port

/-- Results of a port that wait for buffers take them, latency-critical ones in deadline order first, while they fit. -/
def State.grantEgress (s : State) (port : Nat) (be : Bool) : State :=
  let q := kgetD s.streams.egress port []
  let waiting := q.filter (fun r => r.be == be && !r.held)
  match (if be then waiting.head? else bestBy (fun a b => decide (a.deadline < b.deadline)) waiting) with
  | none => s
  | some r =>
    let ch := egressChan port be
    if s.net.poolFits ch r.want then
      let t := s.poolUse ch r.want
      { t with streams := { t.streams with egress := kset t.streams.egress port (q.map (fun o =>
          if o == r then { o with held := true } else o)) } }
    else s

/-! ### Misses (R80 to R83) -/

/-- A miss of a chunk: one of the conditions of R83 that held since its acceptance is its cause, 0xF where none did. -/
def State.countMiss (s : State) (i : Nat) (x : StreamCtx) (c : Chunk) : State :=
  let causes := (s.standingCauses x).foldl nins c.causes
  let (d, s) := s.draw
  let cause := if causes = [] then 0xF else causes.getD (Config.missPick d % causes.length) 0xF
  let flags := if x.lateDiscard then c.flags else c.flags ||| fLate
  let t := s.modChunk i c.idx (fun c => { c with missed := true, flags := flags })
  let t := t.modStats i (fun r => { r with misses := r.misses + 1 })
  let rec_ : MissRec := { accept := c.accept, deadline := c.deadline, deliver := none, stream := i, cause := cause
                          flags := flags, chunk := c.idx }
  let t : State := { t with streams := { t.streams with
    missTotal := t.streams.missTotal + 1, missLog := (rec_ :: t.streams.missLog).take 256 } }
  let t := t.logEvent 0x2003 0 0x12 0 [(16, i), (16, c.idx), (8, cause)]
  if s.persist.missAlert then t.alertSet alertMiss else t

/-- A chunk's result leaves the egress queue, with its buffers. -/
def State.dropResult (s : State) (port i chunk : Nat) : State :=
  let q := kgetD s.streams.egress port []
  match q.find? (fun r => r.stream == i && r.chunk == chunk) with
  | none => s
  | some r =>
    let t : State := { s with streams := { s.streams with egress := kset s.streams.egress port (q.filter (fun o => o != r)) } }
    if r.held then t.poolReturn (egressChan port r.be) r.want else t

/-- A chunk that has been delivered or discarded is gone. -/
def State.chunkGone (s : State) (i chunk : Nat) : State :=
  s.modStream i (fun x => { x with chunks := x.chunks.filter (fun c => c.idx != chunk) })

/-- DEADLINE_EXPIRY: the oldest latency-critical chunk of a stream whose deadline has come without its result having left
is a miss; its result is discarded where LATE_DISCARD is 1 (R80 to R83). -/
def execDeadlineExpiry (stream : Fin 16384) (s : State) : Host.Outcome State Fault Refusal :=
  .next (match s.stream? stream with
  | none => s
  | some x =>
    if x.be then s
    else
      match x.chunks.find? (fun c => !c.missed && decide (c.deadline ≤ s.now)) with
      | none => s
      | some c =>
        let t := s.countMiss stream x c
        if x.lateDiscard ∧ c.phase = .committed then (t.dropResult x.port stream c.idx).chunkGone stream c.idx else t)

/-! ### The commit (R56, R74, R507, R509) -/

/-- Bytes of a result: free values, as many as the draw gives, at most Y (log entry 39). -/
def resultBytes (draw y : Nat) : List Byte := (List.range (Config.resultLen draw % (y + 1))).map (Config.resultByte draw)

/-- Y of the variant that a chunk has run on. -/
def State.resultMax (s : State) (x : StreamCtx) (c : Chunk) : Nat :=
  match s.tableFor x c.onFallback with
  | some t => Nat.min t.y 65536
  | none => 0

/-- CHUNK_COMMIT: after a chunk's last step, its state is committed by one 8-byte store, or left unchanged where the step
completed with POISON; then its result is enqueued for egress (R56, R74, R80, R509, R594). -/
def execChunkCommit (stream : Fin 16384) (s : State) : Host.Outcome State Fault Refusal :=
  .next (match s.stream? stream with
  | none => s
  | some x =>
    match x.current with
    | none => s
    | some c =>
      if c.phase ≠ .done then s
      else
        let flags := if c.stepPoison then c.flags ||| fPoisoned else c.flags
        let t := s.modStream stream (fun x =>
          if c.stepPoison then { x with onFallback := x.variantFb }
          else { x with stateAddr := x.shadowAddr, shadowAddr := x.stateAddr, onFallback := x.variantFb })
        let t := if c.stepPoison then (t.logEvent 0x2006 0 0x12 0 [(16, stream), (16, c.idx)]).bumpPoison x.part 4 else t
        if c.missed ∧ x.lateDiscard then t.chunkGone stream c.idx
        else
          let t := t.modChunk stream c.idx (fun c => { c with phase := .committed, committedAt := s.now, flags := flags })
          let (d, t) := t.draw
          let len := Config.resultLen d % (s.resultMax x c + 1)
          let r : EgressResult := { stream := stream, chunk := c.idx, be := x.be, deadline := c.deadline
                                    want := Nat.min 17 (cdiv (len + 64) 4096), draw := d }
          let t : State := { t with streams := { t.streams with
            egress := kmod t.streams.egress x.port [] (fun q => q ++ [r]) } }
          t.grantEgress x.port x.be)

/-! ### Sending (R586 to R589, R596, R599, R605, R607) -/

/-- An IPv4-mapped IPv6 address (R37). -/
def isV4 (a : IpAddr) : Bool := a.toNat / 2 ^ 32 == 0xFFFF

/-- The next hop of a destination: itself on the port's prefix, the gateway otherwise (R589). -/
def State.nextHop (s : State) (port : Nat) (dst : IpAddr) : IpAddr :=
  let c := kgetD s.persist.commPort port {}
  let on (w : Nat) (a b : Nat) (p : Nat) : Bool := decide (p ≤ w) && a / 2 ^ (w - p) == b / 2 ^ (w - p)
  if isV4 dst then
    (if c.ipv4Prefix ≠ 0 ∧ on 32 (dst.toNat % 2 ^ 32) c.ipv4.toNat c.ipv4Prefix.toNat then dst else c.gateway)
  else (if c.ipv6Prefix ≠ 0 ∧ on 128 dst.toNat c.ipv6.toNat c.ipv6Prefix.toNat then dst else c.gateway)

/-- A port counts frames sent. -/
def Port.sent (p : Port) (n : Nat) : Port := { p with counts := lbump p.counts 3 n }

/-- A frame that needs no next hop leaves a port that is up, at once or when a hold ends (R588). -/
def State.sendFrame (s : State) (port : Nat) (x : TxItem) : State :=
  let p := s.port port
  if !p.up then s
  else if p.holdUntil.isSome then s.modPort port (fun p => { p with txWait := p.txWait ++ [(none, x)] })
  else (s.modPort port (·.sent 1)).send x

/-- The next hop of a destination is resolved: its link address is known; otherwise its resolution begins (R589). -/
def State.resolveHop (s : State) (port : Nat) (dst : IpAddr) : State × Bool :=
  let hop := s.nextHop port dst
  let p := s.port port
  if p.hops.any (fun q => q.1 == hop) then (s, true)
  else if p.resolving.contains hop then (s, false)
  else ((s.modPort port (fun p => { p with resolving := p.resolving ++ [hop] })).sendFrame port (.resolve port hop), false)

/-- An IP packet leaves a port, once its next hop is resolved (R589). -/
def State.sendIp (s : State) (port : Nat) (dst : IpAddr) (x : TxItem) : State :=
  let (t, ok) := s.resolveHop port dst
  if ok then t.sendFrame port x
  else if (s.port port).up then t.modPort port (fun p => { p with txWait := p.txWait ++ [(some (s.nextHop port dst), x)] })
  else t

/-- Bytes of a datagram's payload that the MTU leaves after the headers (R586). -/
def State.mtuRoom (s : State) (port : Nat) (dst : IpAddr) (header tag : Nat) : Nat :=
  (kgetD s.persist.portConfig port {}).mtu.toNat - (if isV4 dst then 28 else 48) - header - tag

/-- A place at or before `n` at which UTF-8 text may be cut (R607). -/
def utf8Cut (bs : List Byte) : Nat → Nat
  | 0 => 0
  | n + 1 => if (bs.getD (n + 1) 0).toNat / 64 = 2 then utf8Cut bs n else n + 1

/-- A result split into payloads of at most `room` bytes, each a whole number of units but where one unit has no room. -/
def splitResult (room unit : Nat) (text : Bool) : Nat → List Byte → List (List Byte)
  | 0, bs => [bs]
  | fuel + 1, bs =>
    if bs.length ≤ room then [bs]
    else
      let n := if unit ≤ room then room / unit * unit else room
      let n := if text then (let c := utf8Cut bs n; if c = 0 then n else c) else n
      bs.take n :: splitResult room unit text fuel (bs.drop n)

/-- Header of a result packet of synthesised audio (R599). -/
def rtpHeader (x : StreamCtx) (flags : Word16) (chunk seq ts : Nat) : List Byte :=
  [0x90, BitVec.ofNat 8 (x.payloadType.getD 0)] ++ toBe 2 seq ++ toBe 4 ts ++ toBe 4 x.ssrcOut.toNat
    ++ toBe 2 0xBEDE ++ toBe 2 2 ++ [0x13] ++ toBe 2 flags.toNat ++ toBe 2 chunk ++ [0, 0, 0]

/-- Framing header of a result datagram (R605). -/
def framingHeader (p : Package) (x : StreamCtx) (kind : Nat) (flags : Word16) (chunk seq ts len : Nat) (last : Bool) : List Byte :=
  toBe 2 0x4C54 ++ [1, BitVec.ofNat 8 (b2n last * 128 + kind)] ++ toBe 4 x.ssrcOut.toNat ++ toBe 4 ts ++ toBe 2 seq
    ++ toBe 2 flags.toNat ++ toBe 2 chunk ++ [BitVec.ofNat 8 (if kind = 4 then p.fmt % 16 else 0), 0]
    ++ toBe 2 (if kind = 4 then p.dim else 0) ++ toBe 2 len

/-- The datagrams of a result, with the sequence number and the timestamp that follow them. -/
def resultFrames (p : Package) (x : StreamCtx) (flags : Word16) (chunk : Nat) (parts : List (List Byte)) :
    List TxItem × Nat × Nat :=
  let g := x.payShape p
  let n := parts.length
  let (l, _, seq, ts) := parts.foldl (fun (a : List TxItem × Nat × Nat × Nat) bs =>
    let (l, i, seq, ts) := a
    let h := match p.outKind with
      | none => rtpHeader x flags chunk seq ts
      | some k => framingHeader p x k flags chunk seq ts bs.length (i + 1 == n)
    let adv := match p.outKind with
      | none => bs.length / g.bytes
      | some 4 => bs.length / (Nat.max 1 (cdiv (p.dim * fmtBits p.fmt) 8)) * p.frameStep
      | some _ => if i + 1 = n then x.units else 0
    (l ++ [TxItem.result x.port x.be x.remoteAddr x.remotePort x.localPort h bs], i + 1, (seq + 1) % 65536, (ts + adv) % 2 ^ 32))
    ([], 0, x.outSeq, x.outTs)
  (l, seq, ts)

/-- The result that the egress engine serves next: latency-critical ones in deadline order, then best-effort ones; each
with its buffers (R596). -/
def nextResult (q : List EgressResult) : Option EgressResult :=
  match bestBy (fun a b => decide (a.deadline < b.deadline)) (q.filter (fun r => !r.be && r.held)) with
  | some r => some r
  | none => q.find? (fun r => r.be && r.held)

/-- The newest record of a chunk's miss is completed with the instant of delivery (R82). -/
def completeMiss (stream chunk now : Nat) (flags : Word16) : List MissRec → List MissRec
  | [] => []
  | m :: l =>
    if m.stream = stream ∧ m.chunk = chunk then (if m.deliver.isNone then { m with deliver := some now, flags := flags } else m) :: l
    else m :: completeMiss stream chunk now flags l

/-- The frames of a result leave the port, and the chunk is gone. -/
def State.deliverFrames (s : State) (port : Nat) (r : EgressResult) (x : StreamCtx) (p : Package) (c : Chunk) : State :=
  let flags := if !x.be && decide (c.deadline < s.now) then c.flags ||| fLate else c.flags
  let bs := resultBytes r.draw (s.resultMax x c)
  let audio := p.outKind.isNone
  let unit := match p.outKind with
    | none => (x.payShape p).bytes
    | some 2 => 4
    | some 4 => Nat.max 1 (cdiv (p.dim * fmtBits p.fmt) 8)
    | some _ => 1
  let room := Nat.max 1 (s.mtuRoom port x.remoteAddr 24 (if audio && x.srtp then 16 else 0))
  let (l, seq, ts) := resultFrames p x flags c.idx (splitResult room unit (p.outKind == some 3) bs.length bs)
  let t := l.foldl (fun t i => t.send i) s
  let t := t.modPort port (·.sent l.length)
  let t := t.modStream r.stream (fun x => { x with outSeq := seq, outTs := ts })
  let lat := s.now - c.accept
  let deg := b2n (flags &&& fDegraded != 0)
  let t := t.modStats r.stream (fun q => { q with
    delivered := q.delivered + 1, degraded := q.degraded + deg, maxLatency := Nat.max q.maxLatency lat })
  let t : State := { t with streams := { t.streams with
    degradedTotal := t.streams.degradedTotal + deg
    missLog := if c.missed then completeMiss r.stream c.idx s.now flags t.streams.missLog else t.streams.missLog } }
  let t := if flags &&& fPoisoned != 0 then t.bumpPoison x.part 3 else t
  (t.dropResult port r.stream c.idx).chunkGone r.stream c.idx

/-- A result's last byte has left the port. -/
def State.deliver (s : State) (port : Nat) (r : EgressResult) (x : StreamCtx) (p : Package) (c : Chunk) : State :=
  let s := if !x.be && !c.missed && decide (c.deadline < s.now) then s.countMiss r.stream x c else s
  let c := ((s.stream? r.stream).bind (·.chunk? r.chunk)).getD c
  s.deliverFrames port r x p c

/-- RESULT_DELIVERED: the last byte of the result that the egress engine serves next leaves a port that is up and not held;
the next hop is resolved first, and a late result of a stream with LATE_DISCARD is discarded (R14, R44, R58, R77, R80, R82, R586, R588, R589, R596, R599, R605, R607). -/
def execResultDelivered (port : Fin 2) (s : State) : Host.Outcome State Fault Refusal :=
  .next (let p := s.port port
  match nextResult (kgetD s.streams.egress port []) with
  | none => s
  | some r =>
    match s.stream? r.stream with
    | none => s.dropResult port r.stream r.chunk
    | some x =>
      match s.pkg? x.modelSlot, x.chunk? r.chunk with
      | some pk, some c =>
        if !x.be && x.lateDiscard && decide (c.deadline < s.now) then
          let t := if c.missed then s else s.countMiss r.stream x c
          (t.dropResult port r.stream c.idx).chunkGone r.stream c.idx
        else if !p.up || p.holdUntil.isSome then s
        else if (s.resolveHop port x.remoteAddr).2 then s.deliver port r x pk c
        else (s.resolveHop port x.remoteAddr).1
      | _, _ => s.dropResult port r.stream r.chunk)

/-- A closing stream whose last accepted chunk has been delivered or discarded is gone: its context, state and reservations
are free (R85). -/
def State.freeStream (s : State) (stream : Nat) : State :=
  match s.stream? stream with
  | none => s
  | some x =>
    if x.closing ∧ x.chunks = [] then
      let t : State := { s with streams := { s.streams with ctx := kdel s.streams.ctx stream } }
      let t := t.uninstall (fun g => g.use == .ingressRing && g.key == stream)
      (t.logEvent 0x2002 0 0x12 0 [(16, stream)]).checkOvercommit x.core
    else s

end Sys2Proof.Machine
end

