-- ==== Sys2Proof/Machine/Ports.lean ====
section
/-! DEFINITION. The Ethernet ports: classification, the receive FIFO, drops, ARP, Neighbour Discovery, echoes, holds, the
link, next hops and the overlap of SRTP keys (R585 to R595, R603). -/

namespace Sys2Proof.Machine

/-- What a datagram matches (R590). -/
inductive Match where
  | ptp | clotha | media (stream : Nat) | other
  deriving DecidableEq, Repr

/-- SSRC that a datagram carries, where a stream's payload puts it (R590, R605). -/
def StreamCtx.ssrcMatches (x : StreamCtx) (bs : List Byte) : Bool :=
  if x.payload ≤ 2 then decide (12 ≤ bs.length) && beAt bs 8 4 == x.ssrcIn.toNat
  else decide (8 ≤ bs.length) && beAt bs 4 4 == x.ssrcIn.toNat

/-- The first row of R590 that a UDP datagram matches. -/
def State.classify (s : State) (port : Nat) (dst : Word16) (bs : List Byte) : Match :=
  let c := kgetD s.persist.commPort port {}
  if dst = 319 ∨ dst = 320 then .ptp
  else if c.clothaOn ≠ 0 ∧ dst = c.udpPort then .clotha
  else match s.streams.ctx.find? (fun q => q.2.port == port && q.2.localPort == dst && q.2.ssrcMatches bs) with
    | some q => .media q.1
    | none => .other

/-- A counter of a port bumped: 0 FEC corrected, 1 FEC uncorrectable, 2 received, 3 sent, 4 FCS, 5 size, 6 classification,
7 FIFO, 8 pool (R629). -/
def State.countPort (s : State) (port i : Nat) : State := s.modPort port (fun p => { p with counts := lbump p.counts i 1 })

/-- Bytes of the frame of a UDP datagram. -/
def frameBytes (src : IpAddr) (n : Nat) : Nat := 18 + (if isV4 src then 20 else 40) + 8 + n

/-- Frames lost at a port for want of a buffer: counted, logged at most once a millisecond, and a condition of R83 for the
port's streams (R83, R593). -/
def State.poolDrop (s : State) (port i : Nat) (code : Word16) : State :=
  let t := (s.countPort port i).markCause 4 (fun _ x => x.port == port)
  let n := (t.port port).counts.getD 7 0 + (t.port port).counts.getD 8 0
  let due := match kget? s.recov.poolDropAt port with
    | none => true
    | some e => decide (e + 1000000 ≤ s.now)
  if due then
    ({ t with recov := { t.recov with poolDropAt := kset t.recov.poolDropAt port s.now } } : State).logEvent 0x9005 code.toNat
      0x10 port [(8, port), (64, n)]
  else t

/-- A frame finds its channel's buffer, or waits in the receive FIFO, or is dropped where that is full (R592, R593); `none`
where it has a buffer at once. -/
def State.fifoWait (s : State) (port : Nat) (f : FifoFrame) : Option State :=
  let p := s.port port
  let chan := if f.media then port else 2 + port
  if s.net.poolFits chan 1 && !p.fifo.any (fun q => q.media == f.media) then none
  else if sumNat (p.fifo.map (·.bytes)) + f.bytes ≤ 262144 then
    some (s.modPort port (fun p => { p with fifo := p.fifo ++ [f] }))
  else some (s.poolDrop port 7 0)

/-- A media frame with its buffer: its payload moves into its stream's ring and the buffer is free (R592). -/
def State.takeMedia (s : State) (port : Nat) (dst : Word16) (bs : List Byte) (authOk : Bool) (at_ : Nat) : State :=
  match s.classify port dst bs with
  | .media i =>
    match s.stream? i with
    | none => s
    | some x =>
      match s.pkg? x.modelSlot with
      | none => s
      | some p => s.mediaIn i x p bs authOk at_
  | _ => s

/-- MEDIA_PACKET: a UDP datagram that matches the LOCAL_UDP_PORT and SSRC of a stream on a port that is up (R590, R592,
R593, R595). -/
def execMediaPacket (port : Fin 2) (pkt : RxPacket) (authOk : Bool) (s : State) : Host.Outcome State Fault Refusal :=
  .next (match pkt with
  | .udp src _ dst ok bs =>
    match s.classify port dst bs with
    | .media _ =>
      if !(s.port port).up then s
      else
        let s := s.countPort port 2
        if !ok then s
        else
          match s.fifoWait port { media := true, bytes := frameBytes src bs.length, since := s.now, pkt := pkt, authOk := authOk } with
          | some t => t
          | none => s.takeMedia port dst bs authOk s.now
    | _ => s
  | _ => s)

/-- UNMATCHED_DATAGRAM: a packet of an unsupported kind, or a datagram that matches no row of R590 but the last two, is
dropped and counted; one whose checksum fails is dropped (R587, R589, R590, R595). -/
def execUnmatchedDatagram (port : Fin 2) (pkt : RxPacket) (s : State) : Host.Outcome State Fault Refusal :=
  .next (if !(s.port port).up then s
  else
    match pkt with
    | .udp _ _ dst ok bs =>
      match s.classify port dst bs with
      | .other => if ok then (s.countPort port 2).countPort port 6 else s.countPort port 2
      | _ => s
    | _ => (s.countPort port 2).countPort port 6)

/-- FRAME_RECEIVE_DROP: the MAC drops a frame that is too long, has a bad FCS or an uncorrectable FEC codeword, and counts
it (R586). -/
def execFrameReceiveDrop (port : Fin 2) (why : FrameFault) (s : State) : Host.Outcome State Fault Refusal :=
  .next (if !(s.port port).up then s
  else
    match why with
    | .tooLong => s.countPort port 5
    | .badFcs => s.countPort port 4
    | .uncorrectableFec => s.countPort port 1)

/-- RX_FIFO_WAIT_TIMEOUT: the oldest frame that has waited 50 µs for a buffer fails with MEM_POOL_EXHAUSTED (R593). -/
def execRxFifoWaitTimeout (port : Fin 2) (s : State) : Host.Outcome State Fault Refusal :=
  .next (match takeFirst (fun f => decide (f.since + 50000 ≤ s.now)) (s.port port).fifo with
  | none => s
  | some (_, l) => (s.modPort port (fun p => { p with fifo := l })).poolDrop port 8 memPOOL_EXHAUSTED)

/-- A port's link-local address, formed from its MAC address (R580). -/
def linkLocal (port : Nat) : IpAddr :=
  let m := Config.mac port % 2 ^ 48
  BitVec.ofNat 128 (0xFE80 * 2 ^ 112 + ((m / 2 ^ 24) ^^^ 0x020000) * 2 ^ 40 + 0xFFFE * 2 ^ 24 + m % 2 ^ 24)

/-- An address that a port holds. -/
def State.holdsAddr (s : State) (port : Nat) (a : IpAddr) : Bool :=
  let c := kgetD s.persist.commPort port {}
  a == linkLocal port || (c.ipv6 != 0 && a == c.ipv6)
    || (c.ipv4 != 0 && isV4 a && a.toNat % 2 ^ 32 == c.ipv4.toNat)

/-- ARP_REQUEST: the port answers for its IPv4 address (R589). -/
def execArpRequest (port : Fin 2) (senderMac : BitVec 48) (_senderIp targetIp : BitVec 32) (s : State) :
    Host.Outcome State Fault Refusal :=
  .next (if !(s.port port).up then s
  else
    let t := s.countPort port 2
    let c := kgetD s.persist.commPort port {}
    if c.ipv4 ≠ 0 ∧ targetIp = c.ipv4 then t.sendFrame port (.arpReply port senderMac targetIp) else t)

/-- NEIGHBOUR_SOLICITATION: the port answers for its IPv6 addresses (R580, R589). -/
def execNeighbourSolicitation (port : Fin 2) (senderMac : BitVec 48) (_senderIp targetIp : IpAddr) (s : State) :
    Host.Outcome State Fault Refusal :=
  .next (if !(s.port port).up then s
  else
    let t := s.countPort port 2
    if s.holdsAddr port targetIp ∧ !isV4 targetIp then t.sendFrame port (.neighbourAdvert port senderMac targetIp) else t)

/-- ICMP_ECHO_REQUEST: the port answers an echo request to an address that it holds (R589). -/
def execIcmpEchoRequest (port : Fin 2) (senderIp targetIp : IpAddr) (data : List Byte) (s : State) :
    Host.Outcome State Fault Refusal :=
  .next (if !(s.port port).up then s
  else
    let t := s.countPort port 2
    if s.holdsAddr port targetIp then t.sendIp port senderIp (.echoReply port senderIp targetIp data) else t)

/-- PAUSE_FRAME: a PAUSE or PFC frame holds the port's transmission for a time, or ends a hold where that is zero
(R83, R588). -/
def execPauseFrame (port : Fin 2) (holdNs : Nat) (_pfc : Bool) (s : State) : Host.Outcome State Fault Refusal :=
  .next (if !(s.port port).up then s
  else
    let t := s.countPort port 2
    if holdNs = 0 then t.modPort port (fun p => { p with holdUntil := p.holdUntil.map (fun _ => s.now) })
    else
      (t.modPort port (fun p => { p with holdUntil := some (s.now + holdNs), holds := p.holds + 1 })).markCause 4
        (fun _ x => x.port == port.val))

/-- PAUSE_EXPIRY: a hold ends and what it held back is sent (R588). -/
def execPauseExpiry (port : Fin 2) (s : State) : Host.Outcome State Fault Refusal :=
  .next (let p := s.port port
  match p.holdUntil with
  | none => s
  | some e =>
    if s.now < e then s
    else
      let t := s.modPort port (fun p => { p with holdUntil := none, txWait := p.txWait.filter (fun q => q.1.isSome) })
      (p.txWait.filter (fun q => q.1.isNone)).foldl (fun t q => t.sendFrame port q.2) t)

/-- PORT_LINK_CHANGE: a port goes up or down on all four lanes; a port that is down holds nothing to send and is a condition
of R83 for its streams (R83, R584, R585). -/
def execPortLinkChange (port : Fin 2) (up : Bool) (s : State) : Host.Outcome State Fault Refusal :=
  .next (if s.aon.phase ≠ .running ∨ !s.aon.hubUp ∨ (s.port port).up = up then s
  else
    let t := s.modPort port (fun p => { p with up := up, holdUntil := none, txWait := [], resolving := [] })
    let t := if up then t else t.markCause 4 (fun _ x => x.port == port.val)
    t.logEvent 0x9001 (if up then 0 else lnkPORT_DOWN.toNat) 0x10 port [(8, (port.val : Int)), (8, b2n up)])

/-- NEXT_HOP_REPLY: a next hop that a port resolves is known, and the packets that waited for it are sent (R589). -/
def execNextHopReply (port : Fin 2) (ip : IpAddr) (mac : BitVec 48) (s : State) : Host.Outcome State Fault Refusal :=
  .next (let p := s.port port
  if !p.up ∨ !(p.resolving.contains ip || p.hops.any (fun q => q.1 == ip)) then s
  else
    let t := (s.countPort port 2).modPort port (fun p => { p with
      hops := (ip, mac) :: p.hops.filter (fun q => q.1 != ip)
      resolving := p.resolving.filter (· != ip), txWait := p.txWait.filter (fun q => q.1 != some ip) })
    (p.txWait.filter (fun q => q.1 == some ip)).foldl (fun t q => t.sendFrame port q.2) t)

/-- SRTP_KEY_OVERLAP_EXPIRY: the 100 ms in which either key was accepted end (R603). -/
def execSrtpKeyOverlapExpiry (slot : Fin 4096) (s : State) : Host.Outcome State Fault Refusal :=
  .next { s with net := { s.net with srtp := kmod? s.net.srtp slot (fun k =>
    match k.old with
    | some (e, _) => if e ≤ s.now then { k with old := none } else k
    | none => k) } }

end Sys2Proof.Machine
end

