-- ==== Sys2Proof/Machine/Time.lean ====
section
/-! DEFINITION. The timebase: steps and slews, the movement of time.state, PTP as a time receiver, PPS_IN and PPS_OUT
(R608 to R613, R712). -/

namespace Sys2Proof.Machine

/-! ### Steps (R611) -/

/-- A stamped instant moved by a step of the timebase. -/
def shiftNs (d : Int) (t : Nat) : Nat := ((t : Int) + d).toNat

/-- A stamped deadline moved; that of a best-effort chunk is all ones and stays. -/
def shiftDeadline (d : Int) (t : Nat) : Nat := if t = 2 ^ 64 - 1 then t else shiftNs d t

/-- A chunk's instants moved, so that the latency measured across the step is unchanged. -/
def Chunk.shift (d : Int) (c : Chunk) : Chunk :=
  { c with accept := shiftNs d c.accept, deadline := shiftDeadline d c.deadline, committedAt := shiftNs d c.committedAt
           eligibleAt := shiftNs d c.eligibleAt }

/-- A stream's anchor, its arrivals and its chunks moved. -/
def StreamCtx.shift (d : Int) (x : StreamCtx) : StreamCtx :=
  { x with
    anchorNs := if x.anchored then x.anchorNs + d else x.anchorNs
    lastClose := if x.anchored then shiftNs d x.lastClose else x.lastClose
    lastDeadline := if x.lastDeadline = 0 then 0 else shiftDeadline d x.lastDeadline
    arrived := x.arrived.map (fun a => { a with at_ := shiftNs d a.at_ })
    chunks := x.chunks.map (Chunk.shift d) }

/-- Deadlines of a core's ready queues and rounds moved. -/
def Core.shift (d : Int) (k : Core) : Core :=
  let step (r : ReadyStep) : ReadyStep := { r with deadline := shiftDeadline d r.deadline, since := shiftNs d r.since }
  { k with
    ready := k.ready.map step
    rounds := k.rounds.map (fun r => { r with
      deadline := shiftDeadline d r.deadline, formedNs := shiftNs d r.formedNs, steps := r.steps.map step }) }

/-- The timebase is stepped: every stamped deadline and every stream's anchor moves with it, and the step is logged. -/
def State.stepTime (s : State) (d : Int) : State :=
  let t : State := { s with
    time := { s.time with now := shiftNs d s.time.now % 2 ^ 64, slew := 0 }
    streams := { s.streams with
      ctx := s.streams.ctx.map (fun q => (q.1, q.2.shift d))
      egress := s.streams.egress.map (fun q => (q.1, q.2.map (fun r => { r with deadline := shiftDeadline d r.deadline }))) }
    ctxs := s.ctxs.map (fun q => (q.1, { q.2 with roundDeadline := shiftDeadline d q.2.roundDeadline })) }
  let t := t.modCores (fun _ k => k.shift d)
  t.logFw 0x1010 0 [(64, d)]

/-! ### time.state (R610) -/

/-- Loss of discipline begins or ends with time.state: 0 free-running, 1 acquiring, 2 disciplined, 3 holdover. -/
def State.toTimeState (s : State) (n : Nat) : State :=
  if s.time.state = n then s
  else
    let lost := if n = 2 then false else s.time.lost || (s.time.state == 3 && n == 0)
    let t : State := { s with time := { s.time with
      state := n, lost := lost, goodSecs := [], goodSince := s.time.now
      holdSince := if n = 3 then some s.time.now else none } }
    let t := if lost && !s.time.lost then t.markCause 3 (fun _ _ => true) else t
    t.logFw 0x1011 0 [(8, n)]

/-- The run of in-bound seconds after a measurement: 16 whole seconds that each hold one end it (R610). -/
def TimeBase.goodRun (t : TimeBase) : TimeBase × Bool :=
  match t.goodSecs.getLast? with
  | none => ({ t with goodSince := t.now, goodSecs := [0] }, false)
  | some last =>
    let i := (t.now - t.goodSince) / 1000000000
    if last + 1 < i then ({ t with goodSince := t.now, goodSecs := [0] }, false)
    else if 16 ≤ i then (t, true)
    else ({ t with goodSecs := nins t.goodSecs i }, false)

/-- One offset measurement, of a Sync exchange or a PPS_IN edge: a positive offset is a timebase that runs ahead. -/
def State.measure (s : State) (off : Int) : State :=
  let s : State := { s with time := { s.time with offset := off, lastMeas := s.time.now } }
  let slewed : State := { s with time := { s.time with slew := -off } }
  let corrected := if off.natAbs ≤ 1000000 then slewed else s.stepTime (-off)
  if s.time.state = 1 then
    let t := corrected
    if 100 < off.natAbs then { t with time := { t.time with goodSecs := [] } }
    else
      let (tb, done) := t.time.goodRun
      let t : State := { t with time := tb }
      if done then t.toTimeState 2 else t
  else if s.time.state = 2 then slewed
  else if s.time.state = 3 then (if off.natAbs ≤ 1000 then slewed.toTimeState 2 else corrected)
  else s

/-! ### PTP (R608) -/

/-- The transmitter that the best master clock algorithm selects of those heard within three announce intervals. -/
def TimeBase.best (t : TimeBase) : Option Word64 :=
  (bestBy (fun a b => decide (a.rank < b.rank) || (a.rank == b.rank && decide (a.ident < b.ident)))
    (t.peers.filter (fun p => decide (t.now < p.heard + 3 * p.interval)))).map (·.ident)

/-- PTP transport number of 0x9020 ptp.config. -/
def transportNo : PtpTransport → Nat
  | .udp4 => 0
  | .udp6 => 1
  | .ethernet => 2

/-- An Announce: its transmitter's dataset is kept and the selection made anew; with a transmitter selected, a free-running
timebase is acquiring. -/
def State.ptpAnnounce (s : State) (p : PtpPeer) : State :=
  let tb : TimeBase := { s.time with peers := s.time.peers.filter (fun q => q.ident != p.ident) ++ [p] }
  let m := tb.best
  let tb : TimeBase := if m = s.time.master then tb else { tb with master := m, twoStep := none, t1t2 := none, t3 := none, delay := 0 }
  let t : State := { s with time := tb }
  if m.isSome ∧ s.time.state = 0 then t.toTimeState 1 else t

/-- An origin timestamp of the selected transmitter and the arrival of the Sync that it belongs to. -/
def State.ptpSync (s : State) (origin arrival : Nat) : State :=
  let t : State := { s with time := { s.time with t1t2 := some (origin, arrival), twoStep := none } }
  t.measure ((arrival : Int) - origin - s.time.delay)

/-- The timestamp of a PTP event message that passes a port now: its residual error is free (R609, log entry 131). -/
def State.ptpStamp (s : State) : State × Nat :=
  let (d, t) := s.draw
  (t, ((s.time.now : Int) + ((Config.ptpError d % 9 : Nat) : Int) - 4).toNat)

/-- PTP_MESSAGE: a message of the selected port, domain and transport is timestamped and used in the choice of a
transmitter, the offset measurement and the delay measurement (R608 to R611). -/
def execPtpMessage (port : Fin 2) (transport : PtpTransport) (msg : PtpMsg) (s : State) : Host.Outcome State Fault Refusal :=
  .next (if !(s.port port).up || !s.time.running then s
  else
    let c := s.countPort port 2
    if s.persist.timeSource ≠ port.val ∨ transportNo transport ≠ s.persist.ptpTransport then c
    else
      let now := c.time.now
      let mine (ident : Word64) (domain : Nat) : Bool := domain == s.persist.ptpDomain && s.time.master == some ident
      match msg with
      | .announce ident domain rank interval =>
        if domain = s.persist.ptpDomain then
          c.ptpAnnounce { ident := ident, rank := rank, interval := interval, heard := now }
        else c
      | .sync ident domain origin =>
        if mine ident domain then
          let (c, stamp) := c.ptpStamp
          (({ c with time := { c.time with syncs := c.time.syncs + 1, lastSync := now } } : State).ptpSync origin stamp)
        else c
      | .syncTwoStep ident domain seq =>
        if mine ident domain then
          let (c, stamp) := c.ptpStamp
          { c with time := { c.time with syncs := c.time.syncs + 1, lastSync := now, twoStep := some (ident, seq, stamp) } }
        else c
      | .followUp ident domain seq origin =>
        if mine ident domain then
          match c.time.twoStep with
          | some (i, q, at_) => if i = ident ∧ q = seq then c.ptpSync origin at_ else c
          | none => c
        else c
      | .delayResp ident domain t4 =>
        if mine ident domain then
          match c.time.t1t2, c.time.t3 with
          | some (t1, t2), some t3 =>
            { c with time := { c.time with t3 := none, delay := (((t2 : Int) - t1) + ((t4 : Int) - t3)) / 2 } }
          | _, _ => c
        else c)

/-- DELAY_REQUEST: the time receiver sends a Delay_Req on its source port and timestamps it (R608, R609). -/
def execDelayRequest (s : State) : Host.Outcome State Fault Refusal :=
  .next (let port := s.persist.timeSource
  if 1 < port ∨ s.time.master.isNone ∨ !(s.port port).up ∨ (s.port port).holdUntil.isSome then s
  else
    let (t, stamp) := s.ptpStamp
    ({ t with time := { t.time with t3 := some stamp } } : State).sendFrame port (.delayReq port))

/-! ### PPS (R612) -/

/-- PPS_IN_EDGE: each edge is timestamped to within 1 ns, and after a write to time.pps_epoch marks the whole second that the write
named or the one of the edges counted since; with PPS_IN as the source it is a measurement, and the first edge begins acquisition.
The error of the timestamp is free (R36, R610, R612, log entry 131). -/
def execPpsInEdge (s : State) : Host.Outcome State Fault Refusal :=
  .next (if !s.time.running then s
  else
    let at_ := ((s.time.now : Int) + ((Config.ppsError s.draws % 3 : Nat) : Int) - 1).toNat
    let t : State := { s with time := { s.time with ppsStamp := some at_ }, draws := s.draws + 1 }
    match s.time.ppsNext with
    | none => t
    | some sec =>
      let t : State := { t with time := { t.time with ppsNext := some (sec + 1000000000), ppsArmed := false } }
      if s.persist.timeSource ≠ 2 then t
      else
        let t : State := { t with time := { t.time with lastSync := at_ } }
        let t := if s.time.ppsArmed && t.time.state == 0 then t.toTimeState 1 else t
        t.measure ((at_ : Int) - sec))

/-- PPS_OUT_PULSE: at a whole second of the timebase, within 5 ns, PPS_OUT is driven high for 100 ms (R612, R694). -/
def execPpsOutPulse (s : State) : Host.Outcome State Fault Refusal :=
  .next (let now := s.time.now
  if !s.time.ppsOn ∨ 10 < (now + 5) % 1000000000 then s
  else ({ s with time := { s.time with ppsHighUntil := some ((now + 5) / 1000000000 * 1000000000 + 100000000) } } : State).send
    .ppsOut)

/-- Level of PPS_OUT. -/
def State.pinPpsOut (s : State) : Bool :=
  match s.time.ppsHighUntil with
  | none => false
  | some e => decide (s.time.now < e)

/-! ### Loss of the source (R610) -/

/-- The announce interval of the selected transmitter. -/
def TimeBase.interval (t : TimeBase) : Nat :=
  match t.peers.find? (fun p => some p.ident == t.master) with
  | none => 0
  | some p => p.interval

/-- TIME_SOURCE_TIMEOUT: no Sync for three announce intervals, or no PPS_IN edge for 1.5 s, moves a disciplined timebase to
holdover (R610). -/
def execTimeSourceTimeout (s : State) : Host.Outcome State Fault Refusal :=
  .next (let limit := if s.persist.timeSource = 2 then 1500000000 else 3 * s.time.interval
  if s.time.state = 2 ∧ s.time.lastSync + limit ≤ s.time.now then s.toTimeState 3 else s)

/-- HOLDOVER_EXPIRY: a holdover longer than HOLDOVER_S moves the timebase to free-running, and the loss of discipline of
R83 begins (R610, R613). -/
def execHoldoverExpiry (s : State) : Host.Outcome State Fault Refusal :=
  .next (match s.time.holdSince with
  | none => s
  | some h =>
    if s.time.state = 3 ∧ h + s.persist.holdoverS * 1000000000 < s.time.now then
      let t := s.toTimeState 0
      { t with time := { t.time with master := none, peers := [] } }
    else s)

/-- A change of time.source: free-running, and discipline starts afresh; the timebase keeps counting (R712). -/
def State.restartTime (s : State) : State :=
  let t := s.toTimeState 0
  { t with time := { t.time with
    lost := false, goodSecs := [], master := none, peers := [], twoStep := none, t1t2 := none, t3 := none, delay := 0, slew := 0
    holdSince := none } }

end Sys2Proof.Machine
end

