-- ==== Sys2Proof/Machine/DictWrite.lean ====
section
/-! DEFINITION. The tests of an entry in the order of R714 and the writes of objects that are no actions (R538 to R541, R545 to
R547, R556, R570, R576, R580, R582, R629, R637). -/

namespace Sys2Proof.Machine

/-- Who names an object: the role of the request's key (0 the claim key, 1 operator, 2 tenant, 3 baseboard) and, of a tenant
key, its tenant. -/
structure Caller where
  role : Nat
  tenant : Nat
  deriving DecidableEq, Repr

/-! ### Rights (R546, R637) -/

/-- The caller's role holds the right to read or write an object. -/
def Caller.may (c : Caller) (o : Obj) (index sub : Nat) (write : Bool) : Bool :=
  if c.role = 0 then
    (if write then (index == 0x7002 && sub == 1) || index == 0x7010
     else index / 0x1000 == 1 || index == 0x7000 || index == 0x7010)
  else bit o.rights (2 * (c.role - 1) + b2n write)

/-- A record that belongs to a tenant may be named by the caller (R547). -/
def Caller.owns (c : Caller) (t : Option Nat) : Bool := c.role != 2 || t.isNone || t == some c.tenant

/-- Tests 1 to 4 of R714, after R582. -/
def State.accessTests (s : State) (c : Caller) (index sub : Nat) (write : Bool) : Option Word16 :=
  if 0xF000 ≤ index then some 0xF002
  else match objAt index sub with
    | none => some accNO_OBJECT
    | some o => firstBad [
        (!c.may o index sub write, accRIGHTS),
        (write && decide (o.acc ≤ 1), accREAD_ONLY),
        (!write && o.acc == aWO, accWRITE_ONLY),
        (!c.owns (s.recTenant index sub), accRIGHTS)]

/-- What a read of one object answers: its value, or a code (R527, R538, R557). -/
def State.readObj (s : State) (c : Caller) (index sub : Nat) : Word16 ⊕ List Byte :=
  match s.accessTests c index sub false with
  | some code => .inl code
  | none =>
    if (index = 0x2100 ∨ index = 0x2200) ∧ s.streams.lost.contains (sub - 1) then .inl recMODULE_RESET
    else .inr (s.objValue index sub)

/-! ### Values (R540, tests 5 to 8 of R714) -/

/-- Bytes of a value are zero. -/
def zeroAt (v : List Byte) (a n : Nat) : Bool := (slice v a n).all (· == 0)

/-- Tenant that owns a partition. -/
def State.partTenant (s : State) (p : Nat) : Option Nat := (kget? s.persist.parts p).map (·.tenant)

/-- Bytes of a READ response's entry for an object (R550, R576). -/
def entryBytes (n : Nat) : Nat := 16 + cdiv n 8 * 8

/-- The objects of a telemetry map exceed its transport's body, or one of them is an action (R576). -/
def State.mapTooLarge (s : State) (m : TelMap) : Bool :=
  let l := m.addrs.take m.count
  let limit := if m.transport = 2 then 4000 else 1344
  l.any (fun a => match objAt a.1 a.2 with | none => false | some o => o.acc == aWO)
    || decide (limit < sumNat (l.map (fun a => match objAt a.1 a.2 with
      | none => 16
      | some o => if o.typ = tSTRING then entryBytes (s.objValue a.1 a.2).length else entryBytes o.len)))

/-- A telemetry map from its record (R575). -/
def telMapOf (v : List Byte) : TelMap :=
  { enable := bit (leAt v 0 1) 0, transport := bits (leAt v 1 1) 1 0, keyId := BitVec.ofNat 16 (leAt v 2 2), periodUs := leAt v 4 4
    destAddr := BitVec.ofNat 128 (leAt v 8 16), destPort := BitVec.ofNat 16 (leAt v 24 2), count := bits (leAt v 26 1) 5 0
    addrs := (List.range 32).map (fun n => (leAt v (32 + 4 * n) 2, leAt v (34 + 4 * n) 2)) }

/-- The smallest power of two at or above a number of banks. -/
def bankAlign (n : Nat) : Nat := if n ≤ 1 then 1 else if n = 2 then 2 else 4

/-- Tests 6 to 8 of R714 for an object that is no action. -/
def State.valueTests (s : State) (index sub : Nat) (v : List Byte) : Option Word16 :=
  let n := leAt v 0 8
  let range (lo hi : Nat) : Option Word16 := if lo ≤ n ∧ n ≤ hi then none else some accRANGE
  let core := coreOf index
  let index := baseIndex index
  if index = 0x1201 then range 0 3
  else if index = 0x1300 then
    (let m := telMapOf v
     firstBad [
      (bits (leAt v 0 2) 7 1 != 0 || bits (leAt v 0 2) 15 10 != 0 || bits (leAt v 26 1) 7 6 != 0 || !zeroAt v 27 5, cmdRSVD),
      (m.transport == 3, cFIELD),
      (decide (m.periodUs < 1000) || decide (60000000 < m.periodUs) || m.count == 0 || decide (32 < m.count) || s.mapTooLarge m,
        accRANGE)])
  else if index = 0x2001 then
    (if sub = 1 then range 16 256
     else if sub = 2 then range 200000 5000000
     else if sub = 6 then range 0 1
     else range 0 1024)
  else if index = 0x3100 then range 0 1
  else if index = 0x3101 then (if bits n 31 4 = 0 then none else some cmdRSVD)
  else if index = 0x3102 then range 2000 100000
  else if index = 0x4000 then
    (match kget? s.persist.tenants (sub - 1) with
     | none => some accRANGE
     | some t => if leAt v 0 2 = t.tenant ∧ 1 ≤ leAt v 2 2 ∧ leAt v 4 2 ≤ 1024 then none else some accRANGE)
  else if index = 0x5002 then range 0 2
  else if index = 0x6000 then
    (if sub = 1 then range 10000 10000000 else if sub = 2 then range 64 4096 else range 3600 604800)
  else if index = 0x8021 then
    (if sub = 2 then
      (if n ≤ 4 ∧ kgetD s.persist.poolFirst core 0 % bankAlign n = 0 then none else some accRANGE)
     else if n < 32 ∧ n % bankAlign (kgetD s.persist.poolBanks core 0) = 0 then none
     else some accRANGE)
  else if index = 0x9000 then (if 1280 ≤ leAt v 2 2 ∧ leAt v 2 2 ≤ 4000 then none else some accRANGE)
  else if index = 0x9010 then range 0 32
  else if index = 0x9012 then (if leAt v 1 2 ≤ 896 then none else some accRANGE)
  else if index = 0x9020 then
    firstBad [
      (!zeroAt v 6 2, cmdRSVD),
      (decide (2 < leAt v 1 1) || decide (leAt v 2 4 < 1) || decide (86400 < leAt v 2 4), accRANGE)]
  else none

/-! ### Owners (R570, test 10 of R714) -/

/-- A link carries reservations (R627, R629). -/
def State.linkBusy (s : State) (l : Nat) : Bool :=
  s.lcTables.any (fun q => match s.pkg? q.1.modelSlot with
    | none => false
    | some p => p.links.contains l)

/-- A port has an open stream or an enabled telemetry map (R580, R629). -/
def State.portBusy (s : State) (p : Nat) : Bool :=
  s.streams.ctx.any (fun q => q.2.port == p) || s.persist.telMaps.any (fun q => q.2.enable && q.2.transport == p)

/-- A command of some execution context of a core is in flight; a wait at the head of its queue is none (R381, R437). -/
def State.coreBusy (s : State) (c : Nat) : Bool := (s.core c).cmds.any (fun m => !m.isWait)

/-- The owner of an RWI object is busy. -/
def State.ownerBusy (s : State) (index sub : Nat) : Bool :=
  let r := sub - 1
  let inPart (p : Nat) : Bool := s.streams.ctx.any (fun q => q.2.part == p)
  let base := baseIndex index
  if base = 0x1100 ∨ base = 0x9000 then s.portBusy r
  else if base = 0x1201 ∨ base = 0x6000 ∨ base = 0x9020 then !s.lcOpen.isEmpty
  else if base = 0x3100 ∨ base = 0x3102 ∨ base = 0x3103 then inPart r
  else if base = 0x3101 then inPart (r / 16)
  else if base = 0x5002 then (s.svc.jobs.any (fun q => q.2.part == r && (q.2.state == 1 || q.2.state == 2)))
  else if base = 0x8021 then s.coreBusy (coreOf index)
  else if base = 0x9012 ∨ base = 0x7030 then s.linkBusy r
  else false

/-- Tests 5 to 8 and 10 for a write of an object that is no action. -/
def State.plainTests (s : State) (o : Obj) (index sub typ : Nat) (v : List Byte) : Option Word16 :=
  if typ ≠ o.typ ∨ v.length ≠ o.len then some cTYPE
  else match s.valueTests index sub v with
    | some code => some code
    | none => if o.acc = aRWI ∧ s.ownerBusy index sub then some accBUSY else none

/-! ### Writing a value (R538, R541, R459) -/

/-- A comm.port record from its bytes. -/
def commPortOf (v : List Byte) : CommPort :=
  { clothaOn := BitVec.ofNat 8 (leAt v 0 1), udpPort := BitVec.ofNat 16 (leAt v 1 2), ipv6 := BitVec.ofNat 128 (beAt v 3 16)
    ipv6Prefix := BitVec.ofNat 8 (leAt v 19 1), ipv4 := BitVec.ofNat 32 (beAt v 20 4), ipv4Prefix := BitVec.ofNat 8 (leAt v 24 1)
    gateway := BitVec.ofNat 128 (beAt v 25 16) }

/-- A port.config record from its bytes. -/
def portConfigOf (v : List Byte) : PortConfig :=
  { vlan := BitVec.ofNat 16 (leAt v 0 2), mtu := BitVec.ofNat 16 (leAt v 2 2)
    dscp := [4, 6, 8].map (fun i => BitVec.ofNat 8 (leAt v i 1)), prio := [5, 7, 9].map (fun i => BitVec.ofNat 8 (leAt v i 1)) }

/-- The persistent values after a write of an RW, RWB or RWI object. -/
def Persist.put (p : Persist) (index sub : Nat) (v : List Byte) : Persist :=
  let r := sub - 1
  let n := leAt v 0 8
  let base := baseIndex index
  let c := coreOf index
  if base = 0x1100 then { p with commPort := kset p.commPort r (commPortOf v) }
  else if base = 0x1201 then { p with timeSource := n }
  else if base = 0x1300 then { p with telMaps := kset p.telMaps r (telMapOf v) }
  else if base = 0x2001 then
    (if sub = 1 then { p with headroom := n }
     else if sub = 2 then { p with reserveDefault := n }
     else if sub = 3 then { p with hbmFraction := n }
     else if sub = 4 then { p with bridgeFraction := n }
     else if sub = 5 then { p with portFraction := n }
     else { p with missAlert := n == 1 })
  else if base = 0x3100 then { p with kvSpill := kset p.kvSpill r n }
  else if base = 0x3101 then { p with kvPeer := kset p.kvPeer r n }
  else if base = 0x3102 then { p with kvWalkBound := kset p.kvWalkBound r n }
  else if base = 0x3103 then { p with kvStaging := kset p.kvStaging r n }
  else if base = 0x4000 then
    { p with tenants := kmod? p.tenants r (fun t => { t with beWeight := leAt v 2 2, lcLimit := leAt v 4 2 }) }
  else if base = 0x5001 then { p with clipThreshold := kset p.clipThreshold r n }
  else if base = 0x5002 then { p with adapterState := kset p.adapterState r n }
  else if base = 0x6000 then
    (if sub = 1 then { p with windowNs := n }
     else if sub = 2 then { p with dumpPartCycles := n }
     else { p with scrubPeriodS := n })
  else if base = 0x7030 then { p with linkPeer := kset p.linkPeer r (slice v 0 133) }
  else if base = 0x8021 then
    (if sub = 1 then { p with poolFirst := kset p.poolFirst c n } else { p with poolBanks := kset p.poolBanks c n })
  else if base = 0x9000 then { p with portConfig := kset p.portConfig r (portConfigOf v) }
  else if base = 0x9010 then { p with flushMax := kset p.flushMax r n }
  else if base = 0x9012 then
    { p with linkConfig := kset p.linkConfig r { enable := BitVec.ofNat 8 (leAt v 0 1), reserveFraction := BitVec.ofNat 16 (leAt v 1 2) } }
  else if base = 0x9020 then { p with ptpDomain := leAt v 0 1, ptpTransport := leAt v 1 1, holdoverS := leAt v 2 4 }
  else p

/-- Before a numeric.clip_threshold is written, the value in effect on each core of its partition stands (R459, R460). -/
def State.holdClip (s : State) (part : Nat) : State :=
  match kget? s.persist.parts part with
  | none => s
  | some p =>
    let old := kgetD s.persist.clipThreshold part 64
    { s with svc := { s.svc with clipEff := (coresOf p.cores).foldl (fun m c =>
        kset m (c * 8 + part) (kgetD m (c * 8 + part) old)) s.svc.clipEff } }

/-- A write of an RW, RWB or RWI object takes effect: a change of time.source starts discipline afresh, a link that is
disabled goes down, and a change of the headroom may leave cores over-committed. Opens decided between the write's application and
its commit to flash use the new value, which the spec leaves open (R42, R67, log entry 133). -/
def State.writeObj (s : State) (index sub : Nat) (v : List Byte) : State :=
  let s := if index = 0x5001 then s.holdClip (sub - 1) else s
  let t : State := { s with persist := s.persist.put index sub v }
  if index = 0x1201 ∧ s.persist.timeSource ≠ leAt v 0 1 then t.restartTime
  else if index = 0x9012 ∧ leAt v 0 1 = 0 then t.linkGoDown (sub - 1) lnkSCALE_DOWN
  else if index = 0x2001 ∧ sub = 1 then (List.range 8).foldl (fun t c => t.checkOvercommit c) t
  else t

/-! ### Restored defaults (R545) -/

/-- The persistent values with every RW, RWB and RWI object at its default, but for the 0x7000 range. -/
def Persist.restored (p : Persist) : Persist :=
  { parts := p.parts, extents := p.extents
    tenants := p.tenants.map (fun q => (q.1, { q.2 with beWeight := 1, lcLimit := 0 }))
    moduleResets := p.moduleResets, quarantine := p.quarantine, eventFloor := p.eventFloor
    keys := p.keys, wrapGen := p.wrapGen, linkPeer := p.linkPeer, claimKey := p.claimKey, fwSlots := p.fwSlots
    floorLig := p.floorLig, floorSf := p.floorSf, lastShutdown := p.lastShutdown, shutdowns := p.shutdowns }

end Sys2Proof.Machine
end

