-- ==== Sys2Proof/Machine/Clotha.lean ====
section
/-! DEFINITION. The Clotha protocol (R548 to R574): messages, tags and counters, kept responses, the request queue, entries,
and what an action's command shares. -/

namespace Sys2Proof.Machine

/-! ### Keys (R552 to R555, R637) -/

/-- Counters of a transport: 0 applied, 1 authentication failures, 2 replays, 3 drops for a full queue, 4 revoked-key
discards, 5 ignored REQ_GO (R580). -/
def State.countComm (s : State) (tr i : Nat) : State :=
  { s with clotha := { s.clotha with stats := bumpIn s.clotha.stats 6 tr i 1 } }

/-- Transport number of a request: its port, or 2. -/
def Via.no : Via → Nat
  | .udp p _ _ => p
  | .mgmt => 2

/-- An operator key is enrolled. -/
def Persist.hasOperator (p : Persist) : Bool := p.keys.any (fun q => q.2.role == 1)

/-- The record of an enrolled key, with its number; the claim key, number 0, while it is accepted. -/
def State.findKey (s : State) (via : Via) (keyId : Nat) : Option (Nat × KeyRec) :=
  if keyId = 0 then (if via = .mgmt ∧ !s.persist.hasOperator then some (0, s.persist.claimKey) else none)
  else s.persist.keys.find? (fun q => q.2.keyId == keyId)

/-- A key's record changed. -/
def State.putKey (s : State) (n : Nat) (k : KeyRec) : State :=
  { s with persist := if n = 0 then { s.persist with claimKey := k } else { s.persist with keys := kset s.persist.keys n k } }

/-- What the counter window makes of a COUNTER (R553, R554). -/
inductive Window where
  | fresh (k : KeyRec) | seen | tooOld
  deriving DecidableEq, Repr

/-- The counter test; a counter of 0 is never accepted. -/
def KeyRec.count (k : KeyRec) (c : Nat) : Window :=
  if c + 64 ≤ k.high then .tooOld
  else if k.high < c then
    let d := c - k.high
    .fresh { k with high := c, seen := (if 64 ≤ d then 0 else k.seen <<< d) ||| 1 }
  else if c = 0 ∨ bit k.seen.toNat (k.high - c) then .seen
  else .fresh { k with seen := k.seen ||| BitVec.ofNat 64 (2 ^ (k.high - c)) }

/-- An accepted counter is recorded, and a new reserve is committed when H passes the old one (R553). -/
def State.acceptCounter (s : State) (n : Nat) (k : KeyRec) : State :=
  if k.reserve < k.high then (s.putKey n { k with reserve := k.high + 0x100000 }).commitPersist else s.putKey n k

/-! ### Sending (R548, R552, R562, R567) -/

/-- Header and body of a message. -/
def Msg.head (m : Msg) : List Byte :=
  [1, BitVec.ofNat 8 m.opcode, 1, 0] ++ toLe 2 m.keyId ++ [0, 0] ++ toLe 8 m.counter ++ toLe 4 m.reqId ++ toLe 2 m.body.length
    ++ toLe 2 m.code.toNat ++ toLe 8 m.time ++ m.body

/-- A response leaves by its transport: a datagram from the port's Clotha port, or the response mailbox and the bulk window. -/
def State.emit (s : State) (m : Msg) : State :=
  match m.via with
  | .udp port addr _ => s.sendIp port addr (.clotha m)
  | .mgmt =>
    let (d, t) := s.draw
    let bs := m.head ++ (if m.tagged then (List.range 64).map (Config.tagByte d) else List.replicate 64 0)
    { t with clotha := { t.clotha with
      respBox := bs, bulk := m.bulk, reqBusy := false, respValid := true, respBytes := bs.length } }

/-- The response to a request. -/
def Req.msg (r : Req) (now : Nat) (code : Word16) (body bulk : List Byte) (tagged : Bool) : Msg :=
  { via := r.via, opcode := r.opcode, keyId := r.keyId, counter := r.counter, reqId := r.reqId, code := code, time := now
    body := body, bulk := bulk, tagged := tagged }

/-- A request that is not applied is answered at once. -/
def State.answerNow (s : State) (r : Req) (code : Word16) (body : List Byte) (tagged : Bool) : State :=
  s.emit (r.msg s.now code body [] tagged)

/-! ### Kept responses (R555) -/

/-- The responses of a key, no more than the last 1,024. -/
def trimKept (l : List Kept) (keyId : Nat) : List Kept :=
  let n := (l.filter (fun k => k.req.keyId == keyId && k.resp.isSome)).length
  if n ≤ 1024 then l
  else match takeFirst (fun k => k.req.keyId == keyId && k.resp.isSome) l with
    | none => l
    | some (_, l) => l

/-- A response is ready: it is sent, kept, and sent to the matching requests that wait for it. -/
def State.finish (s : State) (m : Msg) : State :=
  let m := { m with time := s.now }
  let t := (s.emit m).countComm m.via.no 0
  match t.clotha.kept.find? (fun k => k.req.keyId == m.keyId && k.req.reqId == m.reqId && k.resp.isNone) with
  | none => t
  | some k =>
    let kept := t.clotha.kept.map (fun q => if q = k then { q with resp := some m, since := s.now, waiters := [] } else q)
    let t : State := { t with clotha := { t.clotha with kept := trimKept kept m.keyId } }
    k.waiters.foldl (fun t r => t.emit { m with via := r.via, counter := r.counter }) t

/-- KEPT_RESPONSE_EXPIRY: a response that has been kept for 10 s is forgotten (R555). -/
def execKeptResponseExpiry (keyId : Word16) (reqId : Word32) (s : State) : Host.Outcome State Fault Refusal :=
  .next { s with clotha := { s.clotha with kept := s.clotha.kept.filter (fun k =>
    !(k.req.keyId == keyId.toNat && k.req.reqId == reqId.toNat && k.resp.isSome && decide (k.since + 10000000000 ≤ s.now))) } }

/-! ### Parsing (R548 to R551, R560) -/

/-- An entry of a request. -/
structure Entry where
  index : Nat
  sub : Nat
  typ : Nat
  value : List Byte
  deriving DecidableEq, Repr

/-- Entries of a body; `fuel` is at least the number of entries. -/
def parseEntries : Nat → List Byte → Word16 ⊕ List Entry
  | 0, _ => .inl cLENGTH
  | fuel + 1, bs =>
    if bs = [] then .inr []
    else if bs.length < 16 then .inl cLENGTH
    else if bits (leAt bs 4 2) 15 8 ≠ 0 ∨ leAt bs 8 2 ≠ 0 ∨ leAt bs 10 6 ≠ 0 then .inl cRSVD
    else
      let n := leAt bs 6 2
      let m := 16 + cdiv n 8 * 8
      if bs.length < m then .inl cLENGTH
      else match parseEntries fuel (bs.drop m) with
        | .inl c => .inl c
        | .inr l => .inr ({ index := leAt bs 0 2, sub := leAt bs 2 2, typ := leAt bs 4 1, value := slice bs 16 n } :: l)

/-- Entries of a request's body. -/
def Req.entries (r : Req) : List Entry :=
  match parseEntries (r.body.length / 16 + 1) r.body with
  | .inl _ => []
  | .inr l => l

/-- A bulk header. -/
structure Bulk where
  region : Nat
  selector : Nat
  length : Nat
  offset : Nat
  deriving DecidableEq, Repr

/-- The bulk header of a body (R560). -/
def bulkOf (bs : List Byte) : Bulk :=
  { region := leAt bs 0 1, selector := leAt bs 1 2, length := leAt bs 4 4, offset := leAt bs 8 8 }

/-- Body limit of a transport (R551), and of the data of a bulk request (R560). -/
def bodyLimit (via : Via) : Nat := if via = .mgmt then 4000 else 1344
def bulkLimit (via : Via) : Nat := if via = .mgmt then 65536 else 1328

/-- Tests of a bulk request's header. -/
def bulkTests (via : Via) (write : Bool) (body : List Byte) : Option Word16 :=
  let b := bulkOf body
  firstBad [
    (decide (body.length < 16) || (!write && decide (body.length ≠ 16)), cLENGTH),
    (leAt body 3 1 != 0, cRSVD),
    (decide (bulkLimit via < b.length) || (write && decide (body.length ≠ 16 + cdiv b.length 8 * 8)), cLENGTH),
    (b.region == 0 || decide (4 < b.region), accRANGE),
    (write && decide (b.region < 3), accREAD_ONLY),
    (!write && b.region == 4, accWRITE_ONLY),
    (decide (b.selector ≥ (if b.region = 1 then 16 else if b.region = 2 then 1 else if b.region = 3 then 4 else 64)), accRANGE)]

/-- The tests of a message before its entries: VERSION, OPCODE, BODY_LEN and the fields that a request leaves zero; then the
form of its body (R549 to R551). -/
def msgTests (via : Via) (h : List Byte) (body : List Byte) : Option Word16 :=
  let op := leAt h 1 1
  match firstBad [
    (leAt h 0 1 != 1, cVERSION),
    (decide (6 < op), cOPCODE),
    (leAt h 20 2 != body.length || body.length % 8 != 0 || decide (bodyLimit via < body.length), cLENGTH),
    (leAt h 2 2 != 0 || leAt h 6 2 != 0 || leAt h 22 10 != 0, cRSVD)] with
  | some c => some c
  | none =>
    if op = 0 then (if body = [] then none else some cLENGTH)
    else if op = 5 ∨ op = 6 then bulkTests via (op == 6) body
    else match parseEntries (body.length / 16 + 1) body with
      | .inl c => some c
      | .inr l =>
        if (op = 3 ∨ op = 4) ∧ l.length ≠ 1 then some cLENGTH
        else if op = 3 ∧ (l.map (fun e => e.value.length)) ≠ [2] then some cLENGTH
        else none

/-! ### Receiving (R552 to R555, R563, R567, R568) -/

/-- A request that fails authentication (R554). -/
def State.authFail (s : State) (r : Req) (code : Word16) : State :=
  let tr := r.via.no
  let t := s.countComm tr 1
  match r.via with
  | .mgmt => t.answerNow r code [] false
  | .udp .. =>
    let due := match kget? s.clotha.authEventAt tr with
      | none => true
      | some e => decide (e + 1000000000 ≤ s.now)
    if due then
      ({ t with clotha := { t.clotha with authEventAt := kset t.clotha.authEventAt tr s.now } } : State).logEvent 0x1001
        code.toNat 0x10 tr [(8, tr), (16, r.keyId)]
    else t

/-- A request whose counter is too old is answered with H, untagged, at most 1,000 times a second on a port (R554). -/
def State.tooOld (s : State) (r : Req) (high : Nat) : State :=
  let tr := r.via.no
  let t := s.countComm tr 2
  match r.via with
  | .mgmt => t.answerNow r secREPLAY (toLe 8 high) false
  | .udp .. =>
    let sec := s.now / 1000000000
    let (q, n) := kgetD s.clotha.replayRate tr (sec, 0)
    let n := if q = sec then n else 0
    if n < 1000 then
      ({ t with clotha := { t.clotha with replayRate := kset t.clotha.replayRate tr (sec, n + 1) } } : State).answerNow r
        secREPLAY (toLe 8 high) false
    else t

/-- Requests of a port that wait (R563). -/
def State.reqsOf (s : State) (tr : Nat) : Nat := (s.clotha.queue.filter (fun r => r.via.no == tr)).length

/-- An authenticated request: a match with a kept response is answered from it, anything else is queued (R555, R563, R568). -/
def State.enqueue (s : State) (r : Req) : State :=
  match s.clotha.kept.find? (fun k => k.req.keyId == r.keyId && k.req.reqId == r.reqId
      && (k.resp.isNone || decide (s.now < k.since + 10000000000))) with
  | some k =>
    if k.req.opcode ≠ r.opcode ∨ k.req.body ≠ r.body then s.answerNow r cREQID [] true
    else match k.resp with
      | some m => s.emit { m with via := r.via, counter := r.counter, time := s.now }
      | none =>
        { s with clotha := { s.clotha with kept := s.clotha.kept.map (fun q =>
            if q = k then { q with waiters := q.waiters ++ [r] } else q) } }
  | none =>
    if r.via ≠ .mgmt ∧ 256 ≤ s.reqsOf r.via.no then s.countComm r.via.no 3
    else
      { s with clotha := { s.clotha with
        queue := s.clotha.queue ++ [r], kept := s.clotha.kept ++ [{ req := r, resp := none, since := s.now }] } }

/-- A message reaches the hub: tag, counter, form, kept response, queue. -/
def State.receive (s : State) (via : Via) (msg : List Byte) (tagOk : Bool) : State :=
  let h := slice msg 0 32
  let body := (msg.drop 32).take (msg.length - 96)
  let r : Req := { via := via, opcode := leAt h 1 1, keyId := leAt h 4 2, counter := leAt h 8 8, reqId := leAt h 16 4, body := body }
  if msg.length < 96 then (if via = .mgmt then s.answerNow r cLENGTH [] false else s.authFail r secAUTH)
  else match s.findKey via r.keyId with
    | none => s.authFail r secKEY_UNKNOWN
    | some (n, k) =>
      if !tagOk then s.authFail r secAUTH
      else match k.count r.counter with
        | .tooOld => s.tooOld r k.high
        | .seen =>
          let t := s.countComm via.no 2
          if via = .mgmt then t.answerNow r secREPLAY [] false else t
        | .fresh k' =>
          let t := s.acceptCounter n k'
          match msgTests via h body with
          | some c => t.answerNow r c [] true
          | none => t.enqueue r

/-- CLOTHA_REQUEST_RECEIVE: a datagram to the Clotha port of a port, while the service firmware runs (R554, R562, R574,
R593). -/
def execClothaRequestReceive (port : Fin 2) (srcAddr : IpAddr) (srcPort : Word16) (msg : List Byte) (tagOk : Bool)
    (s : State) : Host.Outcome State Fault Refusal :=
  let c := kgetD s.persist.commPort port {}
  .next (if !(s.port port).up ∨ c.clothaOn = 0 then s
  else
    let t := s.countPort port 2
    if !s.clotha.dictReady then t
    else
      let f : FifoFrame := { media := false, bytes := frameBytes srcAddr msg.length, since := s.now
                             pkt := .udp srcAddr srcPort c.udpPort true msg, authOk := tagOk }
      match t.fifoWait port f with
      | some t => t
      | none => t.receive (.udp port srcAddr srcPort) msg tagOk)

/-! ### Applying (R556, R557, R568, R569, R573) -/

/-- What a request asks, so far as it decides which command applies it: a read of some kind, a single write of an action
or of time.source, or any other write. -/
inductive Kind where
  | read (opcode : Nat)
  | bulk (write : Bool) (region : Nat)
  | action (index sub : Nat)
  | write
  deriving DecidableEq, Repr

/-- Objects that a write changes through a command of their own: actions, and time.source. -/
def ownCommand (index sub : Nat) : Bool :=
  index == 0x1201 || (match objAt index sub with | none => false | some o => o.acc == aWO)

/-- The kind of a request; the records of port.srtp_key are one kind, and so are the cores' me_release. -/
def Req.kind (r : Req) : Kind :=
  if r.opcode = 2 then
    match r.entries with
    | [e] => if ownCommand e.index e.sub then
        .action (baseIndex e.index) (if e.index = 0x9002 then 0 else e.sub) else .write
    | _ => .write
  else if r.opcode = 5 ∨ r.opcode = 6 then .bulk (r.opcode == 6) (bulkOf r.body).region
  else .read r.opcode

/-- A kind that may be answered before an earlier action. -/
def Kind.overtakes : Kind → Bool
  | .read _ => true
  | .bulk w _ => !w
  | .action .. | .write => false

/-- The request that a command of a kind applies: the first of the queue, or a read with only actions before it. -/
def pickReq (k : Kind) : List Req → Option (Req × List Req)
  | [] => none
  | r :: l =>
    if r.kind = k then some (r, l)
    else match r.kind with
      | .action .. =>
        if k.overtakes then (match pickReq k l with
          | none => none
          | some (q, l) => some (q, r :: l))
        else none
      | _ => none

/-- The caller of a request whose key is still enrolled. -/
def State.caller (s : State) (r : Req) : Option Caller :=
  if r.revoked then none else (s.findKey r.via r.keyId).map (fun q => { role := q.2.role, tenant := q.2.tenant })

/-- A request whose key was revoked since it arrived is discarded without response (R573). -/
def State.discardReq (s : State) (r : Req) : State :=
  let t := s.countComm r.via.no 4
  { t with clotha := { t.clotha with
    kept := t.clotha.kept.filter (fun k => !(k.req == r || (k.req.keyId == r.keyId && k.req.reqId == r.reqId && k.resp.isNone)))
    reqBusy := if r.via = .mgmt then false else t.clotha.reqBusy } }

/-- The first request of a kind is taken and applied, if the dictionary answers. -/
def State.apply (s : State) (k : Kind) (f : State → Req → Caller → State) : State :=
  if !s.clotha.dictReady then s
  else match pickReq k s.clotha.queue with
    | none => s
    | some (r, l) =>
      let t : State := { s with clotha := { s.clotha with queue := l } }
      match t.caller r with
      | none => t.discardReq r
      | some c => f t r c

/-- A response's body must fit its transport (R551). -/
def State.respond (s : State) (r : Req) (code : Word16) (body bulk : List Byte) : State :=
  if bodyLimit r.via < body.length then s.finish (r.msg s.now cLENGTH [] [] true)
  else s.finish (r.msg s.now code body bulk true)

/-- The response follows the commit of the persistent values that the request changed (R542). -/
def State.respondCommitted (s : State) (r : Req) (code : Word16) (body : List Byte) : State :=
  { s with clotha := { s.clotha with commits := s.clotha.commits ++
    [{ snap := s.persist, answer := some (r.msg s.now code body [] true), since := s.now }] } }

/-- An entry of a response (R550). -/
def entryOut (index sub typ : Nat) (pending : Bool) (code : Word16) (value : List Byte) : List Byte :=
  toLe 2 index ++ toLe 2 sub ++ [BitVec.ofNat 8 typ, BitVec.ofNat 8 (b2n pending)] ++ toLe 2 value.length ++ toLe 2 code.toNat
    ++ List.replicate 6 0 ++ slice value 0 (cdiv value.length 8 * 8)

/-- Type code of the object at an address. -/
def typeAt (index sub : Nat) : Nat := match objAt index sub with | none => 0 | some o => o.typ

/-- The entry that answers the read of an object. -/
def State.readEntry (s : State) (c : Caller) (index sub : Nat) : List Byte :=
  match s.readObj c index sub with
  | .inl code => entryOut index sub (typeAt index sub) false code []
  | .inr v => entryOut index sub (typeAt index sub) (s.objPending index sub) 0 v

/-! ### PING, READ, READ_TABLE, INFO -/

/-- PING: an empty response (R549). -/
def execPing (s : State) : Host.Outcome State Fault Refusal := .next (s.apply (.read 0) (fun t r _ => t.respond r 0 [] []))

/-- The body that answers a READ: one entry for each requested, on its own (R549, R557). -/
def State.readBody (s : State) (c : Caller) (l : List Entry) : List Byte :=
  (l.map (fun e => if e.typ ≠ 0 ∨ e.value ≠ [] then entryOut e.index e.sub 0 false cTYPE [] else s.readEntry c e.index e.sub)).flatten

/-- READ (R538, R546, R547, R550, R557, R571, R582). -/
def execRead (s : State) : Host.Outcome State Fault Refusal :=
  .next (s.apply (.read 1) (fun t r c => t.respond r 0 (t.readBody c r.entries) []))

/-- Entries for consecutive records: at most `n`, up to the table's last, as many whole ones as fit `room` (R558). -/
def State.tableBody (s : State) (c : Caller) (index last : Nat) : Nat → Nat → Nat → List Byte
  | 0, _, _ => []
  | n + 1, sub, room =>
    let e := s.readEntry c index sub
    if room < e.length then []
    else if last ≤ sub then e
    else e ++ s.tableBody c index last n (sub + 1) (room - e.length)

/-- READ_TABLE (R558). -/
def execReadTable (s : State) : Host.Outcome State Fault Refusal :=
  .next (s.apply (.read 3) (fun t r c =>
    match r.entries with
    | [e] =>
      let last := match objAt e.index e.sub with | none => 0 | some o => o.count
      t.respond r 0 (t.tableBody c e.index last (leAt e.value 0 2) e.sub (bodyLimit r.via)) []
    | _ => t.respond r cLENGTH [] []))

/-- The entry that answers an INFO. -/
def infoEntry (c : Caller) (index sub : Nat) : List Byte :=
  if 0xF000 ≤ index then entryOut index sub 0 false 0xF002 []
  else match objAt index sub with
    | none => entryOut index sub 0 false accNO_OBJECT []
    | some o =>
      if !c.may o index sub false && !c.may o index sub true then entryOut index sub 0 false accRIGHTS []
      else entryOut index sub tOCTETS false 0 o.info

/-- INFO (R559). -/
def execInfo (s : State) : Host.Outcome State Fault Refusal :=
  .next (s.apply (.read 4) (fun t r c => t.respond r 0 ((r.entries.map (fun e => infoEntry c e.index e.sub)).flatten) []))

/-! ### WRITE -/

/-- The code of one entry of a WRITE of several entries, or of a value that is no action (R539, R714). -/
def State.writeTest (s : State) (c : Caller) (e : Entry) : Option Word16 :=
  match s.accessTests c e.index e.sub true with
  | some code => some code
  | none =>
    match objAt e.index e.sub with
    | none => some accNO_OBJECT
    | some o => if o.acc = aWO then some cACTION else s.plainTests o e.index e.sub e.typ e.value

/-- The code of each entry: an entry that names an action in a WRITE of several fails with CLO_ACTION. -/
def State.writeCodes (s : State) (c : Caller) (l : List Entry) : List Word16 :=
  l.map (fun e =>
    if (match objAt e.index e.sub with | none => false | some o => o.acc == aWO) then cACTION
    else (s.writeTest c e).getD 0)

/-- The body that answers a WRITE without values. -/
def writeBody (l : List Entry) (codes : List Word16) : List Byte :=
  ((l.zip codes).map (fun q => entryOut q.1.index q.1.sub (typeAt q.1.index q.1.sub) false q.2 [])).flatten

/-- A WRITE of values is applied whole or not at all, and answered after the commit of what it changed (R542, R556). -/
def State.applyWrite (s : State) (r : Req) (c : Caller) : State :=
  let l := r.entries
  let codes := s.writeCodes c l
  match codes.find? (· != 0) with
  | some code => s.respond r code (writeBody l codes) []
  | none =>
    let t := l.foldl (fun t e => t.writeObj e.index e.sub e.value) s
    let body := ((l.map (fun e => entryOut e.index e.sub (typeAt e.index e.sub) (t.objPending e.index e.sub) 0 []))).flatten
    if t.persist = s.persist then t.respond r 0 body [] else t.respondCommitted r 0 body

/-- WRITE of objects that are no actions (R538, R540, R542, R556, R714). -/
def execWrite (s : State) : Host.Outcome State Fault Refusal := .next (s.apply .write (·.applyWrite))

/-- TIME_SOURCE_WRITE: a write of time.source alone (R712). -/
def execTimeSourceWrite (s : State) : Host.Outcome State Fault Refusal := .next (s.apply (.action 0x1201 0) (·.applyWrite))

/-! ### Actions (R539, R714) -/

/-- What an action answers: its code, its result, and whether it has changed a persistent object. -/
structure ActRes where
  code : Word16
  next : State
  value : List Byte := []
  commit : Bool := false

/-- An action that fails and changes nothing. -/
def State.fails (s : State) (code : Word16) : ActRes := { code := code, next := s }

/-- A WRITE of one action: the tests 1 to 5 of R714, the action's own tests and effect, and its response. -/
def State.act (s : State) (index sub : Nat) (f : State → Caller → Entry → ActRes) : State :=
  s.apply (.action index sub) (fun t r c =>
    match r.entries with
    | [e] =>
      let typ := typeAt e.index e.sub
      let no (code : Word16) : State := t.respond r code (entryOut e.index e.sub typ false code []) []
      match t.accessTests c e.index e.sub true, objAt e.index e.sub with
      | some code, _ => no code
      | none, none => no accNO_OBJECT
      | none, some o =>
        if e.typ ≠ o.typ ∨ e.value.length ≠ o.len then no cTYPE
        else
          let x := f t c e
          let body := entryOut e.index e.sub typ false x.code x.value
          if x.commit then x.next.respondCommitted r x.code body else x.next.respond r x.code body []
    | _ => t.respond r cACTION [] [])

/-! ### Flash (R542, R543) -/

/-- A shutdown record waiting to be committed, or the oldest commit, is in flash, and the WRITE that it held is answered
(R542, R543, R684, R687). -/
def State.commitDone (s : State) : State :=
  match s.aon.pending with
  | some _ => commitShutdown s
  | none =>
    match s.clotha.commits with
    | [] => s
    | c :: l =>
      let t : State := { s with flash := c.snap, clotha := { s.clotha with commits := l } }
      match c.answer with
      | none => t
      | some m => t.finish m

end Sys2Proof.Machine
end

