-- ==== Sys2Proof/Machine/Recovery.lean ====
section
/-! DEFINITION. Hangs and the recovery sequences of cores and dies: fence, crash-dump sample, reset, resume, escalation,
and the return of latency-critical service (R79, R501 to R532). -/

namespace Sys2Proof.Machine

/-! ### Error queue and first-error records (R528 to R530) -/

/-- An event enters the error queue (R530). -/
def State.queueError (s : State) (event code kind index : Nat) (detail : List (Nat × Int)) : State :=
  { s with recov := { s.recov with errors := s.recov.errors ++
    [{ time := s.localTime kind index, event := BitVec.ofNat 16 event, code := BitVec.ofNat 16 code, kind := BitVec.ofNat 8 kind
       index := index, late := false, detail := detail }] } }

/-- The first error of a domain's handling fills its record: 0 to 7 a core, 8 and 9 a die, 10 the module. -/
def State.firstError (s : State) (dom event code kind index : Nat) : State :=
  let f : FirstError :=
    { time := s.localTime kind index, event := BitVec.ofNat 16 event, code := BitVec.ofNat 16 code, kind := BitVec.ofNat 8 kind, index := index }
  { s with recov := { s.recov with first := kset s.recov.first dom f } }

/-- A later error of a domain's handling is counted, saturating. -/
def State.laterError (s : State) (dom : Nat) : State :=
  let more (f : FirstError) : FirstError := { f with later := Nat.min (2 ^ 32 - 1) (f.later + 1) }
  { s with recov := { s.recov with first := kmod s.recov.first dom {} more } }

/-- SOURCE_KIND and SOURCE_INDEX of a unit of a core (R480, R497). -/
def unitSource (core : Nat) : DroneUnit → Nat × Nat
  | .me e => (0x01, core * 16 + e)
  | .ve e => (0x02, core * 16 + e)
  | .bell e => (0x03, core * 16 + e)
  | .channel n => (0x04, core * 64 + n)
  | .router => (0x05, core)
  | .prep n => (0x06, core * 4 + n)
  | .arbiter => (0x08, core)

/-- A sequencer of a die. -/
def State.die (s : State) (d : Nat) : Sequencer := kgetD s.recov.dies d {}
def State.modDie (s : State) (d : Nat) (f : Sequencer → Sequencer) : State :=
  { s with recov := { s.recov with dies := kmod s.recov.dies d {} f } }
def State.modSeq (s : State) (c : Nat) (f : Sequencer → Sequencer) : State := s.modCore c (fun k => { k with seqr := f k.seqr })

/-- A condition of R83, a fault beyond the reserve, holds for the streams of a core. -/
def State.markCore (s : State) (c : Nat) : State := s.markCause 1 (fun _ x => x.core == c)

/-! ### The crash-dump sample (R518 to R521) -/

/-- The parts of a sample in the order in which the side port reads them. -/
def dumpParts : List Nat := [33, 34, 32] ++ List.range 32

/-- Number of a part. -/
def partNo : DumpPart → Nat
  | .bank b => b
  | .handleTable => 32
  | .queuePointers => 33
  | .progress => 34

/-- The slot that a sample of a die takes: the oldest whose LOCKED is 0. -/
def State.dumpSlot (s : State) (d : Nat) : Option Nat :=
  let free := (List.range 8).filter (fun i => !(kgetD s.recov.dumps (d * 8 + i) {}).locked)
  let age (i : Nat) : Nat := match kget? s.recov.dumps (d * 8 + i) with
    | none => 0
    | some x => x.detect + 1
  (bestBy (fun a b => decide (age a < age b)) free).map (fun i => d * 8 + i)

/-- The queue-pointer record of a slot of the context store. -/
def State.qpRec (s : State) (q : Nat × Nat) : Nat × QpRec :=
  (q.1, match s.ctx? q.2 with
    | none => { ctxId := q.2, head := 0, tail := 0, cringWr := 0, cringRd := 0, seqNext := 0, state := 0, hold := 0 }
    | some c => { ctxId := q.2, head := c.head, tail := c.tail, cringWr := c.cringWr, cringRd := c.cringRd, seqNext := c.seqNext
                  state := s.ctxState q.2 c, hold := c.holdCount })

/-- The sample of a core as it stands at D, before any part has timed out. -/
def State.sample (s : State) (c level cause kind unit seq : Nat) : Dump :=
  let k := s.core c
  { detect := s.now, core := c, level := level, cause := cause, unitKind := kind, unitIndex := unit, locked := true, sequence := seq
    qps := k.slots.map s.qpRec, pcs := k.progress, hts := k.handles
    banks := k.bore.filter (fun p => decide (p.1 % 131072 < 4096)) }

/-- A sample of a core is taken into a slot of its die, or a dump-lost event is logged. -/
def State.takeSample (s : State) (c level cause kind unit : Nat) : State :=
  let d := dieOf c
  match s.dumpSlot d with
  | none => s.logEvent 0x6005 0 0x13 1 [(8, c)]
  | some i =>
    let n := kgetD s.recov.dumpSeq d 0
    let t : State := { s with recov := { s.recov with
      dumps := kset s.recov.dumps i (s.sample c level cause kind unit n), dumpSeq := kset s.recov.dumpSeq d ((n + 1) % 2 ^ 32) } }
    t.modSeq c (fun q => { q with dump := some i, unread := dumpParts, dumpLast := s.now })

/-- A dump without a part: zeros, and the part marked unreadable. -/
def Dump.unreadable (d : Dump) (part : Nat) : Dump :=
  if part < 32 then
    { d with bankBad := nins d.bankBad part, banks := memDrop d.banks (part * 131072) 131072 }
  else if part = 32 then { d with htBad := true, hts := [] }
  else if part = 33 then { d with qpBad := true, qps := [] }
  else { d with pcBad := true, pcs := [] }

/-- A dump changed. -/
def State.modDump (s : State) (i : Nat) (f : Dump → Dump) : State :=
  { s with recov := { s.recov with dumps := kmod? s.recov.dumps i f } }

/-- The sample ends: what the side port has not read by now is abandoned; at full speed it reads the whole in 1.5 µs. -/
def State.endSample (s : State) (c : Nat) : State :=
  let q := (s.core c).seqr
  match q.dump with
  | none => s
  | some i =>
    if q.unread = [] then s
    else
      let done := decide (q.dumpLast + 1500 ≤ s.now)
      let t := s.modDump i (fun d =>
        if done then { d with complete := true, endNs := s.now }
        else { q.unread.foldl Dump.unreadable d with complete := false, endNs := s.now })
      t.modSeq c (fun q => { q with unread := [] })

/-- DUMP_PART_TIMEOUT: a part that does not answer in dump_part_cycles is recorded as unreadable, and the side port, which
has read the parts before it, moves to the next (R520). -/
def execDumpPartTimeout (core : Fin 8) (part : DumpPart) (s : State) : Host.Outcome State Fault Refusal :=
  let q := (s.core core).seqr
  .next (match q.dump with
  | none => s
  | some i =>
    if !q.unread.contains (partNo part) ∨ q.declared + 4000 < s.now then s
    else
      let rest := (q.unread.dropWhile (· != partNo part)).drop 1
      let t := (s.modDump i (·.unreadable (partNo part))).modSeq core (fun q => { q with unread := rest, dumpLast := s.now })
      if rest = [] then t.modDump i (fun d => { d with complete := true, endNs := s.now }) else t)

/-! ### The fence (R513 to R516) -/

/-- Work items that an engine holds and has not completed. -/
def Engine.items (g : Engine) : List WorkItem :=
  (g.ahead ++ g.set0.item.toList ++ g.set1.item.toList ++ g.ve.item.toList).foldl (fun l w => if l.contains w then l else l ++ [w]) []

/-- TAKEs of a core's contexts that have not been given back are given back, in every store. -/
def State.returnTakes (s : State) (c : Nat) : State :=
  s.modCores (fun _ k =>
    { k with sems := { k.sems with
      vals := (k.sems.takes.filter (fun r => r.core == c)).foldl (fun m r => kset m r.index (kgetD m r.index 0 + r.value)) k.sems.vals
      takes := k.sems.takes.filter (fun r => r.core != c) } })

/-- Credits that a core's channels and contexts hold on other cores, and those of slots credited and not yet filled, return. -/
def State.returnCredits (s : State) (c : Nat) : State :=
  let mine (o : CreditHolder) : Bool := match o with
    | .channel k _ => k == c
    | .context i => match s.ctx? i with
      | none => false
      | some x => x.core == c
  s.modCores (fun _ k => { k with
    creditReqs := k.creditReqs.filter (fun q => !mine q.2.1), credits := k.credits.filter (fun q => !mine q.2.1)
    spent := k.spent.filter (fun q => q.2 != c) })

/-- Reads of a walk are outstanding on a link: parts of the spilled pair that it fetches. -/
def State.walkReads (s : State) (ctx : Nat) (w : Walk) : Bool :=
  w.asked.isSome && (List.range 8).any (fun l => (s.link l).pairWaits ctx != [])

/-- The fence of a core begins: stolen work goes back to the neighbour, the core's own work on the neighbour is dropped,
TAKEs and credits return, and the walks without outstanding reads end their registration; the others end it as their last read is
drained or answered (R372, R415, R515, R516). -/
def State.fence (s : State) (c : Nat) : State :=
  let n := c ^^^ 1
  let k := s.core c
  let stolen := ((k.engines.map (fun q => q.2.items)).flatten ++ k.rerun).filter (fun w => w.home == n)
  let t := s.purgeItems (fun w => w.home == c || stolen.contains w)
  let t := t.requeue stolen
  let t := (t.returnTakes c).returnCredits c
  t.modCore c (fun k => { k with cmds := k.cmds.map (fun m =>
    { m with walk := m.walk.filter (fun w => s.walkReads m.ctx w) }) })

/-! ### Declarations (R504, R512, R524, R525, R529, R531, R532) -/

/-- Streams of a core whose promise does not cover the reset now declared (R79, R83). -/
def State.markUncovered (s : State) (c last : Nat) (gap : Bool) : State :=
  let oc := s.overcommitted c
  s.markCause 1 (fun _ x => x.core == c && (oc || x.uncovered gap last))

/-- A core's recovery begins at D. -/
def State.beginCore (s : State) (c last level cause kind unit : Nat) (byDie : Bool) : State :=
  let t := s.takeSample c level cause kind unit
  let gap := (s.core c).seqr.serviceAt.isSome
  let t := t.modSeq c (fun q => { q with
    state := .fenced, declared := s.now, lastProgress := last, cause := cause, serviceAt := none, byDie := byDie, gap := gap })
  (t.fence c).markUncovered c last gap

/-- A core compute reset is declared: its events are queued and MOD_ALERT# is asserted. -/
def State.declareCore (s : State) (c last cause kind unit : Nat) : State :=
  let t := s.beginCore c last 0 cause kind unit false
  (t.queueError 0x6002 0 0x13 1 [(8, c), (8, cause)]).alertSet alertReset

/-- A die compute reset is declared: every core of the die not already fenced is fenced and sampled, and the die's sequencer
handles them all. -/
def State.declareDie (s : State) (d cause kind unit : Nat) : State :=
  let t := ((List.range 4).map (· + 4 * d)).foldl (fun (t : State) c =>
    if (t.core c).seqr.state == .running then t.beginCore c s.now 1 cause kind unit true
    else
      let t := if (t.core c).seqr.state == .fenced then t else t.fence c
      t.modSeq c (fun q => { q with state := .fenced, byDie := true })) s
  let t := t.modDie d (fun q => { q with state := .fenced, declared := s.now, lastProgress := s.now, cause := cause, serviceAt := none })
  let t := t.markCause 1 (fun _ x => dieOf x.core == d)
  (t.queueError 0x6003 0 0x13 1 [(8, d), (8, cause)]).alertSet alertReset

/-- A module reset begins by escalation: the dumps in hand and the first-error records are kept, and MOD_ALERT# is asserted. -/
def State.declareModule (s : State) (cause : Nat) : State :=
  let t := moduleReset ((List.range 8).foldl State.endSample s) cause
  ({ t with aon := { t.aon with phase := .internalReset, boot := .rom } } : State).alertSet alertReset

/-- Engine of a unit that a quarantine would cover. -/
def engineOf : DroneUnit → Option Nat
  | .me e | .ve e | .bell e => some e
  | .channel _ | .prep _ | .router | .arbiter => none

/-- The first-error unit of a compute reset is noted; the second within 10 s quarantines an engine, or is reported. -/
def State.noteHang (s : State) (c : Nat) (u : DroneUnit) : State :=
  let key := unitIndex u
  let recent := (s.core c).hangs.filter (fun q => decide (s.now ≤ q.2 + 10000000000))
  let again := recent.any (fun q => q.1 == key)
  let t := s.modCore c (fun k => { k with hangs := recent ++ [(key, s.now)] })
  if !again then t
  else
    match engineOf u with
    | some e => if t.quarantined c e then t else t.quarantine c e
    | none => (t.queueError 0x6006 0 (unitSource c u).1 (unitSource c u).2
        [(8, (unitSource c u).1), (16, (unitSource c u).2)]).alertSet alertRepeatedHang

/-- A second error in the domain of a core under recovery escalates its handling by one level: to a die compute reset, or where the
die is being handled to a module reset. The error fills the first-error record of the domain that it escalates to (R525, R529). -/
def State.escalate (s : State) (core event kind index unit : Nat) : State :=
  let d := dieOf core
  if (s.die d).state == .running then ((s.laterError core).firstError (8 + d) event 0 kind index).declareDie d 3 kind unit
  else ((s.laterError (8 + d)).firstError 10 event 0 kind index).declareModule 3

/-- HANG_DETECTED: a pending unit's counter has not advanced for one window. In a running core its recovery begins; in a
core already being handled it is a second error, which escalates by one level (R502, R504, R512, R528 to R532). -/
def execHangDetected (core : Fin 8) (unit : DroneUnit) (s : State) : Host.Outcome State Fault Refusal :=
  let k := s.core core
  let p := kgetD k.progress (unitIndex unit) {}
  let from_ := match p.since with
    | none => p.last
    | some b => Nat.max p.last b
  let (kind, index) := unitSource core unit
  .next (if !s.hbmUp ∨ p.since.isNone ∨ !s.unitPending core (unitIndex unit) ∨ s.now + 1000 < from_ + s.persist.windowNs then s
  else
    let e := s.queueError 0x6001 0 kind index [(8, kind), (16, index)]
    if s.recovering core then e.escalate core 0x6001 kind index (unitIndex unit)
    else
      let t := (e.firstError core 0x6001 0 kind index).declareCore core p.last 0 kind (unitIndex unit)
      t.noteHang core unit)

/-- NARROW_VIEW_ACCESS: a prep core reads or stores 8 bytes of a line. A read finds errors and poison; a store leaves a poisoned
line poisoned and no full bit changes. Through the fence of its core, until the reset, an error beyond correction is a second error;
it has no event number, so that the record has zero there (R328, R329, R359, R378, R379, R513, R529, log entry 138). -/
def execNarrowViewAccess (core : Fin 8) (prep : Fin 4) (line : Fin 65536) (word : Fin 8) (store : Option Word64)
    (ecc : EccResult) (s : State) : Host.Outcome State Fault Refusal :=
  .next (if s.fenced core then
    (if (s.core core).seqr.state == .fenced ∧ store.isNone ∧ ecc == .uncorrectable then
      s.escalate core 0 0x06 (core * 4 + prep) (112 + prep)
    else s)
  else match store with
  | some v => s.modCore core (fun k => { k with bore := wrBytes k.bore (line.val * 64 + word.val * 8) (toLe 8 v.toNat) })
  | none =>
    s.modCore core (fun k =>
      let k : Core := match ecc with
        | .clean => k
        | .corrected => { k with boreErrors := lbump k.boreErrors 0 1 }
        | .uncorrectable => { k with boreErrors := lbump k.boreErrors 1 1, borePoison := nins k.borePoison line.val }
      if k.borePoison.contains line.val then { k with poisonSeen := nins k.poisonSeen prep.val } else k))

/-- A reset of a core that firmware or the operator requests (R524). -/
def State.requestReset (s : State) (c sc : Nat) : State :=
  ((s.firstError c 0x6002 0 0x13 sc).declareCore c s.now 1 0 0)

/-! ### Outstanding reads and the end of the drain (R512, R513) -/

/-- Reads of a core that are outstanding; in a fenced core a walk that is still registered has one (R415). -/
def Core.outstanding (k : Core) : Nat :=
  sumNat (k.engines.map (fun q => q.2.bell.extReads.length)) + sumNat (k.channels.map (fun q => q.2.flight.length))
    + (k.cmds.filter (fun m => m.walk.isSome)).length

/-- FENCE_READ_EXPIRY: at D + 4 µs the fence answers the reads still outstanding with REC_FENCED and frees their tags, and
the sample abandons what it has not read (R513, R520). -/
def execFenceReadExpiry (core : Fin 8) (s : State) : Host.Outcome State Fault Refusal :=
  let q := (s.core core).seqr
  .next (if q.state != .fenced ∨ s.now < q.declared + 4000 then s
  else
    let t := s.modCore core (fun k => { k with
      cmds := k.cmds.map (fun m => { m with walk := none })
      fencedReads := k.fencedReads + k.outstanding, tags := 0
      engines := k.engines.map (fun g => (g.1, { g.2 with bell := { g.2.bell with extReads := [] } }))
      channels := k.channels.map (fun c => (c.1, { c.2 with flight := [], tags := 0 })) })
    t.endSample core)

/-- A core after its compute reset: what R510 keeps, and what the hub keeps of it. -/
def Core.afterReset (k : Core) : Core :=
  { engines := k.engines.map (fun g => (g.1, { bell := { stats := g.2.bell.stats } }))
    shadow := k.shadow
    cmds := k.cmds, sems := k.sems
    ready := k.ready, rounds := k.rounds, roundSeq := k.roundSeq, vtime := k.vtime, preps := k.preps
    tagPeak := k.tagPeak, tagWait := k.tagWait
    progress := k.progress.map (fun p => (p.1, { p.2 with since := none }))
    mismatch := k.mismatch, mismatchTotal := k.mismatchTotal
    stealStats := k.stealStats, poolStats := k.poolStats, schedStats := k.schedStats, boreErrors := k.boreErrors
    seqr := k.seqr, hangs := k.hangs, overcommit := k.overcommit, fencedReads := k.fencedReads }

/-- A core's compute reset begins. -/
def State.resetCore (s : State) (c : Nat) : State :=
  let t := s.endSample c
  t.modCore c (fun k => { k.afterReset with seqr := { k.seqr with
    state := .resetting, resetAt := s.now, resets := k.seqr.resets + b2n !k.seqr.byDie
    lastNs := if k.seqr.byDie then k.seqr.lastNs else s.now } })

/-- Cores of a die. -/
def coresOfDie (d : Nat) : List Nat := (List.range 4).map (· + 4 * d)

/-- FENCE_DRAIN_COMPLETE: the fence and drain of a domain end and its compute reset begins; past the bound of 5 µs it is a
fault beyond the reserve (R83, R510, R512, R522, R525). -/
def execFenceDrainComplete (dom : ResetDom) (s : State) : Host.Outcome State Fault Refusal :=
  .next (match dom with
  | .core c =>
    let q := (s.core c).seqr
    if q.state != .fenced ∨ q.byDie ∨ ((s.core c).outstanding ≠ 0 ∧ s.now < q.declared + 4000) then s
    else
      let t := s.resetCore c
      if q.declared + 5000 < s.now then t.markCore c else t
  | .die d =>
    let q := s.die d
    if q.state != .fenced ∨ ((coresOfDie d).any (fun c => (s.core c).outstanding != 0) ∧ s.now < q.declared + 4000) then s
    else
      ((coresOfDie d).foldl State.resetCore s).modDie d (fun q => { q with
        state := .resetting, resetAt := s.now, resets := q.resets + 1, lastNs := s.now }))

/-- COMPUTE_RESET_DONE: every unit of the domain reports reset done, and the resume begins (R83, R512, R522, R525). -/
def execComputeResetDone (dom : ResetDom) (s : State) : Host.Outcome State Fault Refusal :=
  .next (match dom with
  | .core c =>
    let q := (s.core c).seqr
    if q.state != .resetting ∨ q.byDie then s
    else
      let t := s.modSeq c (fun q => { q with state := .resuming, doneAt := s.now })
      if q.resetAt + 20000 < s.now then t.markCore c else t
  | .die d =>
    if (s.die d).state != .resetting then s
    else
      ((coresOfDie d).foldl (fun (t : State) c => t.modSeq c (fun q => { q with state := .resuming })) s).modDie d
        (fun q => { q with state := .resuming }))

/-! ### Resume (R439, R512, R523) -/

/-- A context's commands not yet completed are discarded, with one completion record. -/
def State.discardCtx (s : State) (i : Nat) (ct : Ctx) (c : Nat) : State :=
  let busy := (s.core c).cmds.any (fun m => m.ctx == i)
  let last := if ct.depth ≠ 0 then dSeq (s.queued ct (ct.tail + 65535)) else (ct.seqNext + 65535) % 65536
  let t := s.dropWaits i
  let t := if busy ∨ ct.depth ≠ 0 then t.writeRecord i { seq := last, code := recDISCARD } else t
  t.modCtx i (fun x => { x with
    head := x.tail, seqNext := (last + 1) % 65536, holdCount := 0, waiting := none, satisfied := false
    roundDeadline := 2 ^ 64 - 1, dropping := false })

/-- A step that is run again after a compute reset: RECOVERED, and its chunk is counted once (R44, R77, R78). -/
def State.recovered (s : State) (r : ReadyStep) : State :=
  if r.step.job then s
  else
    match (s.stream? r.step.id).bind (·.chunk? r.step.chunk) with
    | none => s
    | some c =>
      let t := s.modChunk r.step.id r.step.chunk (fun c => { c with flags := c.flags ||| 0x0040, rerunCounted := true })
      if c.rerunCounted then t else t.modStats r.step.id (fun q => { q with rerunChunks := q.rerunChunks + 1 })

/-- The steps of the rounds of a core that met a fence elsewhere go back to their queues, and the rounds count as yielded. -/
def State.returnFenced (s : State) (c : Nat) : State :=
  let rs := (s.core c).rounds.filter (·.fenced)
  let t := s.modCore c (fun k => { k with rounds := k.rounds.map (fun r =>
    if r.fenced then { r with fenced := false, yielded := true } else r) })
  let steps := ((rs.filter (fun r => !r.cancelled)).map (·.steps)).flatten
  ((steps.foldl State.recovered t).returnSteps c steps).leaveFlight c

/-- Contexts that the resume loads: the pinned ones, then the latency-critical ones of the rounds that were in flight. -/
def State.resumeSlots (s : State) (c : Nat) (inFlight : List Round) : KMap Nat :=
  let pinned := (s.ctxs.filter (fun q => q.2.core == c && q.2.pin)).map Prod.fst
  let lc := (inFlight.filter (fun r => !r.be)).map (·.ctx)
  ((pinned ++ lc.filter (fun i => !pinned.contains i)).take 16).zipIdx.map (fun p => (p.2, p.1))

/-- Largest Q of a core (R62, test 7). -/
def State.coreQMax (s : State) (c : Nat) : Nat :=
  maxNat ((s.lcOn c).map (fun x => match s.pkg? x.modelSlot with
    | none => 0
    | some p => pkgQMax p x.period))

/-- A core resumes. -/
def State.resumeCore (s : State) (c : Nat) : State :=
  let k := s.core c
  let flying := k.rounds.filter (fun r => k.inFlight r)
  let waiting := k.rounds.filter (fun r => !k.inFlight r)
  let live (l : List Round) : List ReadyStep := ((l.filter (fun r => !r.yielded && !r.cancelled)).map (·.steps)).flatten
  let slots := s.resumeSlots c flying
  let t := (s.ctxs.filter (fun q => q.2.core == c)).foldl (fun (t : State) q => t.discardCtx q.1 q.2 c) s
  let t := t.modCore c (fun k => { k with
    cmds := [], rounds := [], reports := [], slots := slots, swaps := []
    handles := k.shadow.map (fun h => (h.1, { h.2 with wrPtr := 0, full := 0 }))
    seqr := { k.seqr with state := .running, byDie := false, dump := none, serviceAt := some (s.now + 2 * s.coreQMax c + blockNs) } })
  let t := (live flying).foldl State.recovered t
  let t := t.returnSteps c (live flying ++ live waiting)
  let jobs := ((k.rounds.map (·.steps)).flatten.filter (fun r => r.step.job)).map (fun r => r.step.id)
  let t := jobs.foldl State.jobStepDone t
  (List.range 8).foldl (fun (t : State) o => if o = c then t else t.returnFenced o) t

/-- RESUME: the handle table and the contexts are restored, commands are discarded and the steps of the rounds return to the
heads of their queues; the sequencer runs again (R83, R381, R510 to R512, R523, R525). -/
def execResume (dom : ResetDom) (s : State) : Host.Outcome State Fault Refusal :=
  .next (match dom with
  | .core c =>
    let q := (s.core c).seqr
    if q.state != .resuming ∨ q.byDie then s
    else
      let t := s.resumeCore c
      State.after s (if q.doneAt + 10000 < s.now then t.markCore c else t) c
  | .die d =>
    if (s.die d).state != .resuming then s
    else
      let t := s.modDie d (fun q => { q with state := .running })
      (coresOfDie d).foldl (fun (t : State) c => State.after s (t.resumeCore c) c) t)

/-- LC_SERVICE_RESUME: 2 × Qmax and B after the end of the resume, latency-critical service resumes on the core, and the
clearance interval of each stream placed on it begins: its reserve over the headroom. A quotient that is no whole number of
nanoseconds is rounded up, and a stream placed on the core later has no interval of this reset: the spec settles neither (R79,
R512, log entry 132). -/
def execLcServiceResume (core : Fin 8) (s : State) : Host.Outcome State Fault Refusal :=
  .next (match (s.core core).seqr.serviceAt with
  | none => s
  | some at_ =>
    if s.now < at_ then s
    else
      let h := Nat.max 1 s.persist.headroom
      let t := s.modSeq core (fun q => { q with serviceAt := none })
      { t with streams := { t.streams with ctx := t.streams.ctx.map (fun q =>
        if q.2.core == core.val && !q.2.be then (q.1, { q.2 with clearanceEnd := some (at_ + cdiv (q.2.reserve * 1024) h), clearedAt := none }) else q) } })

/-- CLEARANCE_INTERVAL_END: the promise again covers a compute reset of the stream's core whose hang had its last progress after
the interval, of which the end is kept (R79). -/
def execClearanceIntervalEnd (stream : Fin 16384) (s : State) : Host.Outcome State Fault Refusal :=
  .next (match (s.stream? stream).bind (·.clearanceEnd) with
  | none => s
  | some e => if s.now < e then s else s.modStream stream (fun x => { x with clearanceEnd := none, clearedAt := some e }))

/-! ### Escalation (R525, R526) -/

/-- CORE_RESET_TIMEOUT: a core compute reset that is not done 20 µs after it began, for want of a unit's report, starts a
die compute reset with CAUSE 2 (R522, R525, R528, R529). -/
def execCoreResetTimeout (core : Fin 8) (unit : DroneUnit) (s : State) : Host.Outcome State Fault Refusal :=
  let q := (s.core core).seqr
  let (kind, index) := unitSource core unit
  .next (if q.state != .resetting ∨ q.byDie ∨ s.now < q.resetAt + 20000 then s
  else ((s.laterError core).firstError (8 + dieOf core) 0x6002 0 kind index).declareDie (dieOf core) 2 kind (unitIndex unit))

/-- DIE_RESET_TIMEOUT: a die compute reset not done 40 µs after the end of its fence, for want of the report of a unit of one of the
die's cores, starts a module reset (R522, R525 to R528). -/
def execDieResetTimeout (u : DieUnit) (s : State) : Host.Outcome State Fault Refusal :=
  let q := s.die u.die
  let (kind, index) := unitSource (4 * u.die.val + u.core.val) u.unit
  .next (if q.state != .resetting ∨ s.now < q.resetAt + 40000 then s
  else ((s.laterError (8 + u.die)).firstError 10 0x6003 0 kind index).declareModule 2)

end Sys2Proof.Machine
end

