-- ==== Sys2Proof/Machine/Actions.lean ====
section
/-! DEFINITION. Actions on streams, jobs, engines, cores, dumps, defaults, SRTP keys, the PPS epoch, alerts and the drain (R37
to R41, R62 to R65, R84 to R87, R178, R232, R455 to R457, R521, R524, R545, R601 to R603, R612, R613, R678, R698 to R701), and
the grant of a packet-pool or bore-pool buffer (R375, R376, R593, R594). -/

namespace Sys2Proof.Machine

/-! ### The end of a drain (R700) -/

/-- A draining module with no stream held, no job running and nothing left to commit is drained. -/
def State.drainCheck (s : State) : State :=
  if s.aon.drain = 1 ∧ s.streams.ctx = [] ∧ !s.svc.jobs.any (fun q => q.2.state == 1 || q.2.state == 2) ∧ s.clotha.commits = []
      ∧ s.aon.pending = none then
    { s with aon := { s.aon with drain := 2 } }
  else s

/-- STREAM_CONTEXT_FREE: a closing stream's last accepted chunk has been delivered or discarded: its context, state and
reservations are free (R85), and a drain may end (R700). -/
def execStreamContextFree (stream : Fin 16384) (s : State) : Host.Outcome State Fault Refusal :=
  .next ((s.freeStream stream).drainCheck)

/-- FLASH_COMMIT_DONE: a shutdown record waiting to be committed, or the oldest commit, is in flash, and the WRITE that it
held is answered (R542, R543, R684, R687, R700). -/
def execFlashCommitDone (s : State) : Host.Outcome State Fault Refusal := .next (s.commitDone.drainCheck)

/-! ### Streams (R37 to R41, R62, R84 to R87) -/

/-- A field of a record: bits [hi:lo] of its little-endian number. -/
def recBits (v : List Byte) (hi lo : Nat) : Nat := bits (leAt v 0 v.length) hi lo

/-- What an open record asks, with the defaults of RESERVE_NS and LATE_LIMIT_NS. -/
def State.openReq (s : State) (v : List Byte) : OpenReq :=
  let f := recBits v
  { tenant := f 15 0, part := f 18 16, be := f 19 19 == 1, period := f 22 20, fallbackAdmit := f 23 23 == 1, modelId := f 47 32
    port := f 48 48, payload := f 51 49, rate := f 53 52, promise := f 95 64
    reserve := if f 127 96 = 0 then s.persist.reserveDefault else f 127 96
    late := if f 159 128 = 0xFFFFFFFF then periodNs (f 22 20) else f 159 128, maxContext := f 191 160 }

/-- A tenant key names a tenant other than its own. -/
def Caller.foreign (c : Caller) (tenant : Nat) : Bool := c.role == 2 && c.tenant != tenant

/-- The tests of an open record that stand before the admission tests (R37, R38, R540, R601, R613, R698, R714). A port whose
CLOTHA_ON is 0 answers no Clotha request, so that its Clotha port bars no stream: neither R38 nor R562 says (DESIGN CHOICE, log entry
136). -/
def State.openTests (s : State) (c : Caller) (v : List Byte) : Option Word16 :=
  let f := recBits v
  let q := s.openReq v
  let p := kgetD s.persist.commPort q.port {}
  let lport := f 239 224
  firstBad [
    (f 31 24 != 0 || f 63 56 != 0 || f 255 240 != 0 || f 511 416 != 0 || (f 54 54 == 0 && f 415 400 != 0), cmdRSVD),
    (decide (6 ≤ q.period) || decide (5 ≤ q.payload) || ((q.payload == 1 || q.payload == 2) && q.rate != 0), cFIELD),
    (decide (1048576 < q.maxContext) || decide (4096 ≤ f 415 400), accRANGE),
    (c.foreign q.tenant, accRIGHTS),
    (s.aon.drain != 0, accBUSY),
    (s.partTenant q.part != some q.tenant, accOWNER),
    (s.streams.ctx.any (fun x => x.2.port == q.port && x.2.localPort.toNat == lport && x.2.ssrcIn.toNat == f 223 192)
      || lport == 319 || lport == 320 || (p.clothaOn != 0 && lport == p.udpPort.toNat), accCONFIG),
    (f 54 54 == 1 && (match kget? s.net.srtp (f 415 400) with | none => true | some k => k.owner != q.tenant), accOWNER),
    (!q.be && decide (s.persist.timeSource ≤ 2) && s.time.state != 2 && s.time.state != 3, lnkTIMEBASE)]

/-- The lowest-numbered stream context that is neither open nor closing (R86). -/
def State.freeStreamId (s : State) : Nat := ((List.range 16384).find? (fun i => (s.stream? i).isNone)).getD 0

/-- The context of an admitted stream. -/
def State.openCtx (s : State) (v : List Byte) (x : Placement) (ch : OpenChoice) : StreamCtx :=
  let f := recBits v
  let q := s.openReq v
  { be := q.be, variantFb := x.fallback, onFallback := x.fallback, spillOk := x.spillOk, period := q.period, part := q.part
    core := x.core, port := q.port, payload := q.payload, rate := q.rate, srtp := f 54 54 == 1, lateDiscard := f 55 55 == 1
    tenant := q.tenant, modelId := q.modelId, modelSlot := x.slot, keySlot := f 415 400, promise := q.promise
    reserve := q.reserve, lateLimit := q.late, ssrcIn := BitVec.ofNat 32 (f 223 192), ssrcOut := ch.ssrcOut
    maxContext := q.maxContext, slack := x.slack, openNs := s.now, localPort := BitVec.ofNat 16 (f 239 224)
    lastDeadline := if q.be then 2 ^ 64 - 1 else 0
    remoteAddr := BitVec.ofNat 128 (f 383 256), remotePort := BitVec.ofNat 16 (f 399 384), stateAddr := ch.stateAddr
    shadowAddr := ch.shadowAddr, ringAddr := ch.ringAddr }

/-- An admission decision in the event log (R65): the stream or 0xFFFF, the code and the core. Of an open that no core's test
refuses the spec names no core: that value is free (log entry 42). -/
def State.admitEvent (s : State) (id : Nat) (code : Word16) (core : Nat) : State :=
  s.logEvent 0x2001 code.toNat 0x12 0 [(16, id), (16, (code.toNat : Int)), (8, core)]

/-- The hub's grant for the ingress ring of a stream: four chunks of R713 (R631). -/
def State.ringGrant (s : State) (id : Nat) (x : StreamCtx) : Grant :=
  { use := .ingressRing, part := x.part, key := id, base := x.ringAddr
    len := match s.pkg? x.modelSlot with | none => 0 | some p => 4 * (x.payShape p).share }

/-- An open that has passed the tests before admission is decided; Ligature refuses an ingress ring outside the partition's extents
(R631). -/
def State.openStream (s : State) (ch : OpenChoice) (v : List Byte) : ActRes :=
  match s.admission (s.openReq v) with
  | .inl code =>
    let t : State := if code.toNat / 0x1000 = 3 then
        { s with streams := { s.streams with refusedTotal := s.streams.refusedTotal + 1 } }
      else s
    let (d, t) := t.draw
    { code := code, next := t.admitEvent 0xFFFF code ((s.refusedAt (s.openReq v) code).getD (Config.refusalCore d % 8)) }
  | .inr x =>
    let id := s.freeStreamId
    let y := s.openCtx v x ch
    let ring := s.ringGrant id y
    if !grantsOk (s.persist.extentsOf y.part) [ring] then s.fails secNOT_GRANTED else
    let t := s.install [ring]
    let t : State := { t with streams := { t.streams with
      ctx := kset s.streams.ctx id y, stats := kdel s.streams.stats id, lost := ndel s.streams.lost id } }
    { code := 0, next := (t.admitEvent id 0 x.core).checkOvercommit x.core
      value := toLe 8 (id + 2 ^ 14 * b2n x.fallback + 2 ^ 16 * x.core + 2 ^ 32 * x.slack) }

/-- STREAM_OPEN (R37 to R41, R62 to R65, R86, R601, R613, R698). -/
def execStreamOpen (choice : OpenChoice) (s : State) : Host.Outcome State Fault Refusal :=
  .next (s.act 0x2000 1 (fun t c e =>
    match t.openTests c e.value with
    | some code => t.fails code
    | none => t.openStream choice e.value))

/-- A stream accepts no further chunk, and the samples of its open chunk are discarded (R84). -/
def StreamCtx.close (x : StreamCtx) : StreamCtx := { x with closing := true, arrived := [] }

/-- STREAM_CLOSE (R84 to R87, R527). -/
def execStreamClose (s : State) : Host.Outcome State Fault Refusal :=
  .next (s.act 0x2000 2 (fun t c e =>
    let id := leAt e.value 0 2
    if 16384 ≤ id then t.fails accRANGE
    else if t.streams.lost.contains id then t.fails recMODULE_RESET
    else match t.stream? id with
      | none => t.fails accRANGE
      | some x =>
        if c.foreign x.tenant then t.fails accRIGHTS
        else if x.closing then t.fails accID_IN_USE
        else { code := 0, next := t.modStream id StreamCtx.close }))

/-! ### Jobs (R178, R453, R455 to R457) -/

/-- The job record is consistent (R455, R456): the model slot and package that it trains. -/
def State.jobModel (s : State) (v : List Byte) : Option (ModelSlot × Package) :=
  let f := recBits v
  let part := f 18 16
  let cores := f 31 24
  match kget? s.persist.parts part with
  | none => none
  | some r =>
    if r.tenant ≠ f 15 0 ∨ cores = 0 then none
    else
      match s.slotFor part (f 47 32) with
      | none => none
      | some (slot, p) =>
        match s.model? slot with
        | none => none
        | some m =>
          if p.training ∧ (coresOf cores).all (fun c => bit r.cores c && dieOf c == m.die) then some (m, p) else none

/-- The lowest job slot without a job that runs or holds memory. -/
def State.freeJobSlot (s : State) : Option Nat :=
  (List.range 64).find? (fun i => match kget? s.svc.jobs i with
    | none => true
    | some j => decide (3 ≤ j.state) && !j.grant)

/-- A job is taken: its state format is chosen and its first step is ready. -/
def State.submitJob (s : State) (v : List Byte) (slot : Nat) (p : Package) : State :=
  let f := recBits v
  let mode := kgetD s.persist.adapterState (f 18 16) 2
  let j : Job := { state := 2, tenant := f 15 0, part := f 18 16, cores := f 31 24, modelId := f 47 32, steps := f 95 64
                   peers := f 103 96, memBytes := f 191 128
                   narrow := mode == 1 || (mode == 2 && decide (f 191 128 < p.wideBytes)) }
  ({ s with svc := { s.svc with jobs := kset s.svc.jobs slot j } } : State).queueJob (slot + 1) j

/-- JOB_SUBMIT (R178, R455, R456, R698). -/
def execJobSubmit (s : State) : Host.Outcome State Fault Refusal :=
  .next (s.act 0x4010 1 (fun t c e =>
    let v := e.value
    let f := recBits v
    match firstBad [
      (f 23 19 != 0 || f 63 48 != 0 || f 127 104 != 0 || f 255 192 != 0, cmdRSVD),
      (f 95 64 == 0, accRANGE),
      (c.foreign (f 15 0), accRIGHTS),
      (t.aon.drain != 0, accBUSY)] with
    | some code => t.fails code
    | none =>
      match t.jobModel v with
      | none => t.fails accCONFIG
      | some (m, p) =>
        if !t.quotaHolds (f 18 16) m.die (f 191 128) then t.fails 0x300E
        else match t.freeJobSlot with
          | none => t.fails schJOB_FULL
          | some slot => { code := 0, next := t.submitJob v slot p, value := toLe 2 (slot + 1) }))

/-- A job is cancelled: its ready steps are gone, its rounds in flight yield without returning their steps, and its memory
grant is freed once none is left (R457). -/
def State.cancelJob (s : State) (id : Nat) : State :=
  let own (r : ReadyStep) : Bool := r.step.job && r.step.id == id
  let t := s.modCores (fun _ k => { k with
    ready := k.ready.filter (fun r => !own r)
    rounds := k.rounds.map (fun r => if r.steps.any own then { r with yielding := true, cancelled := true } else r) })
  let t := t.modJob id (fun j => { j with state := 4, grant := s.jobInFlight id })
  t.logFw 0x4002 0 [(16, id), (8, 4), (16, 0)]

/-- JOB_CANCEL (R457). -/
def execJobCancel (s : State) : Host.Outcome State Fault Refusal :=
  .next (s.act 0x4010 2 (fun t c e =>
    let id := leAt e.value 0 2
    match (if id = 0 then none else t.job? id) with
    | none => t.fails accRANGE
    | some j =>
      if c.foreign j.tenant then t.fails accRIGHTS
      else if j.state ≠ 1 ∧ j.state ≠ 2 then t.fails accRANGE
      else { code := 0, next := t.cancelJob id }))

/-! ### Engines, cores and dumps (R232, R521, R524) -/

/-- Engines of a mask return to service and their mismatch times are cleared. -/
def State.releaseEngines (s : State) (core mask : Nat) : State :=
  let t : State := { s with persist := { s.persist with
    quarantine := kmod s.persist.quarantine core 0 (fun m => m &&& (0xFFFF ^^^ mask)) } }
  let t := t.modCore core (fun k => { k with mismatch := k.mismatch.filter (fun q => !bit mask q.1) })
  t.commitPersist.checkOvercommit core

/-- ME_RELEASE (R231, R232). -/
def execMeRelease (s : State) : Host.Outcome State Fault Refusal :=
  .next (s.act 0x8013 0 (fun t _ e => { code := 0, next := t.releaseEngines (coreOf e.index) (leAt e.value 0 2) }))

/-- RESET_CORE: the operand is the service core that applies the request (R524). -/
def execResetCore (sc : Fin 4) (s : State) : Host.Outcome State Fault Refusal :=
  .next (s.act 0x6010 0 (fun t _ e =>
    let c := leAt e.value 0 1
    if 8 ≤ c then t.fails accRANGE
    else if t.recovering c then t.fails recIN_PROGRESS
    else { code := 0, next := t.requestReset c sc }))

/-- DUMP_RELEASE: a dump slot may be written again (R521, R534). -/
def execDumpRelease (s : State) : Host.Outcome State Fault Refusal :=
  .next (s.act 0x6021 0 (fun t _ e =>
    let n := leAt e.value 0 1
    if 16 ≤ n then t.fails accRANGE
    else { code := 0, next := t.modDump n (fun d => { d with locked := false }) }))

/-! ### Defaults (R545) -/

/-- RESTORE_DEFAULTS: a write of 0x5A while no partition exists. -/
def execRestoreDefaults (s : State) : Host.Outcome State Fault Refusal :=
  .next (s.act 0x1400 0 (fun t _ e =>
    if leAt e.value 0 1 ≠ 0x5A then t.fails accRANGE
    else if t.persist.parts ≠ [] then t.fails accBUSY
    else
      let u : State := { t with persist := t.persist.restored }
      { code := 0, next := if t.persist.timeSource = 0 then u else u.restartTime, commit := true }))

/-! ### SRTP keys (R601 to R603) -/

/-- An open or closing stream names an SRTP key slot. -/
def State.srtpBusy (s : State) (slot : Nat) : Bool := s.streams.ctx.any (fun q => q.2.srtp && q.2.keySlot == slot)

/-- A key slot's keys written: at once, or at the next chunk of the stream that names it. -/
def State.putSrtp (s : State) (slot tenant : Nat) (keys : List Byte) : State :=
  let k := match kget? s.net.srtp slot with
    | none => { owner := tenant, keys := keys : SrtpSlot }
    | some k => if s.srtpBusy slot then { k with next := some keys } else { k with keys := keys, next := none, old := none }
  { s with net := { s.net with srtp := kset s.net.srtp slot k } }

/-- SRTP_KEY_WRITE (R601 to R603). -/
def execSrtpKeyWrite (s : State) : Host.Outcome State Fault Refusal :=
  .next (s.act 0x9002 0 (fun t c e =>
    let slot := e.sub - 1
    let v := e.value
    if !zeroAt v 56 8 then t.fails cmdRSVD
    else if zeroAt v 0 56 then
      (if (kget? t.net.srtp slot).isNone then { code := 0, next := t }
       else if t.srtpBusy slot then t.fails accBUSY
       else { code := 0, next := { t with net := { t.net with srtp := kdel t.net.srtp slot } } })
    else if c.role ≠ 2 then t.fails accRIGHTS
    else { code := 0, next := t.putSrtp slot c.tenant (v.take 56) }))

/-! ### Time and alerts (R612, R678) -/

/-- PPS_EPOCH_WRITE: the whole second that the next rising edge of PPS_IN marks (R612, R629). -/
def execPpsEpochWrite (s : State) : Host.Outcome State Fault Refusal :=
  .next (s.act 0x9022 0 (fun t _ e =>
    let n := leAt e.value 0 8
    if n % 1000000000 ≠ 0 then t.fails accRANGE
    else { code := 0, next := { t with time := { t.time with ppsNext := some n, ppsArmed := true } } }))

/-- ALERT_CLEAR: the bits of a mask are cleared (R677, R678). -/
def execAlertClear (s : State) : Host.Outcome State Fault Refusal :=
  .next (s.act 0xA021 0 (fun t _ e =>
    { code := 0, next := { t with aon := { t.aon with alert := t.aon.alert &&& ~~~(BitVec.ofNat 32 (leAt e.value 0 4)) } } }))

/-! ### The drain (R698 to R701) -/

/-- A drain begins, or its grace period is replaced: every job is cancelled. -/
def State.startDrain (s : State) (ms : Nat) : State :=
  let t : State := { s with aon := { s.aon with drain := 1, drainEnd := some (s.aon.clock + ms * 1000000), graceOver := false } }
  let live := (s.svc.jobs.filter (fun q => q.2.state == 1 || q.2.state == 2)).map (fun q => q.1 + 1)
  (live.foldl State.cancelJob t).drainCheck

/-- POWER_DRAIN: a grace period in ms, or 0 to end the drain. -/
def execPowerDrain (s : State) : Host.Outcome State Fault Refusal :=
  .next (s.act 0xA040 0 (fun t _ e =>
    let n := leAt e.value 0 4
    if n = 0 then { code := 0, next := { t with aon := { t.aon with drain := 0, drainEnd := none, graceOver := false } } }
    else if n < 1000 ∨ 600000 < n then t.fails accRANGE
    else { code := 0, next := t.startDrain n }))

/-- DRAIN_GRACE_EXPIRY: the grace period has elapsed, and every stream still open is closed (R699). -/
def execDrainGraceExpiry (s : State) : Host.Outcome State Fault Refusal :=
  .next (match s.aon.drainEnd with
  | none => s
  | some e =>
    if s.aon.drain ≠ 1 ∨ s.aon.graceOver ∨ s.aon.clock < e then s
    else
      let t : State := { s with
        aon := { s.aon with graceOver := true }
        streams := { s.streams with ctx := s.streams.ctx.map (fun q => (q.1, if q.2.closing then q.2 else q.2.close)) } }
      t.drainCheck)

/-! ### Pool buffers (R375, R376, R593, R594) -/

/-- The first frame of a class in a port's receive FIFO gets its buffer. -/
def State.grantFrame (s : State) (port : Nat) (media : Bool) : State :=
  if !s.net.poolFits (if media then port else 2 + port) 1 then s
  else
    match takeFirst (fun f => f.media == media) (s.port port).fifo with
    | none => s
    | some (f, l) =>
      let t := s.modPort port (fun p => { p with fifo := l })
      match f.pkt with
      | .udp src sport dst _ bs =>
        if media then t.takeMedia port dst bs f.authOk f.since
        else if t.clotha.dictReady then t.receive (.udp port src sport) bs f.authOk
        else t
      | _ => t

/-- POOL_BUFFER_GRANT: a channel of the hub packet pool, or a stream channel that waits for a buffer of a core's pool ring, is
given one as far as the reserves and the shared buffers allow. Link receive holds its buffers only within a step (R375,
R376, R593, R594). -/
def execPoolBufferGrant (pool : PoolSel) (s : State) : Host.Outcome State Fault Refusal :=
  .next (match pool with
  | .hub chan =>
    let n := chan.val
    if n < 2 then s.grantFrame n true
    else if n < 4 then s.grantFrame (n - 2) false
    else if n < 6 then (s.grantEgress (n - 4) false).grantEgress (n - 4) true
    else s
  | .core c chan => State.after s (s.grantPool c chan) c)

end Sys2Proof.Machine
end

