-- ==== Sys2Proof/Machine/Bell.lean ====
section
/-! DEFINITION. The Bell operand expander: codebook loads and extension reads (R160, R297, R304, R308 to R314, R317). -/

namespace Sys2Proof.Machine

/-- The slot that a load takes: a free one, of two the one loaded less recently (R309, R310). -/
def BellState.freeSlot (b : BellState) : Option Nat :=
  let f0 := b.slot0.tagCount == 0
  let f1 := b.slot1.tagCount == 0
  if f0 && f1 then some (if b.slot1.loadedAt < b.slot0.loadedAt then 1 else 0)
  else if f0 then some 0 else if f1 then some 1 else none

/-- The loader stalls from now, or has stalled. -/
def State.loaderStalls (s : State) (core e : Nat) : State :=
  s.modEngine core e (fun g => { g with bell := { g.bell with stallSince := some (g.bell.stallSince.getD s.now) } })

/-- The loader goes on; the cycles of its stall are counted (R324, log entry 128). -/
def BellState.loaderGoes (b : BellState) (now : Nat) : BellState :=
  match b.stallSince with
  | none => b
  | some t0 => { b with stallSince := none, stats := lbump b.stats 4 ((now - t0) * 3 / 2) }

/-- A load into a slot begins: its VERSION inverts, and its identity can be matched again once the load is complete (R309). -/
def BellState.beginLoad (b : BellState) (i : Nat) (w : WorkItem) : BellState :=
  { (b.putSlot i { b.slot i with ident := none, version := !(b.slot i).version, tagCount := 0 }) with loading := some (i, w) }

/-- CODEBOOK_LOAD_START: the oldest item that waits for its codebook has a free slot, whose VERSION inverts; with none, or
while a ring slot of the codebook's buffer is empty, the loader stalls, and the item that waits takes a slot's codebook if
another load has brought it (R308 to R310, R356). -/
def execCodebookLoadStart (core : Fin 8) (engine : Fin 16) (s : State) : Host.Outcome State Fault Refusal :=
  let b := (s.engine core engine).bell
  .next (if s.recovering core ∨ b.loading.isSome then s
  else
    match b.waiting with
    | [] => s
    | w :: rest =>
      match s.cmdOf w with
      | none => s.modEngine core engine (fun g => { g with bell := { g.bell with waiting := rest } })
      | some c =>
        let put (t : State) : State := t.modEngine core engine (fun g => { g with bell := { g.bell with waiting := rest } })
        let id := s.codebookIdent c w
        let d := c.desc w.stage
        let big := cbBig (s.bufRead w.home (c.map w.stage (dCbH d)) 0 8)
        if b.holds 0 id || b.holds 1 id then State.after s ((put s).bellQueue c core engine w).1 core
        else if !s.slotsFull w.home (c.ringSlots w.stage (c.bookRanges w.stage big)) then
          State.after s (s.loaderStalls core engine) core
        else
          match b.freeSlot with
          | none => State.after s (s.loaderStalls core engine) core
          | some i =>
            let t := s.modEngine core engine (fun g =>
              { g with bell := { (g.bell.loaderGoes s.now).beginLoad i w with waiting := rest } })
            State.after s t core)

/-- CODEBOOK_LOAD_DONE: the slot holds the codebook with the VERSION of its load, and the item is tagged; a header that does
not suit the operand rejects the command (R160, R297, R308, R309, R317, R329). -/
def execCodebookLoadDone (me : EngineId) (errs : BoreErrs) (s : State) : Host.Outcome State Fault Refusal :=
  let b := (s.engine me.core me.engine).bell
  .next (if s.recovering me.core then s
  else
    match b.loading with
    | none => s
    | some (i, w) =>
      match s.cmdOf w with
      | none => s.modEngine me.core me.engine (fun g => { g with bell := { g.bell with loading := none } })
      | some c =>
        let d := c.desc w.stage
        let h := c.map w.stage (dCbH d)
        let head := s.bufRead w.home h 0 8
        let n := cbBytes (dBFmt d) (cbBig head)
        let s0 := s
        let s := s.boreFinds w.home (c.mapped w.stage (c.bookRanges w.stage (cbBig head))) errs
        if cbBad (dBFmt d) head then
          let t := s.modEngine me.core me.engine (fun g => { g with bell := { g.bell with loading := none } })
          let t := t.logEvent 0x3005 numFORMAT.toNat 0x03 (engNo me.core me.engine) [(16, cbId head)]
          State.after s0 (t.rejectRunning w.home c numFORMAT) me.core
        else
          let t := s.modEngine me.core me.engine (fun g =>
            let slot : BellSlot := { ident := some (s.codebookIdent c w), version := (g.bell.slot i).version, tagCount := 0
                                     record := s.bufRead w.home h 0 n
                                     loadedAt := 1 + Nat.max g.bell.slot0.loadedAt g.bell.slot1.loadedAt
                                     poison := s.bufPoisoned w.home h 0 n }
            { g with bell := { (g.bell.putSlot i slot) with loading := none, stats := lbump g.bell.stats 3 1 } })
          let t := if (t.engine me.core me.engine).ahead.contains w then (t.bellQueue c me.core me.engine w).1 else t
          State.after s0 (t.progress me.core (32 + me.engine.val)) me.core)

/-- EXTENSION_READ_RETURN: the oldest outstanding extension line of the running item returns, through the Windchest and its
controller, with the bytes it has then; its transfer tag is free, and the Bell asks for what it may ask for next (R288, R302,
R304, R306, R317, R464, R466, R475, R476). -/
def execExtensionReadReturn (core : Fin 8) (engine : Fin 16) (ecc : EccResult) (s : State) : Host.Outcome State Fault Refusal :=
  let g := s.engine core engine
  .next (if s.recovering core then s
  else
    match g.running, g.bell.extReads with
    | some (w, _), (_, a) :: rest =>
      match s.cmdOf w with
      | none => s
      | some c =>
        let hit := s.wcHolds a
        let owned := s.ownedBy c.part a 64
        let t := if owned then s.wcReads a 64 else s.rangeEvent c.part a
        let t := if !owned || hit then t else t.hbmChecked a ecc
        let line := t.hbmFetch c.part a 64
        let t := t.modEngine core engine (fun g => { g with bell := { g.bell with
          extReads := rest, extDone := g.bell.extDone ++ [(a, line.1, line.2)], stats := lbump g.bell.stats 2 1 } })
        let t := t.freeTags core 1
        let t := t.issueExt core engine (t.extRows c core engine w)
        State.after s (t.progress core (32 + engine.val)) core
    | _, _ => s)

end Sys2Proof.Machine
end

