-- ==== Sys2Proof/Machine/Mgmt.lean ====
section
/-! DEFINITION. The management port and the telemetry maps (R564 to R567, R574 to R579). -/

namespace Sys2Proof.Machine

/-! ### The register map (R565, R566) -/

/-- STATUS (R566). -/
def State.mgmtStatus (s : State) : Nat :=
  b2n s.aon.hubUp + 2 * b2n s.clotha.dictReady + 4 * b2n s.clotha.reqBusy + 8 * b2n s.clotha.respValid + 16 * b2n s.pinAlert
    + 32 * b2n s.pinFault + 2 ^ 16 * (s.clotha.respBytes % 2 ^ 16) + 2 ^ 32 * (setMask s.clotha.fresh % 2 ^ 16)

/-- What an address of the register map reads as: zero where no block is listed, or only written. -/
def State.mgmtByte (s : State) (a : Nat) : Byte :=
  if a < 0x8 then BitVec.ofNat 8 (s.mgmtStatus / 256 ^ a)
  else if a = 0x10 then BitVec.ofNat 8 (strapsByte s.aon.straps)
  else if 0x1000 ≤ a ∧ a < 0x2000 then rdByte s.clotha.mailbox (a - 0x1000)
  else if 0x2000 ≤ a ∧ a < 0x3000 then s.clotha.respBox.getD (a - 0x2000) 0
  else if 0x10000 ≤ a ∧ a < 0x20000 then s.clotha.bulk.getD (a - 0x10000) 0
  else if 0x20000 ≤ a ∧ a < 0x30000 then (kgetD s.clotha.windows ((a - 0x20000) / 0x1000) []).getD (a % 0x1000) 0
  else 0

/-- Telemetry windows that a read touches. -/
def windowsRead (a n : Nat) : List Nat :=
  (List.range 16).filter (fun m => decide (a < 0x20000 + (m + 1) * 0x1000) && decide (0x20000 + m * 0x1000 < a + n))

/-- A read transaction: the bytes are driven, and the windows that it touches are no longer fresh. -/
def State.mgmtRead (s : State) (a n : Nat) : State :=
  { s with clotha := { s.clotha with
    ocRead := (List.range n).map (fun i => s.mgmtByte ((a + i) % 2 ^ 32)), fresh := (windowsRead a n).foldl ndel s.clotha.fresh } }

/-- MGMT_READ: command 0xEE (R564 to R566, R579). -/
def execMgmtRead (addr : Word32) (len : Nat) (s : State) : Host.Outcome State Fault Refusal :=
  .next (if s.aon.hubUp then s.mgmtRead addr.toNat len else s)

/-- TELEMETRY_WINDOW_READ: command 0xEE over the whole window of a map (R565, R579). -/
def execTelemetryWindowRead (map : Fin 16) (s : State) : Host.Outcome State Fault Refusal :=
  .next (if s.aon.hubUp then s.mgmtRead (0x20000 + map.val * 0x1000) 0x1000 else s)

/-- Bytes that a write puts into the request mailbox. -/
def mailboxPut (m : Mem) (a : Nat) : List Byte → Mem
  | [] => m
  | b :: bs => mailboxPut (if 0x1000 ≤ a ∧ a < 0x2000 then wrByte m (a - 0x1000) b else m) (a + 1) bs

/-- MGMT_WRITE: command 0x12 to the request mailbox; a write to another block is ignored. A write of CONTROL is REQ_GO or
RESP_ACK (R564, R565, R567). -/
def execMgmtWrite (addr : Word32) (bytes : List Byte) (s : State) : Host.Outcome State Fault Refusal :=
  .next (if s.aon.hubUp then
    { s with clotha := { s.clotha with mailbox := mailboxPut s.clotha.mailbox addr.toNat bytes, ocRead := [] } }
  else s)

/-- READ_STATUS: command 0x05 drives the low byte of STATUS (R564). -/
def execReadStatus (s : State) : Host.Outcome State Fault Refusal :=
  .next (if s.aon.hubUp then { s with clotha := { s.clotha with ocRead := [s.mgmtByte 0] } } else s)

/-- WRITE_ENABLE: command 0x06 is accepted and ignored (R564). -/
def execWriteEnable (s : State) : Host.Outcome State Fault Refusal :=
  .next (if s.aon.hubUp then { s with clotha := { s.clotha with ocRead := [] } } else s)

/-- MGMT_OTHER_COMMAND: every other command is ignored, and OCT_DQ stays high-impedance (R564). -/
def execMgmtOtherCommand (_command _extension : Byte) (s : State) : Host.Outcome State Fault Refusal :=
  .next (if s.aon.hubUp then { s with clotha := { s.clotha with ocRead := [] } } else s)

/-! ### Requests through the mailbox (R567, R574) -/

/-- The message in the request mailbox: a header, the body that it states, and a tag. -/
def Clotha.mailMessage (c : Clotha) : List Byte :=
  rdBytes c.mailbox 0 (Nat.min 4096 (96 + ofLe (rdBytes c.mailbox 20 2)))

/-- REQ_GO: the mailbox is copied and the request taken; it is ignored and counted while a request is busy or a response is
valid, and not taken before the service firmware answers (R554, R567, R574, R580). -/
def execReqGo (tagOk : Bool) (s : State) : Host.Outcome State Fault Refusal :=
  .next (if !s.aon.hubUp ∨ !s.clotha.dictReady then s
  else if s.clotha.reqBusy ∨ s.clotha.respValid then s.countComm 2 5
  else
    let t : State := { s with clotha := { s.clotha with reqBusy := true } }
    t.receive .mgmt s.clotha.mailMessage tagOk)

/-- RESP_ACK: RESP_VALID is cleared, and the bulk window need not keep its data (R567). -/
def execRespAck (s : State) : Host.Outcome State Fault Refusal :=
  .next (if s.aon.hubUp then { s with clotha := { s.clotha with respValid := false } } else s)

/-! ### Telemetry maps (R575 to R579) -/

/-- A map's sampling state changed. -/
def State.modTel (s : State) (map : Nat) (f : TelState → TelState) : State :=
  { s with clotha := { s.clotha with tel := kmod s.clotha.tel map {} f } }

/-- A telemetry message leaves its port, or is kept while the port cannot send. -/
def State.sendTel (s : State) (map : Nat) (m : Msg) : State :=
  match m.via with
  | .mgmt =>
    let (d, t) := s.draw
    let bs := m.head ++ (List.range 64).map (Config.tagByte d)
    ({ t with clotha := { t.clotha with windows := kset t.clotha.windows map bs, fresh := nins t.clotha.fresh map } } : State).modTel map
      (fun q => { q with sent := q.sent + 1, unsent := none })
  | .udp port addr _ =>
    if (s.port port).up ∧ (s.port port).holdUntil.isNone then
      (s.sendIp port addr (.clotha m)).modTel map (fun q => { q with sent := q.sent + 1, unsent := none })
    else s.modTel map (fun q => { q with unsent := some m })

/-- A sample is skipped: it takes its number, so that a gap shows it (R577, R578). -/
def State.skipTel (s : State) (map : Nat) : State :=
  (s.modTel map (fun q => { q with counter := q.counter + 1, skipped := q.skipped + 1 })).logFw 0x1004 0 [(8, map)]

/-- Where a map's messages go. -/
def TelMap.via (m : TelMap) : Via := if m.transport = 2 then .mgmt else .udp m.transport m.destAddr m.destPort

/-- A map's objects are sampled and its message sent, for an instant that is a multiple of its period. -/
def State.sampleTel (s : State) (map : Nat) (m : TelMap) (instant : Nat) (k : KeyRec) : State :=
  let n := (kgetD s.clotha.tel map {}).counter + 1
  let entries := (m.addrs.take m.count).map (fun a => ({ index := a.1, sub := a.2, typ := 0, value := [] } : Entry))
  let msg : Msg := { via := m.via, opcode := 0x80, keyId := m.keyId.toNat, counter := n, reqId := map, code := 0, time := instant
                     body := s.readBody { role := k.role, tenant := k.tenant } entries, bulk := [], tagged := true }
  (s.modTel map (fun q => { q with counter := n })).sendTel map msg

/-- TELEMETRY_SAMPLE: at a multiple of an enabled map's period its objects are read and its message is sent or written to its
window; the sample is skipped while the previous message stands unsent, or while nothing can tag it (R574 to R579, R703). -/
def execTelemetrySample (map : Fin 16) (s : State) : Host.Outcome State Fault Refusal :=
  let m := kgetD s.persist.telMaps map {}
  let period := Nat.max 1 (m.periodUs * 1000)
  let instant := s.now / period * period
  .next (if !m.enable ∨ !s.time.running ∨ !s.hbmUp ∨ (kgetD s.clotha.tel map {}).lastAt = some instant then s
  else
    let t := s.modTel map (fun q => { q with lastAt := some instant })
    let t := match (kgetD t.clotha.tel map {}).unsent with
      | none => t
      | some msg => t.sendTel map msg
    match t.persist.keys.find? (fun q => q.2.keyId == m.keyId.toNat) with
    | none => t.skipTel map
    | some (_, k) =>
      if !t.clotha.dictReady ∨ (kgetD t.clotha.tel map {}).unsent.isSome then t.skipTel map
      else t.sampleTel map m instant k)

end Sys2Proof.Machine
end

