-- ==== Sys2Proof/Machine/Bulk.lean ====
section
/-! DEFINITION. Bulk reads of dumps, the event log and staged images, and bulk writes of images and packages (R518, R519, R560,
R561, R647, R653). -/

namespace Sys2Proof.Machine

/-! ### What the regions hold -/

/-- An event record (R497, R584). -/
def EventRec.bytes (e : EventRec) : List Byte :=
  toLe 32 (packFields ([(64, e.time), (16, e.event.toNat), (16, e.code.toNat), (8, e.kind.toNat), (16, e.index), (1, b2n e.late),
    (7, 0)] ++ e.detail.map (fun d => (d.1, (d.2 % 2 ^ d.1).toNat))))

/-- A queue-pointer record (R518). -/
def QpRec.bytes (q : QpRec) : List Byte :=
  toLe 16 (packFields [(16, q.ctxId), (16, q.head), (16, q.tail), (16, q.cringWr), (16, q.cringRd), (16, q.seqNext), (3, q.state),
    (5, 0), (8, q.hold)])

/-- A progress-counter record at the instant of the sample (R518). -/
def Progress.bytes (p : Progress) (at_ : Nat) : List Byte :=
  toLe 8 (packFields [(32, p.count), (31, Nat.min (2 ^ 31 - 1) ((at_ - p.last) / 1000)), (1, b2n p.since.isSome)])

/-- A handle-table entry (R338). -/
def HandleEntry.bytes32 (h : HandleEntry) : List Byte :=
  toLe 8 h.w0.toNat ++ toLe 8 (h.w1.toNat + 2 ^ 16 * h.wrPtr) ++ toLe 8 h.full.toNat ++ toLe 8 h.w3.toNat

/-- A dump slot (R518). -/
def Dump.image (d : Dump) : List Byte :=
  let qp (i : Nat) : List Byte := match kget? d.qps i with
    | none => List.replicate 16 0
    | some q => q.bytes
  let pc (i : Nat) : List Byte := match kget? d.pcs i with
    | none => List.replicate 8 0
    | some p => p.bytes d.detect
  d.header ++ ((List.range 16).map qp).flatten ++ List.replicate 192 0 ++ ((List.range 192).map pc).flatten
    ++ List.replicate 6144 0 ++ ((List.range 256).map (fun i => (kgetD d.hts i {}).bytes32)).flatten
    ++ ((List.range 32).map (fun b => rdBytes d.banks (b * 131072) 4096)).flatten

/-- Bytes of a dump slot. -/
def dumpBytes : Nat := 147456

/-- Bytes of an image slot: a header and the longest body of its kind (R643). -/
def slotBytes (slot : Nat) : Nat := 512 + (if slot < 2 then 458752 else 67108864)

/-- The record from which a read of the event log starts, and WRAPPED (R561). -/
def Recovery.logStart (r : Recovery) (off : Nat) : Nat × Bool :=
  let oldest := Nat.max r.firstRecord (r.eventHead - logRecords)
  if off + logRecords < r.eventHead ∨ off < r.firstRecord then (oldest, true) else (off, false)

/-- Bytes of the event log from a record number. -/
def Recovery.logBytes (r : Recovery) (start n : Nat) : List Byte :=
  let count := Nat.min (cdiv n 32) (r.eventHead - start)
  (((List.range count).map (fun i => match r.log.find? (fun q => q.1 == start + i) with
    | none => List.replicate 32 0
    | some q => q.2.bytes)).flatten).take n

/-! ### Requests -/

/-- A bulk header of a response. -/
def Bulk.head (b : Bulk) (len off : Nat) (wrapped : Bool) : List Byte :=
  [BitVec.ofNat 8 b.region] ++ toLe 2 b.selector ++ [BitVec.ofNat 8 (b2n wrapped)] ++ toLe 4 len ++ toLe 8 off

/-- A bulk read answered: the data follow the header over UDP, and lie in the bulk window of the management port (R549,
R567). -/
def State.answerRead (s : State) (r : Req) (b : Bulk) (off : Nat) (wrapped : Bool) (data : List Byte) : State :=
  let h := b.head data.length off wrapped
  if r.via = .mgmt then s.respond r 0 h data
  else s.respond r 0 (h ++ slice data 0 (cdiv data.length 8 * 8)) []

/-- A bulk request that fails. -/
def State.bulkFails (s : State) (r : Req) (b : Bulk) (code : Word16) : State := s.respond r code (b.head 0 b.offset false) []

/-- The caller is the operator or the baseboard controller. -/
def Caller.opOrBoard (c : Caller) : Bool := c.role == 1 || c.role == 3

/-- BULK_READ_DUMP (R518, R519, R560). -/
def execBulkReadDump (s : State) : Host.Outcome State Fault Refusal :=
  .next (s.apply (.bulk false 1) (fun t r c =>
    let b := bulkOf r.body
    if !c.opOrBoard then t.bulkFails r b accRIGHTS
    else
      let n := Nat.min b.length (dumpBytes - b.offset)
      t.answerRead r b b.offset false (slice (kgetD t.recov.dumps b.selector {}).image b.offset n)))

/-- BULK_READ_EVENT_LOG (R560, R561). -/
def execBulkReadEventLog (s : State) : Host.Outcome State Fault Refusal :=
  .next (s.apply (.bulk false 2) (fun t r c =>
    let b := bulkOf r.body
    if !c.opOrBoard then t.bulkFails r b accRIGHTS
    else
      let q := t.recov.logStart b.offset
      t.answerRead r b q.1 q.2 (t.recov.logBytes q.1 b.length)))

/-- BULK_READ_FIRMWARE_STAGING (R560, R647). -/
def execBulkReadFirmwareStaging (s : State) : Host.Outcome State Fault Refusal :=
  .next (s.apply (.bulk false 3) (fun t r c =>
    let b := bulkOf r.body
    if !c.opOrBoard then t.bulkFails r b accRIGHTS
    else
      let n := Nat.min b.length (slotBytes b.selector - b.offset)
      t.answerRead r b b.offset false ((t.persist.fwSlot b.selector).bytesAt b.selector b.offset n)))

/-- An image slot after bytes have been staged: the first write discards what it held (R647). -/
def FwSlot.stage (f : FwSlot) (off : Nat) (bs : List Byte) : FwSlot :=
  { state := 1, factory := false, bytes := wrBytes (if f.state = 1 then f.bytes else []) off bs }

/-- BULK_WRITE_FIRMWARE_STAGING (R560, R647). -/
def execBulkWriteFirmwareStaging (s : State) : Host.Outcome State Fault Refusal :=
  .next (s.apply (.bulk true 3) (fun t r c =>
    let b := bulkOf r.body
    let f := t.persist.fwSlot b.selector
    if !c.opOrBoard then t.bulkFails r b accRIGHTS
    else if slotBytes b.selector < b.offset + b.length then t.bulkFails r b memBOUNDS
    else if f.state = 3 then t.bulkFails r b accBUSY
    else
      let slots := kset t.persist.fwSlots b.selector (f.stage b.offset ((r.body.drop 16).take b.length))
      (({ t with persist := { t.persist with fwSlots := slots } } : State).commitPersist).respond r 0 (b.head b.length b.offset false) []))

/-- Bytes of the longest manifest (R651). -/
def maxManifest : Nat := 512 + 64 * 262144 + 132

/-- A model slot after bytes of its staging region have been written. -/
def ModelSlot.stage (m : ModelSlot) (off : Nat) (bs : List Byte) (seg : Option SegmentDone) : ModelSlot :=
  let segs := match seg with
    | none => m.segs
    | some g => kset m.segs g.index g.ok
  { m with
    manifest := wrBytes m.manifest off (bs.take (maxManifest - off)), covered := m.covered ++ [(off, bs.length)], segs := segs }

/-- The plaintext of a segment whose tag matches is written into its slot's allocation, under the package engine's grant (R631,
R653). -/
def State.placeSegment (s : State) (part : Nat) : Option SegmentDone → State
  | none => s
  | some g =>
    if g.ok ∧ s.ownedBy part g.addr g.plain.length ∧ s.granted .packageEngine g.addr g.plain.length true then s.hbmWrite g.addr g.plain false
    else s

/-- BULK_WRITE_PACKAGE_STAGING: bytes of a manifest or of segments; the operand is the segment that the write completes, with
the outcome of the package engine's checks (R560, R653). -/
def execBulkWritePackageStaging (segment : Option SegmentDone) (s : State) : Host.Outcome State Fault Refusal :=
  .next (s.apply (.bulk true 4) (fun t r c =>
    let b := bulkOf r.body
    match t.model? b.selector with
    | none => t.bulkFails r b (if c.role = 1 ∨ c.role = 2 then accBUSY else accRIGHTS)
    | some m =>
      if (c.role ≠ 1 ∧ c.role ≠ 2) ∨ (c.role = 2 ∧ t.partTenant m.part ≠ some c.tenant) then t.bulkFails r b accRIGHTS
      else if m.state ≠ 1 then t.bulkFails r b accBUSY
      else
        let u := t.modModel b.selector (·.stage b.offset ((r.body.drop 16).take b.length) segment)
        (u.placeSegment m.part segment).respond r 0 (b.head b.length b.offset false) []))

end Sys2Proof.Machine
end

