-- ==== Sys2Proof/Machine/Partitions.lean ====
section
/-! DEFINITION. Partitions and model packages: creation, readiness and destruction, staging, loading and removal (R59, R75, R167,
R343, R428 to R435, R445, R461, R463, R465, R651 to R655, R698, R705, R706, R711). -/

namespace Sys2Proof.Machine

/-! ### Execution contexts that firmware creates and destroys (R434 to R436, R448) -/

/-- 0xF001: a choice of the service firmware that its rules forbid (R583). -/
def vndINTERNAL : Word16 := 0xF001

/-- The addresses of a context that firmware creates lie in some extents, and its queue and rings have a legal size (R436). -/
def CtxInitOk (l : List (Nat × Nat)) (i : CtxInit) : Bool :=
  decide (i.queueLog2 ≤ 8) && decide (i.cringLog2 ≤ 8) && i.queueBase % 4096 == 0 && i.cringBase % 4096 == 0
    && inExtents l i.queueBase (64 * 2 ^ (i.queueLog2 + 4)) && inExtents l i.cringBase (32 * 2 ^ (i.cringLog2 + 4))
    && inExtents l i.inboxBase 4096 && decide (i.semsetCount < 65536) && decide (i.prep < 4)

/-- New contexts have identifiers that no context has. -/
def State.idsFree (s : State) (l : List CtxInit) : Bool :=
  l.all (fun i => decide (i.ctxId < 0xFFFF) && (s.ctx? i.ctxId).isNone)
    && decide ((l.map (·.ctxId)).Nodup)

/-- The service cores' grants for a context: its queue, completion ring and round inbox (R631). -/
def ctxGrants (part : Nat) (i : CtxInit) : List Grant :=
  [{ use := .queue, part := part, key := i.ctxId, base := i.queueBase, len := 64 * 2 ^ (i.queueLog2 + 4) },
   { use := .completionRing, part := part, key := i.ctxId, base := i.cringBase, len := 32 * 2 ^ (i.cringLog2 + 4) },
   { use := .inbox, part := part, key := i.ctxId, base := i.inboxBase, len := 4096 }]

/-- A grant serves a context. -/
def Grant.ofCtx (g : Grant) (id : Nat) : Bool := (g.use == .queue || g.use == .completionRing || g.use == .inbox) && g.key == id

/-- A grant serves a model slot. -/
def Grant.ofSlot (g : Grant) (slot : Nat) : Bool := (g.use == .control || g.use == .allocation) && g.key == slot

/-- A context is created with its grants; a pinned one takes a free slot of the context store. -/
def State.addCtx (s : State) (part : Nat) (slot : Option Nat) (i : CtxInit) : State :=
  let t := ({ s with ctxs := kset s.ctxs i.ctxId (ctxImage i i.core part slot) } : State).install (ctxGrants part i)
  match (if i.pin then (t.core i.core).freeSlot else none) with
  | none => t
  | some n => t.modCore i.core (fun k => { k with slots := kset k.slots n i.ctxId })

/-- A context is destroyed. -/
def State.dropCtx (s : State) (id core : Nat) : State :=
  let t := s.quietCtx id core
  let t := t.modCore core (fun k => { k with
    slots := k.slots.filter (fun q => q.2 != id), swaps := k.swaps.filter (fun w => w.1 != id)
    rounds := k.rounds.filter (fun r => r.ctx != id) })
  ({ t with ctxs := kdel t.ctxs id } : State).uninstall (·.ofCtx id)

/-- The contexts that a test names are destroyed. -/
def State.dropCtxs (s : State) (p : Ctx → Bool) : State :=
  (s.ctxs.filter (fun q => p q.2)).foldl (fun t q => t.dropCtx q.1 q.2.core) s

/-! ### Partition creation (R428 to R430, R445) -/

/-- A creation record. -/
def partRecOf (v : List Byte) (now : Nat) (ch : PartChoice) : PartRec :=
  let f := recBits v
  { cores := f 15 8, tenant := f 31 16, quota := [f 39 32, f 47 40], ways := [f 63 48, f 79 64], prepPerCore := f 81 80
    ctxPerCore := f 105 96, createdNs := now, releaseRing := ch.releaseRing, linkRing := ch.linkRing }

/-- Cores of a mask on a die. -/
def coresOnDie (mask d : Nat) : List Nat := (coresOf mask).filter (fun c => dieOf c == d)

/-- Test 3 of R429: the shares of dies, cores and ways. -/
def Persist.sharesOk (p : Persist) (r : PartRec) : Bool :=
  let others := p.parts.map Prod.snd
  (List.range 2).all (fun d =>
    ((coresOnDie r.cores d != []) || (r.quota.getD d 0 == 0 && r.ways.getD d 0 == 0))
      && others.all (fun o => o.ways.getD d 0 &&& r.ways.getD d 0 == 0))
    && (coresOf r.cores).all (fun c =>
      let on := others.filter (fun o => bit o.cores c)
      decide (on.length < 4) && decide (sumNat (on.map (fun o => o.prepPerCore + 1)) + r.prepPerCore + 1 ≤ 4)
        && decide (sumNat (on.map (·.ctxPerCore)) + r.ctxPerCore ≤ 1024))

/-- Test 4 of R429: some partition on the cores has an open stream, a job or a command in flight, on these cores or on another. -/
def State.coresBusy (s : State) (mask : Nat) : Bool :=
  let ps := (s.persist.parts.filter (fun q => q.2.cores &&& mask != 0)).map Prod.fst
  s.streams.ctx.any (fun q => ps.contains q.2.part)
    || s.svc.jobs.any (fun q => ps.contains q.2.part && (q.2.state == 1 || q.2.state == 2 || q.2.grant))
    || (List.range 8).any (fun c => (s.core c).cmds.any (fun m => !m.isWait && (s.ctx? m.ctx).any (fun x => ps.contains x.part)))

/-- Test 5 of R429: the quotas fit the partition space of the dies. -/
def Persist.spaceOk (p : Persist) (r : PartRec) : Bool :=
  (List.range 2).all (fun d =>
    decide (sumNat (p.parts.map (fun q => q.2.quota.getD d 0)) + r.quota.getD d 0 ≤ 140))

/-- Prep cores of a core that serve no partition. -/
def State.prepFree (s : State) (core prep : Nat) : Bool := decide (prep < 4) && kgetD (s.core core).preps prep 0xFF == 0xFF

/-- Firmware's choices for a partition that holds some extents obey R425, R436, R445, R491 and R625. -/
def State.choiceOk (s : State) (r : PartRec) (ch : PartChoice) (ext : List (Nat × Nat)) : Bool :=
  let cores := coresOf r.cores
  cores.all (fun c =>
      (ch.sysCtxs.filter (fun i => i.core == c)).length == 1
        && (ch.preps.filter (fun q => q.1 == c)).length == r.prepPerCore + 1
        && (ch.semRange.filter (fun q => q.1 == c)).length == 1)
    && ch.sysCtxs.all (fun i => cores.contains i.core && i.cls == 2 && i.pin && i.tenant == 0 && CtxInitOk ext i)
    && s.idsFree ch.sysCtxs && decide (ch.preps.Nodup)
    && ch.preps.all (fun q => cores.contains q.1 && s.prepFree q.1 q.2)
    && ch.semRange.all (fun q => cores.contains q.1 && decide (q.2.1 + q.2.2 ≤ 4096)
      && ((s.core q.1).sems.ranges.all (fun o => decide (o.2.1 + o.2.2 ≤ q.2.1) || decide (q.2.1 + q.2.2 ≤ o.2.1))))
    && inExtents ext ch.releaseRing 65536 && inExtents ext ch.linkRing 32768

/-- The extents that firmware chose for a new partition are free and make up its quotas (R463). -/
def Persist.extentsOk (p : Persist) (r : PartRec) (l : List (Nat × Nat)) : Bool :=
  decide (l.Nodup) && l.all (fun q => decide (q.1 < 2) && decide (q.2 < 144) && p.extentOwner q.1 q.2 == 0xFF)
    && (List.range 2).all (fun d => (l.filter (fun q => q.1 == d)).length == r.quota.getD d 0)

/-- A core's handle table is cleared, with its shadow and the pool buffers of its rings (R343). -/
def Core.clearHandles (k : Core) : Core := { k with handles := [], shadow := [], poolUsed := [] }

/-- The grants of a partition (R631): its link ring, link windows and release ring, and those of its system contexts. -/
def partGrants (n : Nat) (ch : PartChoice) : List Grant :=
  [{ use := .linkRing, part := n, key := 0, base := ch.linkRing, len := 32768 },
   { use := .linkWindow, part := n, key := 0, base := 0, len := 0 },
   { use := .releaseRing, part := n, key := 0, base := ch.releaseRing, len := 65536 }]

/-- A partition takes its cores, system contexts, prep cores, semaphores and grants, with new keys for its extents (R430, R465, R631). -/
def State.placePart (s : State) (n : Nat) (r : PartRec) (ch : PartChoice) (ext : List (Nat × Nat)) : State :=
  let mem := ext.foldl (fun (m : MemSys) q => m.dropExtent q.1 q.2) s.mem
  let t := s.install (partGrants n ch)
  let t : State := { t with
    mem := { mem with keyGen := mem.keyGen + 1, epoch := kdel mem.epoch n, freed := kdel mem.freed n, releaseWr := kdel mem.releaseWr n }
    svc := { t.svc with linkTail := kdel t.svc.linkTail n } }
  let t := (coresOf r.cores).foldl (fun (t : State) c => t.modCore c (fun k => { k.clearHandles with
    preps := (ch.preps.filter (fun q => q.1 == c)).foldl (fun m q => kset m q.2 n) k.preps
    sems := { k.sems with ranges := (ch.semRange.filter (fun q => q.1 == c)).foldl (fun m q => kset m n q.2) k.sems.ranges } })) t
  ch.sysCtxs.foldl (fun t i => t.addCtx n none i) t

/-- The tests of a creation record (R428, R429, R698). -/
def State.partTests (s : State) (v : List Byte) (r : PartRec) : Option Word16 :=
  let f := recBits v
  firstBad [
    (f 7 3 != 0 || f 95 82 != 0 || f 255 106 != 0, cmdRSVD),
    (r.ctxPerCore == 0 || decide (140 < r.quota.getD 0 0) || decide (140 < r.quota.getD 1 0), accRANGE),
    (s.aon.drain != 0, accBUSY),
    ((kget? s.persist.parts (f 2 0)).isSome || r.cores == 0 || !s.persist.tenants.any (fun q => q.2.tenant == r.tenant), accCONFIG),
    (!s.persist.sharesOk r, accCONFIG),
    (s.coresBusy r.cores, accBUSY),
    (!s.persist.spaceOk r, memQUOTA)]

/-- A partition is created. -/
def State.createPart (s : State) (n : Nat) (r : PartRec) (ch : PartChoice) : State :=
  let t : State := { s with persist := { s.persist with
    parts := kset s.persist.parts n r
    extents := ch.extents.foldl (fun m q => kset m (q.1 * 144 + q.2) n) s.persist.extents } }
  let t := t.placePart n r ch ch.extents
  ({ t with svc := { t.svc with partReady := ndel t.svc.partReady n, partSince := kset t.svc.partSince n s.now } } : State).logFw
    0x3001 0 [(8, n)]

/-- PARTITION_CREATE (R428 to R430, R343, R445); Ligature refuses a grant of memory outside the partition's extents (R631). -/
def execPartitionCreate (choice : PartChoice) (s : State) : Host.Outcome State Fault Refusal :=
  .next (s.act 0x3000 1 (fun t _ e =>
    let r := partRecOf e.value t.now choice
    match t.partTests e.value r with
    | some code => t.fails code
    | none =>
      let n := recBits e.value 2 0
      if !t.persist.extentsOk r choice.extents then t.fails vndINTERNAL
      else if !grantsOk choice.extents (partGrants n choice ++ (choice.sysCtxs.map (ctxGrants n)).flatten) then t.fails secNOT_GRANTED
      else if !t.choiceOk r choice choice.extents then t.fails vndINTERNAL
      else { code := 0, next := t.createPart n r choice, commit := true }))

/-- PARTITION_READY: a partition that is being made ready is (R430). -/
def execPartitionReady (p : Fin 8) (s : State) : Host.Outcome State Fault Refusal :=
  .next (if (kget? s.svc.partSince p).isSome then
    { s with svc := { s.svc with partReady := nins s.svc.partReady p, partSince := kdel s.svc.partSince p } }
  else s)

/-! ### Partition destruction (R343, R431, R465, R474, R655) -/

/-- A partition is destroyed. -/
def State.destroyPart (s : State) (n : Nat) (r : PartRec) : State :=
  let ext := s.persist.extentsOf n
  let t := s.dropCtxs (fun c => c.part == n)
  let mem := ext.foldl (fun (m : MemSys) q => (m.dropExtent q.1 q.2).wcInvalidate q.1 q.2) t.mem
  let t := (coresOf r.cores).foldl (fun (t : State) c => t.modCore c (fun k => { k.clearHandles with
    preps := k.preps.filter (fun q => q.2 != n), sems := { k.sems with ranges := kdel k.sems.ranges n } })) t
  let t : State := { t with
    persist := { t.persist with
      parts := kdel t.persist.parts n, extents := t.persist.extents.filter (fun q => q.2 != n) }
    mem := { mem with keyGen := mem.keyGen + 1, epoch := kdel mem.epoch n, freed := kdel mem.freed n, releaseWr := kdel mem.releaseWr n }
    svc := { t.svc with
      models := t.svc.models.filter (fun q => q.2.part != n)
      partReady := ndel t.svc.partReady n, partSince := kdel t.svc.partSince n, linkTail := kdel t.svc.linkTail n
      clipEff := t.svc.clipEff.filter (fun q => q.1 % 8 != n) } }
  (t.uninstall (fun g => g.part == n)).logFw 0x3002 0 [(8, n)]

/-- PARTITION_DESTROY (R431). -/
def execPartitionDestroy (s : State) : Host.Outcome State Fault Refusal :=
  .next (s.act 0x3000 2 (fun t _ e =>
    let n := leAt e.value 0 1
    if 8 ≤ n then t.fails accRANGE
    else match kget? t.persist.parts n with
      | none => t.fails accCONFIG
      | some r =>
        if t.coresBusy r.cores then t.fails accBUSY
        else { code := 0, next := t.destroyPart n r, commit := true }))

/-! ### Staging a package (R652) -/

/-- The package engine's grants for a slot that is staging (R631). -/
def stageGrants (slot part : Nat) (alloc : List (Nat × Nat)) : List Grant :=
  alloc.map (fun q => { use := .allocation, part := part, key := slot, base := q.1, len := q.2 })

/-- Two ranges, address and length, have no byte in common. -/
def apart (p q : Nat × Nat) : Bool := decide (p.1 + p.2 ≤ q.1) || decide (q.1 + q.2 ≤ p.1)

/-- What is left of some ranges without another. -/
def cutOut (l : List (Nat × Nat)) (r : Nat × Nat) : List (Nat × Nat) :=
  (l.map (fun q => [(q.1, Nat.min (q.1 + q.2) r.1 - q.1), (Nat.max q.1 (r.1 + r.2), q.1 + q.2 - Nat.max q.1 (r.1 + r.2))])).flatten.filter
    (fun q => q.2 != 0)

/-- The first so many bytes of some ranges. -/
def takeRanges : List (Nat × Nat) → Nat → List (Nat × Nat)
  | _, 0 => []
  | [], _ => []
  | q :: l, n => if n ≤ q.2 then [(q.1, n)] else q :: takeRanges l (n - q.2)

/-- A partition's extents on a die. -/
def State.dieExtents (s : State) (part die : Nat) : List (Nat × Nat) := (s.persist.extentsOf part).filter (fun q => q.1 == die)

/-- The ranges of a partition that something holds: grants of rings and slots (R631). -/
def State.heldRanges (s : State) (part : Nat) : List (Nat × Nat) :=
  (s.svc.grants.filter (fun g => g.part == part)).map (fun g => (g.base, g.len))

/-- The lowest free bytes of a partition on a die. -/
def State.lowestFree (s : State) (part die bytes : Nat) : List (Nat × Nat) :=
  takeRanges ((s.heldRanges part).foldl cutOut
    ((s.dieExtents part die).map (fun q => (q.1 * 0x4000000000 + q.2 * extentBytes, extentBytes)))) bytes

/-- Ranges are an allocation of so many bytes: they lie in the partition's extents on the die, and hold no byte twice and none that
something else holds (R631, R652). -/
def State.allocOk (s : State) (slot part die bytes : Nat) (l : List (Nat × Nat)) : Bool :=
  decide (sumNat (l.map Prod.snd) = bytes) && grantsOk (s.dieExtents part die) (stageGrants slot part l)
    && decide (l.Pairwise (fun p q => apart p q = true)) && l.all (fun p => (s.heldRanges part).all (apart p))

/-- The allocation that firmware makes: a free choice among those there are, which fails only where the lowest free bytes do not do
(R652; log entry 144). -/
def State.allocate (s : State) (slot part die bytes : Nat) : Option (List (Nat × Nat)) :=
  [Config.stagePlace s.draws, s.lowestFree part die bytes].find? (s.allocOk slot part die bytes)

/-- MODEL_STAGE: the slot's memory comes from the partition's quota on the die (R631, R652, R698). -/
def execModelStage (s : State) : Host.Outcome State Fault Refusal :=
  .next (s.act 0x3010 1 (fun t c e =>
    let v := e.value
    let slot := leAt v 0 1
    let part := leAt v 1 1
    let die := leAt v 2 1
    let bytes := leAt v 8 8
    match firstBad [
      (!zeroAt v 3 1 || !zeroAt v 6 2, cmdRSVD),
      (decide (64 ≤ slot) || decide (8 ≤ part) || decide (2 ≤ die), accRANGE),
      ((match t.partTenant part with | none => false | some o => c.foreign o), accRIGHTS),
      (t.aon.drain != 0 || (t.model? slot).isSome, accBUSY),
      ((match kget? t.persist.parts part with | none => true | some r => coresOnDie r.cores die == []), accCONFIG),
      (!t.quotaHolds part die bytes, memQUOTA)] with
    | some code => t.fails code
    | none =>
      match t.allocate slot part die bytes with
      | none => t.fails memQUOTA
      | some l =>
        let m : ModelSlot := { state := 1, modelId := leAt v 4 2, part := part, die := die, bytes := bytes, alloc := l }
        let u := t.install (stageGrants slot part l)
        { code := 0, next := { u with draws := u.draws + 1, svc := { u.svc with models := kset u.svc.models slot m } } }))

/-! ### The tests of a package (R59, R75, R167, R434, R651, R654, R711) -/

/-- The wider form of an output format, where R167 gives one. -/
def widerOf : Nat → Option Nat
  | 6 => some 4
  | 7 => some 2
  | 2 => some 0
  | 3 => some 1
  | 4 | 5 => some 0xB
  | _ => none

/-- A checkpoint entry is well formed: its optional work and its wider form. -/
def CkptEntryOk (e : CkptEntry) : Bool :=
  (e.optCost.isNone || e.optFollows || (e.safeguarded && e.wider.isSome))
    && (!e.optFollows || e.optCost.isSome)
    && (match e.wider with
      | none => true
      | some (p, w) => e.safeguarded && e.optCost.isSome && widerOf p == some w)

/-- A cost table is well formed for a package of a number of stages. -/
def CostTableOk (n : Nat) (t : CostTable) : Bool :=
  decide (t.period < 6) && decide (t.y ≤ 65536) && t.e != [] && t.q.length == n && t.o.length == n
    && decide (1 ≤ t.ckpts.length) && decide (t.ckpts.length ≤ 64)
    && (List.range n).all (fun st => t.ckpts.any (fun e => e.stage == st)) && t.ckpts.all CkptEntryOk

/-- Test 6 of R654. -/
def PackageOk (p : Package) : Bool :=
  let n := p.stages.length
  let primary (period : Nat) : Bool := p.tables.any (fun t => t.period == period && !t.fallback)
  decide (1 ≤ n) && p.stages.all (fun x => decide (1 ≤ x.minRound) && decide (x.minRound ≤ x.maxRound) && decide (x.maxRound ≤ 256))
    && p.tables.all (CostTableOk n) && decide ((p.tables.map (fun t => (t.period, t.fallback))).Nodup)
    && p.tables.all (fun t => !t.fallback || (p.hasFallback && primary t.period))
    && (!p.hasFallback || (p.tables.any (·.fallback) && p.layoutDeclared))

/-- SEGMENTS of a staged manifest. -/
def ModelSlot.segments (m : ModelSlot) : Nat := ofLe (rdBytes m.manifest 24 4)

/-- Bytes of a staged manifest with its signature. -/
def ModelSlot.manifestLen (m : ModelSlot) : Nat := 512 + 64 * m.segments + 132

/-- The bytes before a place have all been staged: the place reached from zero through the ranges written. -/
def coveredTo (l : List (Nat × Nat)) : Nat → Nat → Nat
  | 0, p => p
  | fuel + 1, p =>
    match l.find? (fun q => decide (q.1 ≤ p) && decide (p < q.1 + q.2)) with
    | none => p
    | some q => coveredTo l fuel (q.1 + q.2)

/-- Test 1 of R654: a manifest of the layout of R651 and every segment have been staged. -/
def ModelSlot.staged (m : ModelSlot) : Bool :=
  let n := m.segments
  let z (a k : Nat) : Bool := (rdBytes m.manifest a k).all (· == 0)
  ofLe (rdBytes m.manifest 0 4) == 0x4C504B47 && ofLe (rdBytes m.manifest 4 1) == 1 && decide (ofLe (rdBytes m.manifest 5 1) ≤ 1)
    && z 6 2 && z 21 3 && z 28 4 && z 197 3 && z 248 264
    && decide (20 ≤ ofLe (rdBytes m.manifest 20 1)) && decide (ofLe (rdBytes m.manifest 20 1) ≤ 26)
    && decide (1 ≤ n) && decide (n ≤ 262144) && decide (m.manifestLen ≤ coveredTo m.covered m.covered.length 0)
    && (List.range n).all (fun i => (kget? m.segs i).isSome)

/-- The package of a slot: the manifest's fields as staged, and the control section that the operand gives (log entry 12). -/
def ModelSlot.package (m : ModelSlot) (p : Package) : Package :=
  { p with
    tenant := ofLe (rdBytes m.manifest 8 2), modelId := ofLe (rdBytes m.manifest 10 2), version := ofLe (rdBytes m.manifest 12 4)
    minSf := ofLe (rdBytes m.manifest 16 4), control := (ofLe (rdBytes m.manifest 48 8), ofLe (rdBytes m.manifest 56 8))
    manifestHash := Config.sha512 (rdBytes m.manifest 0 m.manifestLen) }

/-- The tests of R654 in order. -/
def State.loadTests (s : State) (m : ModelSlot) (p : Package) (sigOk segsOk : Bool) : Option Word16 :=
  firstBad [
    (!m.staged, accCONFIG),
    (!sigOk || !s.persist.tenants.any (fun q => q.2.tenant == p.tenant), secSIGNATURE),
    (s.partTenant m.part != some p.tenant || p.modelId != m.modelId, accOWNER),
    (!segsOk || m.segs.any (fun q => !q.2), secSIGNATURE),
    (decide (s.versions.getD 2 0 < p.minSf), accCONFIG),
    (!PackageOk p, accCONFIG)]

/-- The contexts that firmware creates for a model are those of R434, within the partition's share of each core. -/
def State.modelCtxsOk (s : State) (m : ModelSlot) (p : Package) (l : List CtxInit) : Bool :=
  match kget? s.persist.parts m.part with
  | none => false
  | some r =>
    let cores := coresOnDie r.cores m.die
    let ext := s.persist.extentsOf m.part
    let variants := if p.hasFallback then [false, true] else [false]
    l.all (fun i => cores.contains i.core && decide (i.stage < p.stages.length) && variants.contains i.fallback
        && i.tenant == r.tenant && CtxInitOk ext i && kgetD (s.core i.core).preps i.prep 0xFF == m.part)
      && s.idsFree l
      && cores.all (fun c =>
        (List.range p.stages.length).all (fun st => variants.all (fun fb =>
          let q := l.filter (fun i => i.core == c && i.stage == st && i.fallback == fb)
          (q.filter (fun i => i.cls == 0)).length == 2 && (q.filter (fun i => i.cls == 1)).length == 1 && q.length == 3))
        && decide ((s.ctxs.filter (fun x => x.2.core == c && x.2.part == m.part)).length
          + (l.filter (fun i => i.core == c)).length ≤ r.ctxPerCore)
        && decide ((s.ctxs.filter (fun x => x.2.core == c && x.2.pin)).length
          + (l.filter (fun i => i.core == c && i.pin)).length ≤ 12))

/-- The parts of an allocation that hold the bytes from an offset. -/
def allocRange : List (Nat × Nat) → Nat → Nat → List (Nat × Nat)
  | [], _, _ => []
  | q :: l, off, n =>
    if n = 0 then []
    else if q.2 ≤ off then allocRange l (off - q.2) n
    else
      let k := Nat.min n (q.2 - off)
      (q.1 + off, k) :: allocRange l 0 (n - k)

/-- The service cores' grants for the control section of a package (R631). -/
def ModelSlot.controlGrants (m : ModelSlot) (slot : Nat) (p : Package) : List Grant :=
  (allocRange m.alloc p.control.1 p.control.2).map (fun q => { use := .control, part := m.part, key := slot, base := q.1, len := q.2 })

/-- What firmware asks Ligature to grant for a package lies in the partition's extents, and its control section in the slot's
allocation (R631). -/
def State.loadGranted (s : State) (m : ModelSlot) (slot : Nat) (p : Package) (l : List CtxInit) : Bool :=
  decide (p.control.1 + p.control.2 ≤ sumNat (m.alloc.map Prod.snd))
    && grantsOk (s.persist.extentsOf m.part) (m.controlGrants slot p ++ (l.map (ctxGrants m.part)).flatten)

/-- A load that fails: the allocation is freed and the slot is absent. -/
def State.rejectLoad (s : State) (slot : Nat) (m : ModelSlot) (code : Word16) : ActRes :=
  let t : State := { s with svc := { s.svc with models := kdel s.svc.models slot } }
  let t := t.uninstall (·.ofSlot slot)
  { code := code, next := t.logFw 0x3004 code.toNat [(16, m.modelId), (16, (code.toNat : Int))] }

/-- A load that succeeds: the model is resident, its contexts exist, and its control section is granted. -/
def State.acceptLoad (s : State) (slot : Nat) (m : ModelSlot) (p : Package) (l : List CtxInit) : State :=
  let m := { m with state := 2, manifest := [], covered := [], segs := [], pkg := some p }
  let t : State := { s with svc := { s.svc with models := kset s.svc.models slot m } }
  let t := (t.uninstall (·.ofSlot slot)).install (m.controlGrants slot p)
  (l.foldl (fun t i => t.addCtx m.part (some slot) i) t).logFw 0x3003 0 [(16, m.modelId), (8, m.part)]

/-- A tenant key names a model slot of a partition that is not its own. -/
def State.foreignSlot (s : State) (c : Caller) (slot : Nat) : Bool :=
  match (s.model? slot).bind (fun m => s.partTenant m.part) with
  | none => false
  | some o => c.foreign o

/-- MODEL_LOAD: the operand holds the control section, the outcomes of the cryptographic tests and firmware's contexts (R433,
R434, R654, R698, R711). -/
def execModelLoad (choice : LoadChoice) (s : State) : Host.Outcome State Fault Refusal :=
  .next (s.act 0x3010 2 (fun t c e =>
    let slot := leAt e.value 0 1
    match firstBad [(decide (64 ≤ slot), accRANGE), (t.foreignSlot c slot, accRIGHTS), (t.aon.drain != 0, accBUSY)], t.model? slot with
    | some code, _ => t.fails code
    | none, none => t.fails accCONFIG
    | none, some m =>
      if m.state ≠ 1 then t.fails accCONFIG
      else
        let p := m.package choice.pkg
        match t.loadTests m p choice.sigOk choice.segsOk with
        | some code => t.rejectLoad slot m code
        | none =>
          if !t.loadGranted m slot p choice.ctxs then t.fails secNOT_GRANTED
          else if t.modelCtxsOk m p choice.ctxs then { code := 0, next := t.acceptLoad slot m p choice.ctxs }
          else t.fails vndINTERNAL))

/-- MODEL_REMOVE: refused while a stream of the model is open or closing, or a job of it lives (R654, R706). -/
def execModelRemove (s : State) : Host.Outcome State Fault Refusal :=
  .next (s.act 0x3010 3 (fun t c e =>
    let slot := leAt e.value 0 1
    match t.model? slot with
    | none => t.fails accRANGE
    | some m =>
      if t.foreignSlot c slot then t.fails accRIGHTS
      else if t.streams.ctx.any (fun q => q.2.modelSlot == slot)
          || t.svc.jobs.any (fun q => q.2.part == m.part && q.2.modelId == m.modelId && (q.2.state == 1 || q.2.state == 2 || q.2.grant)) then
        t.fails accBUSY
      else
        let u := (t.dropCtxs (fun x => x.slot == some slot)).uninstall (·.ofSlot slot)
        { code := 0, next := { u with svc := { u.svc with models := kdel u.svc.models slot } } }))

end Sys2Proof.Machine
end

