-- ==== Sys2Proof/Machine/Trust.lean ====
section
/-! DEFINITION. Keys, tenants, firmware images and attestation (R573, R633 to R640, R642 to R644, R647 to R650, R656). -/

namespace Sys2Proof.Machine

/-- An event of the secure core (R480). -/
def State.logSecure (s : State) (event code : Nat) (detail : List (Nat × Int)) : State := s.logEvent event code 0x14 0 detail

/-! ### Clotha keys (R634 to R637) -/

/-- The lowest-numbered record that no key holds. -/
def Persist.freeKeyRec (p : Persist) : Option Nat :=
  ((List.range 256).map (· + 1)).find? (fun i => (kget? p.keys i).isNone)

/-- The tests of an enrolment (R634 to R637). -/
def State.enrolTests (s : State) (c : Caller) (v : List Byte) (unwrapOk : Bool) : Option Word16 :=
  let id := leAt v 0 2
  let role := leAt v 2 1
  let tenant := leAt v 4 2
  firstBad [
    (!zeroAt v 3 1 || !zeroAt v 6 2 || !zeroAt v 141 3 || !zeroAt v 224 32 || (role != 2 && tenant != 0), cmdRSVD),
    (role == 0 || decide (3 < role), cFIELD),
    (id == 0 || id == 0xFFFF, accRANGE),
    ((c.role == 0 && role != 1) || (c.role == 2 && (role != 2 || tenant != c.tenant)), accRIGHTS),
    (!unwrapOk, secAUTH),
    (s.persist.keys.any (fun q => q.2.keyId == id) || s.persist.freeKeyRec.isNone
      || (role == 2 && !s.persist.tenants.any (fun q => q.2.tenant == tenant)), accCONFIG)]

/-- A key is enrolled in the lowest-numbered free record, with a counter of zero. -/
def State.enrol (s : State) (v : List Byte) : State :=
  let k : KeyRec := { keyId := leAt v 0 2, role := leAt v 2 1, tenant := leAt v 4 2, enrolledNs := s.now, wrapped := slice v 144 64
                      high := 0, seen := 0, reserve := 0x100000 }
  let keys := kset s.persist.keys (s.persist.freeKeyRec.getD 0) k
  ({ s with persist := { s.persist with keys := keys } } : State).logSecure 0x7002 0 [(16, k.keyId), (8, k.role)]

/-- KEY_ENROL (R634 to R637). -/
def execKeyEnrol (check : EnrolCheck) (s : State) : Host.Outcome State Fault Refusal :=
  .next (s.act 0x7002 1 (fun t c e =>
    match t.enrolTests c e.value check.unwrapOk with
    | some code => t.fails code
    | none => { code := 0, next := t.enrol e.value, commit := true }))

/-- Requests and kept responses of the keys that a test names are no longer theirs (R573, R636). -/
def State.forgetKeys (s : State) (p : Nat → Bool) : State :=
  { s with clotha := { s.clotha with
    queue := s.clotha.queue.map (fun r => if p r.keyId then { r with revoked := true } else r)
    kept := s.clotha.kept.filter (fun k => !p k.req.keyId) } }

/-- A key is removed. -/
def State.revoke (s : State) (id : Nat) : State :=
  let t : State := { s with persist := { s.persist with keys := s.persist.keys.filter (fun q => q.2.keyId != id) } }
  (t.forgetKeys (· == id)).logSecure 0x7003 0 [(16, id)]

/-- KEY_REVOKE (R636). -/
def execKeyRevoke (s : State) : Host.Outcome State Fault Refusal :=
  .next (s.act 0x7002 2 (fun t c e =>
    let id := leAt e.value 0 2
    match t.persist.keys.find? (fun q => q.2.keyId == id) with
    | none => t.fails secKEY_UNKNOWN
    | some (_, k) =>
      if c.role = 2 ∧ (k.role ≠ 2 ∨ k.tenant ≠ c.tenant) then t.fails accRIGHTS
      else if k.role = 1 ∧ (t.persist.keys.filter (fun q => q.2.role == 1)).length ≤ 1 then t.fails accCONFIG
      else { code := 0, next := t.revoke id, commit := true }))

/-- Every keyed link loses its key and goes down. -/
def State.dropLinkKeys (s : State) : State :=
  (List.range 8).foldl (fun (t : State) l => if (t.link l).epoch.isSome then t.linkGoDown l lnkSCALE_DOWN else t) s

/-- Every Clotha key, tenant record, SRTP slot and link key is destroyed, and a new wrap key is generated (R638). -/
def State.decommission (s : State) : State :=
  let t : State := { s with
    persist := { s.persist with keys := [], tenants := [], wrapGen := s.persist.wrapGen + 1 }
    net := { s.net with srtp := [] }
    svc := { s.svc with usage := [] } }
  (t.forgetKeys (· != 0)).dropLinkKeys

/-- DECOMMISSION: a write of 0xA5 while no partition exists (R638). -/
def execDecommission (s : State) : Host.Outcome State Fault Refusal :=
  .next (s.act 0x7002 3 (fun t _ e =>
    if leAt e.value 0 1 ≠ 0xA5 then t.fails accRANGE
    else if t.persist.parts ≠ [] then t.fails accBUSY
    else { code := 0, next := t.decommission, commit := true }))

/-! ### Tenants (R639, R640) -/

/-- A tenant is enrolled in the lowest-numbered free slot, or its package key replaced; `none` where no slot is free. -/
def State.enrolTenant (s : State) (v : List Byte) : Option State :=
  let id := leAt v 0 2
  let key := slice v 8 133
  let put (n : Nat) (r : TenantRec) : State := { s with persist := { s.persist with tenants := kset s.persist.tenants n r } }
  match s.persist.tenants.find? (fun q => q.2.tenant == id) with
  | some (n, r) => some (put n { r with pkgKey := key })
  | none =>
    ((List.range 256).find? (fun i => (kget? s.persist.tenants i).isNone)).map (fun n => put n { tenant := id, pkgKey := key })

/-- TENANT_ENROL (R639). -/
def execTenantEnrol (s : State) : Host.Outcome State Fault Refusal :=
  .next (s.act 0x7004 1 (fun t _ e =>
    if !zeroAt e.value 2 6 || !zeroAt e.value 141 3 then t.fails cmdRSVD
    else match t.enrolTenant e.value with
      | none => t.fails accCONFIG
      | some u => { code := 0, next := u, commit := true }))

/-- A tenant is removed, with its keys and SRTP slots. -/
def State.removeTenant (s : State) (slot id : Nat) : State :=
  let own := (s.persist.keys.filter (fun q => q.2.role == 2 && q.2.tenant == id)).map (fun q => q.2.keyId)
  let t := own.foldl State.revoke s
  { t with
    persist := { t.persist with tenants := kdel t.persist.tenants slot }
    net := { t.net with srtp := t.net.srtp.filter (fun q => q.2.owner != id) }
    svc := { t.svc with usage := kdel t.svc.usage slot } }

/-- TENANT_REMOVE (R640). -/
def execTenantRemove (s : State) : Host.Outcome State Fault Refusal :=
  .next (s.act 0x7004 2 (fun t _ e =>
    let id := leAt e.value 0 2
    match t.persist.tenants.find? (fun q => q.2.tenant == id) with
    | none => t.fails accRANGE
    | some (slot, _) =>
      if t.persist.parts.any (fun q => q.2.tenant == id) then t.fails accBUSY
      else { code := 0, next := t.removeTenant slot id, commit := true }))

/-! ### Firmware images (R642, R647 to R650) -/

/-- The floor of a slot's kind. -/
def Persist.floorOf (p : Persist) (slot : Nat) : Nat := if slot < 2 then p.floorLig else p.floorSf

/-- A firmware slot changed. -/
def Persist.modFw (p : Persist) (slot : Nat) (f : FwSlot → FwSlot) : Persist :=
  { p with fwSlots := kset p.fwSlots slot (f (p.fwSlot slot)) }

/-- The test of R642: the code of its failure. -/
def Persist.imageTest (p : Persist) (slot : Nat) (k : ImageCheck) : Option Word16 :=
  let f := p.fwSlot slot
  if !f.layoutOk slot || !k.rootOk || !k.sigOk || !k.hashOk then some secSIGNATURE
  else if f.svn slot < p.floorOf slot then some secROLLBACK
  else none

/-- Event 0x7001. -/
def State.imageRejected (s : State) (slot : Nat) (code : Word16) : State :=
  s.logSecure 0x7001 code.toNat [(8, slot), (16, (code.toNat : Int))]

/-- FW_VERIFY: the operand holds the outcomes of the cryptographic tests (R642, R648). -/
def execFwVerify (check : ImageCheck) (s : State) : Host.Outcome State Fault Refusal :=
  .next (s.act 0x7006 1 (fun t _ e =>
    let slot := leAt e.value 0 1
    if 4 ≤ slot then t.fails accRANGE
    else
      let st := (t.persist.fwSlot slot).state
      let mark (u : State) (n : Nat) : State :=
        if st = 3 ∨ st = 0 then u else { u with persist := u.persist.modFw slot (fun f => { f with state := n }) }
      match t.persist.imageTest slot check with
      | none => { code := 0, next := mark t 2, commit := true }
      | some code => { code := code, next := (mark t 4).imageRejected slot code, commit := true }))

/-- A verified slot becomes active for its kind; a service-firmware slot replaces the running firmware (R648, R649). -/
def State.activate (s : State) (slot : Nat) : State :=
  let other := slot ^^^ 1
  let p := s.persist.modFw slot (fun f => { f with state := 3 })
  let p := if (s.persist.fwSlot other).state = 3 then p.modFw other (fun f => { f with state := 2 }) else p
  let t := ({ s with persist := p } : State).logSecure 0x7004 0 [(32, (s.persist.fwSlot slot).version slot)]
  if slot < 2 then t
  else
    { t with
      aon := { t.aon with activating := some (slot, other, s.aon.clock) }
      svc := { t.svc with sfRunning := false }
      clotha := { t.clotha with dictReady := false } }

/-- FW_ACTIVATE (R648, R649). -/
def execFwActivate (s : State) : Host.Outcome State Fault Refusal :=
  .next (s.act 0x7006 2 (fun t _ e =>
    let slot := leAt e.value 0 1
    if 4 ≤ slot then t.fails accRANGE
    else if (t.persist.fwSlot slot).state ≠ 2 then t.fails accCONFIG
    else { code := 0, next := t.activate slot, commit := true }))

/-- FW_ACTIVATION_TIMEOUT: the new firmware has not set DICT_READY within 10 s: the new slot has failed and the previous one
is active again and restarts (R649). -/
def execFwActivationTimeout (s : State) : Host.Outcome State Fault Refusal :=
  .next (match s.aon.activating with
  | none => s
  | some (new, prev, t0) =>
    if s.clotha.dictReady ∨ s.aon.clock < t0 + 10000000000 then s
    else
      let p := (s.persist.modFw new (fun f => { f with state := 4 })).modFw prev (fun f => { f with state := 3 })
      ({ s with
        persist := p
        aon := { s.aon with activating := none, sfSlot := some prev }
        svc := { s.svc with sfRunning := false } } : State).commitPersist)

/-- A kind's floor becomes the SVN of its running image; an inactive slot below it is marked (R650). -/
def Persist.raiseFloor (p : Persist) (kind slot : Nat) : Persist :=
  let v := Nat.max ((p.fwSlot slot).svn slot) (p.floorOf slot)
  let p : Persist := if kind = 1 then { p with floorLig := v } else { p with floorSf := v }
  let below (p : Persist) (i : Nat) : Persist :=
    let f := p.fwSlot i
    if f.state ≠ 0 ∧ f.state ≠ 3 ∧ f.svn i < v then p.modFw i (fun f => { f with state := 5 }) else p
  [2 * (kind - 1), 2 * (kind - 1) + 1].foldl below p

/-- FW_FLOOR_RAISE (R650). -/
def execFwFloorRaise (s : State) : Host.Outcome State Fault Refusal :=
  .next (s.act 0x7006 3 (fun t _ e =>
    let kind := leAt e.value 0 1
    if kind ≠ 1 ∧ kind ≠ 2 then t.fails accRANGE
    else match (if kind = 1 then t.aon.ligSlot else t.aon.sfSlot) with
      | none => t.fails accCONFIG
      | some slot => { code := 0, next := { t with persist := t.persist.raiseFloor kind slot }, commit := true }))

/-! ### Attestation (R656) -/

/-- Resident models of a partition from a model slot, no more than eight. -/
def State.reportModels (s : State) (part first : Nat) : List Package :=
  (s.svc.models.filterMap (fun q =>
    if first ≤ q.1 ∧ q.2.part = part ∧ q.2.state = 2 then q.2.pkg else none)).take 8

/-- SHA-512 of the header of the image in a slot. -/
def State.headerHash (s : State) (slot : Option Nat) : List Byte :=
  match slot with
  | none => List.replicate 64 0
  | some i => toBe 64 (Config.sha512 ((s.persist.fwSlot i).bytesAt i 0 512))

/-- A report, without its signature. -/
def State.report (s : State) (v : List Byte) : List Byte :=
  let part := leAt v 64 1
  let models := s.reportModels part (leAt v 65 1)
  let (cores, tenant, made) := match kget? s.persist.parts part with
    | none => (0, 0, 0)
    | some r => (r.cores, r.tenant, r.createdNs)
  [1, 0] ++ toLe 2 (404 + 72 * models.length) ++ [BitVec.ofNat 8 s.aon.straps.boot.toNat, BitVec.ofNat 8 models.length, 0, 0]
    ++ slice v 0 64 ++ slice (Config.serial.take 16) 0 16 ++ toLe 8 s.now
    ++ (s.versions.map (toLe 4)).flatten ++ toLe 4 0 ++ toLe 2 s.persist.floorLig ++ toLe 2 s.persist.floorSf ++ toLe 4 0
    ++ s.headerHash s.aon.ligSlot ++ s.headerHash s.aon.sfSlot
    ++ [if part = 0xFF then 0 else BitVec.ofNat 8 part, BitVec.ofNat 8 cores] ++ toLe 2 tenant ++ toLe 4 0 ++ toLe 8 made ++ toLe 8 0
    ++ (models.map (fun p => toLe 2 p.modelId ++ toLe 2 0 ++ toLe 4 p.version ++ toBe 64 p.manifestHash)).flatten

/-- ATT_REQUEST: the signature's bytes are free values (R656, log entry 6). -/
def execAttRequest (s : State) : Host.Outcome State Fault Refusal :=
  .next (s.act 0x7010 1 (fun t c e =>
    let v := e.value
    let part := leAt v 64 1
    match firstBad [
      (!zeroAt v 66 6, cmdRSVD),
      ((decide (8 ≤ part) && part != 0xFF) || decide (64 ≤ leAt v 65 1), accRANGE),
      (part != 0xFF && (match t.partTenant part with | none => false | some o => c.foreign o), accRIGHTS),
      (part != 0xFF && (kget? t.persist.parts part).isNone, accRANGE)] with
    | some code => t.fails code
    | none =>
      let (d, u) := t.draw
      { code := 0, next := u, value := t.report v ++ (List.range 132).map (Config.tagByte d) }))

end Sys2Proof.Machine
end

