-- ==== Sys2Proof/Machine/Boot.lean ====
section
/-! DEFINITION. The boot chain, the start of the service firmware, at boot and in service, and ready (R230, R527, R541, R544,
R553, R561, R574, R641 to R645, R649, R687, R694 to R696, R702, R703). -/

namespace Sys2Proof.Machine

/-! ### Stages 1 to 3 (R641) -/

/-- The active slot of a kind's two, the first where none is. -/
def Persist.activeSlot (p : Persist) (first : Nat) : Nat :=
  if (p.fwSlot (first + 1)).state = 3 ∧ (p.fwSlot first).state ≠ 3 then first + 1 else first

/-- A slot may be booted: it holds an image that is not below the floor (R650). -/
def Persist.bootable (p : Persist) (slot : Nat) : Bool := (p.fwSlot slot).state != 0 && (p.fwSlot slot).state != 5

/-- The first of some slots whose image passes, after an event for each that fails. -/
def State.pickImage (s : State) (check : Nat → ImageCheck) : List Nat → State × Option Nat
  | [] => (s, none)
  | i :: l =>
    if !s.persist.bootable i then s.pickImage check l
    else match s.persist.imageTest i (check i) with
      | none => (s, some i)
      | some code => (s.imageRejected i code).pickImage check l

/-- BOOT_ROM_CHECK: the ROM checks the active Ligature slot and Ligature its floor; the other slot follows a failure, and with
both failed the boot halts (R641, R642, R675, R694, R696). -/
def execBootRomCheck (slot0 slot1 : ImageCheck) (s : State) : Host.Outcome State Fault Refusal :=
  .next (if s.aon.boot ≠ .rom then s
  else
    let a := s.persist.activeSlot 0
    let (t, r) := s.pickImage (fun i => if i = 0 then slot0 else slot1) [a, 1 - a]
    { t with
      aon := { t.aon with
        hubUp := true, ligSlot := r, boot := if r.isSome then .hbm else .halted
        phase := if t.aon.phase = .internalReset then .running else t.aon.phase }
      time := { t.time with running := true } })

/-- HBM_TRAINING_DONE: every stack trains and passes its test, or the boot halts (R641). -/
def execHbmTrainingDone (allOk : Bool) (s : State) : Host.Outcome State Fault Refusal :=
  .next (if s.aon.boot = .hbm then { s with aon := { s.aon with boot := if allOk then .firmware else .halted } } else s)

/-! ### Stage 4 (R544, R641, R644, R695) -/

/-- The persistent values after the flash journal has failed: defaults, but for identities, keys, the 0x7000 range and the
quarantine (R544). -/
def Persist.journalLost (p : Persist) : Persist :=
  { keys := p.keys, wrapGen := p.wrapGen, linkPeer := p.linkPeer, claimKey := p.claimKey, fwSlots := p.fwSlots
    tenants := p.tenants.map (fun q => (q.1, { q.2 with beWeight := 1, lcLimit := 0 }))
    floorLig := p.floorLig, floorSf := p.floorSf, quarantine := p.quarantine, eventFloor := p.eventFloor }

/-- A key's counter at start-up: H is the committed reserve, and the record of the counters below it is lost (R553). -/
def KeyRec.restart (k : KeyRec) : KeyRec := { k with high := k.reserve, seen := BitVec.allOnes 64 }

/-- Every key's counter at start-up. -/
def Persist.restartKeys (p : Persist) : Persist :=
  { p with keys := p.keys.map (fun q => (q.1, q.2.restart)), claimKey := p.claimKey.restart }

/-- One partition recreated with its extents and fresh keys; `none` where firmware's choices break its rules (R695). -/
def State.recreatePart (s : State) (n : Nat) (r : PartRec) (ch : PartChoice) : Option State :=
  let ext := s.persist.extentsOf n
  if !s.choiceOk r ch ext then none
  else
    let r := { r with releaseRing := ch.releaseRing, linkRing := ch.linkRing }
    let t : State := { s with persist := { s.persist with parts := kset s.persist.parts n r } }
    let t := t.placePart n r ch ext
    some { t with svc := { t.svc with partReady := nins t.svc.partReady n } }

/-- Every recorded partition recreated. -/
def State.recreateParts (s : State) (l : List (Nat × PartChoice)) : List (Nat × PartRec) → Option State
  | [] => some s
  | (n, r) :: ps =>
    match kget? l n with
    | none => none
    | some ch =>
      match s.recreatePart n r ch with
      | none => none
      | some t => t.recreateParts l ps

/-- The event for the first cause of the last shutdown (R687). -/
def State.shutdownEvent (s : State) : State :=
  let r := s.persist.lastShutdown
  if !s.aon.shutdownNew then s
  else
    let t : State := { s with aon := { s.aon with shutdownNew := false } }
    if r.cause = 0 then t
    else if r.cause ≤ 3 then t.logFw 0xA001 0 [(32, r.value)]
    else if r.cause ≤ 6 then t.logFw 0xA002 0 [(8, r.sensor), (8, 0)]
    else if r.cause = 7 then t.logFw 0xA003 0 [(32, r.value), (32, s.aon.temps.getD 22 0), (8, 0)]
    else t.logFw 0xA003 0 [(32, (s.aon.flow : Int)), (32, r.value), (8, 0)]

/-- Persistent values, key counters and record numbers restored (R541, R544, R553, R561). -/
def State.restoreValues (s : State) (journalOk : Bool) : State :=
  let p := if journalOk then s.persist else s.persist.journalLost
  let t : State := { s with
    persist := p.restartKeys
    recov := { s.recov with eventHead := p.eventFloor, firstRecord := p.eventFloor } }
  if journalOk then t else (t.commitPersist).logFw 0x1002 0 []

/-- A scale link whose peer is enrolled begins to come up (R645, R695). -/
def State.startLinks (s : State) : State :=
  (List.range 8).foldl (fun (t : State) l => t.modLink l (fun k => { k with
    flushEff := kgetD s.persist.flushMax l 2
    trainSince := if s.linkEnabled l && (kgetD s.persist.linkPeer l []).any (· != 0) then some s.now else none })) s

/-- The service firmware runs from a slot and answers (R574). -/
def State.firmwareUp (s : State) (slot : Nat) : State :=
  { s with
    aon := { s.aon with sfSlot := some slot, activating := none }
    svc := { s.svc with sfRunning := true }
    clotha := { s.clotha with dictReady := true } }

/-- Service-firmware slots in the order in which a boot tries them (R641, R644). -/
def State.bootOrder (s : State) : List Nat :=
  let a := s.persist.activeSlot 2
  let b := 5 - a
  if s.aon.straps.boot = 1 then [b, a] else [a, b]

/-- The first start of the service firmware after power-on or a module reset. -/
def State.bootFirmware (s : State) (check : Nat → ImageCheck) (journalOk : Bool) (parts : List (Nat × PartChoice)) : State :=
  let (t, r) := s.pickImage check s.bootOrder
  match r with
  | none => { t with aon := { t.aon with boot := .halted } }
  | some slot =>
    let t := t.restoreValues journalOk
    match t.recreateParts parts t.persist.parts with
    | none => s
    | some t =>
      let t := t.streams.lost.foldl (fun t i => t.logFw 0x2007 0 [(16, i)]) t.shutdownEvent.startLinks
      t.firmwareUp slot

/-- SERVICE_FIRMWARE_START: at boot, Ligature starts the image that passes, and the firmware restores what R695 lists; in
service, the activated image, or the previous one after a failed activation, takes over what runs (R230, R527, R541, R544,
R641, R644, R649, R687, R695, R702, R703). -/
def execServiceFirmwareStart (slot2 slot3 : ImageCheck) (journalOk : Bool) (parts : List (Nat × PartChoice)) (s : State) :
    Host.Outcome State Fault Refusal :=
  .next (if !s.hbmUp ∨ s.clotha.dictReady then s
  else match s.aon.activating, s.aon.sfSlot with
    | some (new, _, _), _ => s.firmwareUp new
    | none, some slot => s.firmwareUp slot
    | none, none =>
      if s.aon.straps.boot = 2 then s
      else s.bootFirmware (fun i => if i = 2 then slot2 else slot3) journalOk parts)

/-- MODULE_READY: after DICT_READY, MOD_READY goes high and PPS_OUT pulses (R694). -/
def execModuleReady (s : State) : Host.Outcome State Fault Refusal :=
  .next (if s.clotha.dictReady ∧ s.aon.boot = .firmware then
    { s with aon := { s.aon with ready := true, boot := .ready }, time := { s.time with ppsOn := true } }
  else s)

end Sys2Proof.Machine
end

