-- ==== Sys2Proof/Machine/Tick.lean ====
section
/-! DEFINITION. What a step does when no command waits. -/

namespace Sys2Proof.Machine

/-- One nanosecond of the timebase; at one tick in 10,000 an offset still to be slewed takes one nanosecond more or one
less: 100 ppm (R611, log entry 21). -/
def TimeBase.tick (t : TimeBase) : TimeBase :=
  let t := { t with ticks := (t.ticks + 1) % 10000 }
  if t.slew = 0 ∨ t.ticks ≠ 0 then { t with now := (t.now + 1) % 2 ^ 64 }
  else if 0 < t.slew then { t with now := (t.now + 2) % 2 ^ 64, slew := t.slew - 1 }
  else { t with slew := t.slew + 1 }

/-- A tick: the 64-bit timebase counts a nanosecond whenever the TIME domain runs, and the AON clock, which runs whenever the
standby supply is up and in no relation to it, counts what its own oscillator gives (R24, R27, log entry 2). -/
def tick (s : State) : State :=
  { s with
    aon := if s.aon.phase = .unpowered then s.aon else { s.aon with clock := s.aon.clock + Config.aonAdvance s.draws }
    time := if s.time.running then s.time.tick else s.time
    draws := s.draws + 1 }

end Sys2Proof.Machine
end

