-- ==== Sys2Proof/Machine/Elem.lean ====
section
/-! DEFINITION. Elementwise operations of a vector engine (R107, R123, R255): FP32 and INT32 arithmetic, the four
operations that are not correctly rounded, comparisons and conversions. -/

namespace Sys2Proof.Machine

/-! ### Approximations good far beyond 2 units in the last place -/

/-- Integer square root, bit by bit: `r` is the root so far, `n` the bits left. -/
def isqrtGo : Nat → Nat → Nat → Nat
  | 0, _, r => r
  | n + 1, x, r =>
    let c := r + 2 ^ n
    isqrtGo n x (if c * c ≤ x then c else r)

/-- floor of the square root. -/
def isqrt (x : Nat) : Nat := isqrtGo (Nat.log2 x / 2 + 1) x 0

/-- Sum of z^(2k+1) / (2k+1) for k below a count. -/
def atanhSum : Nat → Nat → Frac → Frac → Frac → Frac
  | 0, _, _, _, acc => acc
  | n + 1, k, p, z2, acc =>
    let p := Frac.mul p z2
    atanhSum n (k + 2) p z2 (Frac.add acc (Frac.mul p ⟨1, k + 2⟩))

/-- ln of a fraction near 1 by its series. -/
def lnSeries (m : Frac) : Frac :=
  let z := Frac.div (Frac.sub m Frac.one) (Frac.add m Frac.one)
  Frac.mul ⟨2, 1⟩ (atanhSum 20 1 z (Frac.mul z z) z)

/-- ln 2. -/
def ln2 : Frac := lnSeries ⟨2, 1⟩

/-- ln of a positive fraction. -/
def lnApprox (q : Frac) : Frac :=
  let e := Frac.ilog2 q
  let m := Frac.mul q (Frac.pow2 (-e))
  let (m, e) := if Frac.lt ⟨3, 2⟩ m then (Frac.div m ⟨2, 1⟩, e + 1) else (m, e)
  Frac.add (lnSeries m) (Frac.mul (Frac.ofInt e) ln2)

/-- Sum of r^k / k!. -/
def expSum : Nat → Nat → Frac → Frac → Frac → Frac
  | 0, _, _, _, acc => acc
  | n + 1, k, r, t, acc =>
    let t := Frac.mul t (Frac.div r ⟨k, 1⟩)
    expSum n (k + 1) r t (Frac.add acc t)

/-- e to a power whose magnitude is below 200. -/
def expApprox (x : Frac) : Frac :=
  let n := (Frac.div x ln2).floor
  let r := Frac.sub x (Frac.mul (Frac.ofInt n) ln2)
  Frac.mul (expSum 18 1 r Frac.one Frac.one) (Frac.pow2 n)

/-! ### Operations of R123 -/

/-- A free draw for one element: its draw and its place. -/
structure Draw where
  n : Nat
  k : Nat
  deriving DecidableEq, Repr

/-- An FP32 result within 2 units in the last place of a positive exact value, as Config leaves it open. Where the exact
value is no normal number the bound of R123 does not apply: below the smallest normal the magnitude is free up to it, so
that a subnormal result is kept (R107), and above the largest finite value it is one of the two largest or infinite; the
sign is the exact value's (R123, log entry 10). -/
def nearUlp (dr : Draw) (neg : Bool) (v : Frac) : Word32 :=
  let free := (Config.freeF32 dr.n dr.k).toNat
  if Frac.lt v fp32.minNormal then BitVec.ofNat 32 (fp32.signed neg (free % 0x00800001))
  else if Frac.le (Frac.pow2 129) v then BitVec.ofNat 32 (fp32.signed neg 0x7F800000)
  else if Frac.lt fp32.maxMag v then BitVec.ofNat 32 (fp32.signed neg (0x7F7FFFFE + free % 3))
  else
    let base := toF32 (.fin neg v)
    let c := BitVec.ofInt 32 ((base.toNat : Int) + Config.ulpError dr.n dr.k)
    match f32 c with
    | .fin n m =>
      if n = neg ∧ Frac.le (Frac.abs (Frac.sub m v)) (Frac.pow2 (Frac.ilog2 v - 22)) then c else base
    | _ => base

def w32NaN : Word32 := BitVec.ofNat 32 fp32.nanCode
def w32Inf (neg : Bool) : Word32 := BitVec.ofNat 32 (fp32.signed neg 0x7F800000)
def w32Zero (neg : Bool) : Word32 := BitVec.ofNat 32 (fp32.signed neg 0)
def w32One : Word32 := 0x3F800000

/-- 1 / A. -/
def fRcp (dr : Draw) (a : FVal) : Word32 :=
  match a with
  | .nan => w32NaN
  | .inf n => w32Zero n
  | .fin n m => if Frac.isZero m then w32Inf n else nearUlp dr n (Frac.div Frac.one m)

/-- 1 / √A. -/
def fRsq (dr : Draw) (a : FVal) : Word32 :=
  match a with
  | .nan => w32NaN
  | .inf n => if n then w32NaN else w32Zero false
  | .fin n m =>
    if Frac.isZero m then w32Inf n
    else if n then w32NaN
    else
      let e := Frac.ilog2 m / 2
      let y := Frac.div Frac.one (Frac.mul m (Frac.pow2 (-2 * e)))
      nearUlp dr false (Frac.mul ⟨isqrt (Frac.mul y (Frac.pow2 80)).trunc, 2 ^ 40⟩ (Frac.pow2 (-e)))

/-- e^A; beyond a magnitude of 150 the exact value is far outside the normal range. -/
def fExp (dr : Draw) (a : FVal) : Word32 :=
  match a with
  | .nan => w32NaN
  | .inf n => if n then w32Zero false else w32Inf false
  | .fin n m =>
    if Frac.isZero m then w32One
    else if Frac.lt ⟨150, 1⟩ m then nearUlp dr false (Frac.pow2 (if n then -200 else 200))
    else nearUlp dr false (expApprox (FVal.fin n m).frac)

/-- ln A. -/
def fLog (dr : Draw) (a : FVal) : Word32 :=
  match a with
  | .nan => w32NaN
  | .inf n => if n then w32NaN else w32Inf false
  | .fin n m =>
    if Frac.isZero m then w32Inf true
    else if n then w32NaN
    else
      let l := lnApprox m
      nearUlp dr (decide (l.num < 0)) (Frac.abs l)

/-- e^(A − B), +0 where both are −∞. -/
def fExpSub (dr : Draw) (a b : FVal) : Word32 :=
  if a = .inf true ∧ b = .inf true then w32Zero false else fExp dr (FVal.add a b.neg)

/-! ### Minimum, maximum and comparisons (R131, R132) -/

/-- Maximum or minimum of FP32 words; a NaN gives the canonical NaN. -/
def fMinMax (max_ : Bool) (a b : Word32) : Word32 :=
  if (f32 a).isNan || (f32 b).isNan then w32NaN
  else if max_ then (if FVal.lt (f32 a) (f32 b) then b else a)
  else (if FVal.lt (f32 b) (f32 a) then b else a)

/-- Condition of a comparison from "equal" and "less" (R252). -/
def condOf (cond : Nat) (eq lt : Bool) : Bool :=
  match cond with
  | 0 => eq | 1 => !eq | 2 => lt | 3 => lt || eq | 4 => !lt && !eq | _ => !lt

/-- FCMP of one element. -/
def fCmp (cond : Nat) (a b : Word32) : Bool :=
  let x := f32 a
  let y := f32 b
  if x.isNan || y.isNan then cond == 1
  else
    let lt := FVal.ltNum x y
    condOf cond (!lt && !FVal.ltNum y x) lt

/-- ICMP of one element. -/
def iCmp (cond : Nat) (a b : Word32) : Bool := condOf cond (a == b) (decide (a.toInt < b.toInt))

/-- Integer operations of opcodes 0x10 to 0x1A. -/
def iOp (op : Nat) (a b : Word32) : Word32 :=
  let n := b.toNat % 32
  match op with
  | 0x10 => a + b
  | 0x11 => a - b
  | 0x12 => a * b
  | 0x13 => if b.toInt < a.toInt then b else a
  | 0x14 => if a.toInt < b.toInt then b else a
  | 0x15 => a &&& b
  | 0x16 => a ||| b
  | 0x17 => a ^^^ b
  | 0x18 => a <<< n
  | 0x19 => a >>> n
  | _ => a.sshiftRight n

/-- CVTFI: result and numeric events (log entry 10 for an infinity that does not saturate). -/
def cvtFI (dr : Draw) (round : Nat) (sat : Bool) (a : Word32) : Word32 × NumEv :=
  match f32 a with
  | .nan => (0, { nanToZero := true })
  | .inf n =>
    if sat then (if n then 0x80000000 else 0x7FFFFFFF, { saturated := true }) else (Config.freeF32 dr.n dr.k, {})
  | .fin n m =>
    let q := roundInt (roundOf round) (FVal.fin n m).frac
    if q < -2147483648 ∨ 2147483647 < q then
      if sat then (if q < 0 then 0x80000000 else 0x7FFFFFFF, { saturated := true }) else (BitVec.ofInt 32 q, {})
    else (BitVec.ofInt 32 q, {})

/-- CVTIF. -/
def cvtIF (a : Word32) : Word32 := toF32 (FVal.ofFrac (Frac.ofInt a.toInt))

/-! ### Sums and products in an open order (R258) -/

/-- Terms of a float sum or product combined in an open order. -/
def f32RedAny (mul : Bool) (draw : Nat) : Nat → List Word32 → Word32
  | 0, l => l.headD 0
  | n + 1, l =>
    match l with
    | [] => 0
    | [a] => a
    | a :: b :: rest =>
      let len := rest.length + 2
      let i := Config.sumPick draw (2 * n) % len
      let l' := (a :: b :: rest).eraseIdx i
      let j := Config.sumPick draw (2 * n + 1) % (len - 1)
      let x := (a :: b :: rest).getD i 0
      let y := l'.getD j 0
      f32RedAny mul draw n (l'.eraseIdx j ++ [if mul then f32Mul x y else f32Add x y])

/-- A word widened from a format's code: INT32 for an integer code, FP32 with the canonical NaN for a float code
(R118, R268). -/
def widen (fmt c : Nat) : Word32 :=
  if fmt ≤ 3 ∨ fmt = 7 ∨ fmt = 8 then BitVec.ofInt 32 (decodeElem fmt none c).1.frac.num
  else toF32 (decodeElem fmt none c).1

end Sys2Proof.Machine
end

