-- ==== Sys2Proof/Machine/Vector.lean ====
section
/-! DEFINITION. Vector engines: the execution of prologues and bodies on tile registers, masks and ports (R234 to R287). -/

namespace Sys2Proof.Machine

/-- What a program runs on. -/
structure VeEnv where
  c : Cmd
  w : WorkItem
  /-- The stage's descriptor. -/
  d : Nat
  /-- A finishing program rather than a VEC_RUN. -/
  fin : Bool
  prog : VProg
  /-- Accumulator words by row; empty for a VEC_RUN. -/
  rows : List (List Word32)
  /-- The set consumed a poisoned beat. -/
  setPoison : Bool
  deriving DecidableEq, Repr

/-- A vector engine under way: the module, the registers, the run's status, statistics and max-abs, and its next draw. -/
structure VeRun where
  s : State
  ve : VeState
  /-- The accumulator set still held. -/
  set : Option Nat
  status : Word16
  stats : TileStats
  maxAbs : Frac
  draw : Nat
  /-- The last instruction issued (R276). -/
  last : Option (Nat × Nat)

/-! ### Registers (R234 to R238, R247) -/

/-- Elements of a register of 8 × 32. -/
def tileOf (f : Nat → Nat → Word32) : List Word32 := (List.range 256).map (fun k => f (k / 32) (k % 32))

/-- Element (r, l). -/
def tileAt (t : List Word32) (r l : Nat) : Word32 := t.getD (32 * r + l) 0

/-- A tile register. -/
def VeState.treg (v : VeState) (i : Nat) : List Word32 := kgetD v.tregs i (List.replicate 256 0)

/-- A mask from its bits. -/
def maskOf (f : Nat → Nat → Bool) : BitVec 256 :=
  BitVec.ofNat 256 ((List.range 256).foldl (fun n k => n + b2n (f (k / 32) (k % 32)) * 2 ^ k) 0)

/-- Bit (r, l) of a mask. -/
def maskAt (m : BitVec 256) (r l : Nat) : Bool := bit m.toNat (32 * r + l)

/-- M0 for a loop index: the validity of its slice; all ones in a VEC_RUN (R247). -/
def VeEnv.m0 (v : VeEnv) (i r l : Nat) : Bool :=
  !v.fin || (decide (64 * v.w.rt + 8 * (i % 8) + r < dM v.d) && decide (32 * v.w.ct + l < dN v.d))

/-- A mask register. -/
def VeEnv.mask (v : VeEnv) (ve : VeState) (i m r l : Nat) : Bool :=
  if m = 0 then v.m0 i r l else maskAt (kgetD ve.masks m 0) r l

/-- Q0 to Q7 (R241). -/
def VeEnv.qs (v : VeEnv) : List Word32 :=
  let st := v.w.stage
  let s := v.c.sOut st
  let inv := toF32 (divScale fOne s)
  if v.fin then
    let o := v.c.outCtl st
    [toF32 s, inv, BitVec.ofInt 32 (actZero v.d), BitVec.ofInt 32 o.zOut, toF32 o.lo, toF32 o.hi
    , BitVec.ofNat 32 (dM v.d), BitVec.ofNat 32 (dN v.d)]
  else
    (if vrSlotEn v.d then [toF32 s, inv] else [BitVec.ofNat 32 (vrQ v.d 0), BitVec.ofNat 32 (vrQ v.d 1)])
      ++ (List.range 6).map (fun i => BitVec.ofNat 32 (vrQ v.d (i + 2)))

/-- Instructions whose operands and immediate are INT32. -/
def vIntOp (op : Nat) : Bool := (decide (0x10 ≤ op) && decide (op ≤ 0x1B)) || op == 0x21 || vIntRed op

/-- A source's elements (R246, R253). -/
def VeEnv.src (v : VeEnv) (ve : VeState) (w i code : Nat) : List Word32 :=
  let slice (k : Nat) : List Word32 := tileOf (fun r l => (v.rows.getD (8 * k + r) []).getD l 0)
  let imm : Word32 := if vIntOp (vOp w) then BitVec.ofInt 32 (sext 16 (vImm w)) else BitVec.ofNat 32 (vImm w * 65536)
  if code < 0x20 then ve.treg (relReg (vRel w) code i)
  else if code < 0x28 then slice (code - 0x20)
  else if code = 0x28 then slice (i % 8)
  else if code = 0x29 then List.replicate 256 imm
  else if code < 0x32 then List.replicate 256 (ve.qs.getD (code - 0x2A) 0)
  else if code = 0x32 then tileOf (fun _ l => BitVec.ofNat 32 l)
  else if code = 0x33 then tileOf (fun r _ => BitVec.ofNat 32 r)
  else if code = 0x35 then List.replicate 256 (BitVec.ofNat 32 v.w.rt)
  else if code = 0x36 then List.replicate 256 (BitVec.ofNat 32 v.w.ct)
  else List.replicate 256 0

/-- Sign and magnitude modifiers of a source: on the FP32 sign, or on an INT32 (R252). -/
def modify (int neg abs : Bool) (x : Word32) : Word32 :=
  if int then
    let x := if abs && x.msb then -x else x
    if neg then -x else x
  else
    let x := if abs then x &&& 0x7FFFFFFF else x
    if neg then x ^^^ 0x80000000 else x

/-- Source A with its modifiers, and source B. -/
def VeEnv.srcA (v : VeEnv) (ve : VeState) (w i : Nat) : List Word32 :=
  (v.src ve w i (vSrcA w)).map (modify (vIntOp (vOp w)) (vNegA w) (vAbsA w))
def VeEnv.srcB (v : VeEnv) (ve : VeState) (w i : Nat) : List Word32 :=
  (v.src ve w i (vSrcB w)).map (modify (vIntOp (vOp w)) (vNegB w) false)
def VeEnv.srcC (v : VeEnv) (ve : VeState) (w i : Nat) : List Word32 := v.src ve w i (vSrcC w)

/-- An instruction reads a poisoned register, mask or set (R249). -/
def VeEnv.readsPoison (v : VeEnv) (ve : VeState) (w i : Nat) : Bool :=
  (vReads w i).any (fun r => if r < 32 then ve.poisonT.contains r else r != 32 && ve.poisonM.contains (r - 32))
    || (v.setPoison && (vSources w).any srcIsAcc)

/-! ### Results -/

/-- Status bits of events. -/
def evStatus (e : NumEv) : Word16 := BitVec.ofNat 16 (b2n e.nanOut + 2 * b2n e.saturated + 4 * b2n e.nanToZero)

/-- A tile written under MMODE (R256). -/
def VeEnv.writeT (v : VeEnv) (ve : VeState) (w i dst : Nat) (t : List Word32) (masked poison : Bool) : VeState :=
  let old := ve.treg dst
  let new_ := if !masked || vMMode w = 0 then t
    else tileOf (fun r l =>
      if v.mask ve i (vMSel w) r l then tileAt t r l else if vMMode w = 1 then tileAt old r l else 0)
  { ve with tregs := kset ve.tregs dst new_, poisonT := nput ve.poisonT dst poison }

/-- A mask written under MMODE. -/
def VeEnv.writeM (v : VeEnv) (ve : VeState) (mmode msel i dst : Nat) (f : Nat → Nat → Bool) (poison : Bool) : VeState :=
  let old := kgetD ve.masks dst 0
  let new_ := maskOf (fun r l =>
    if mmode = 0 || v.mask ve i msel r l then f r l else if mmode = 1 then maskAt old r l else false)
  { ve with masks := kset ve.masks dst new_, poisonM := nput ve.poisonM dst poison }

/-- One element of a float or mixed operation of opcodes 0x01 to 0x0C and 0x20 to 0x22, with its events. -/
def elemOp (dr : Draw) (w : Nat) (a b c : Word32) : Word32 × Word16 :=
  let op := vOp w
  let nan (x : Word32) : Bool := (f32 x).isNan
  let out (r : Word32) (ins : List Word32) : Word32 × Word16 := (r, if nan r && !ins.any nan then 1 else 0)
  match op with
  | 0x01 => out (f32Add a b) [a, b]
  | 0x02 => out (f32Sub a b) [a, b]
  | 0x03 => out (f32Mul a b) [a, b]
  | 0x04 => out (f32Fma a b c) [a, b, c]
  | 0x05 => (fMinMax false a b, 0)
  | 0x06 => (fMinMax true a b, 0)
  | 0x07 => out (fRcp dr (f32 a)) [a]
  | 0x08 => out (fRsq dr (f32 a)) [a]
  | 0x09 => out (fExp dr (f32 a)) [a]
  | 0x0A => out (fLog dr (f32 a)) [a]
  | 0x0B => out (fExpSub dr (f32 a) (f32 b)) [a, b]
  | 0x0C => if (f32 b).isZero then (0, stEMPTY) else out (f32Mul a (fRcp dr (f32 b))) [a, b]
  | 0x20 =>
    let r := cvtFI dr (vRound w) (vSat w) a
    (r.1, evStatus r.2)
  | 0x21 => (cvtIF a, 0)
  | 0x22 => (a, 0)
  | _ => (iOp op a b, 0)

/-! ### Reductions (R256 to R262, R128 to R132) -/

/-- Kind of a reduction opcode. -/
def redKind (op : Nat) : RedOp :=
  match op % 16 with
  | 0 => .sum | 1 => .prod | 2 => .max | 4 => .max | _ => .min

/-- The identity of a reduction as a word (R128, R259). An integer reduction with a float format takes the identity's value
where INT32 holds it; an infinite one is open (log entry 10). -/
def redIdent (dr : Draw) (op fmt : Nat) : Word32 :=
  let k := redKind op
  if vIntRed op then
    if fmt = 0xD then BitVec.ofNat 32 (redIdentity k none)
    else if fmtInt fmt then widen fmt (redIdentity k (some fmt))
    else
      let v := (decodeElem fmt none (redIdentity k (some fmt))).1
      if v.isFinite then BitVec.ofInt 32 v.frac.num else Config.freeF32 dr.n dr.k
  else if fmt = 0xD then BitVec.ofNat 32 (redIdentity k (some 0xD))
  else if fmtInt fmt then toF32 (FVal.ofFrac (Frac.ofInt (widen fmt (redIdentity k (some fmt))).toInt))
  else widen fmt (redIdentity k (some fmt))

/-- Combination of two words under a reduction. -/
def redComb (op : Nat) (a b : Word32) : Word32 :=
  match vIntRed op, redKind op with
  | false, .sum => f32Add a b
  | false, .prod => f32Mul a b
  | false, .max => fMinMax true a b
  | false, .min => fMinMax false a b
  | true, .sum => a + b
  | true, .prod => a * b
  | true, .max => iOp 0x14 a b
  | true, .min => iOp 0x13 a b

/-- A reduction of a kept set that is not empty; a NaN gives the canonical one (R131). -/
def redFold (draw op : Nat) (l : List Word32) : Word32 :=
  match vIntRed op, redKind op with
  | false, .sum => canonNan (f32RedAny false draw (l.length - 1) l)
  | false, .prod => canonNan (f32RedAny true draw (l.length - 1) l)
  | false, _ => canonNan ((l.drop 1).foldl (redComb op) (l.headD 0))
  | true, _ => (l.drop 1).foldl (redComb op) (l.headD 0)

/-- A new pair beats the pair it meets: a NaN beats what is not NaN, otherwise strictly better values win (R131, R132,
R262). -/
def argBeats (op : Nat) (new_ old : Word32) : Bool :=
  if vIntRed op then (if redKind op = .max then decide (old.toInt < new_.toInt) else decide (new_.toInt < old.toInt))
  else if (f32 old).isNan then false
  else if (f32 new_).isNan then true
  else if redKind op = .max then FVal.lt (f32 old) (f32 new_) else FVal.lt (f32 new_) (f32 old)

/-- The winning pair of a kept set that is not empty: the earliest of equals. -/
def argFold (op : Nat) (l : List (Word32 × Word32)) : Word32 × Word32 :=
  let p := (l.drop 1).foldl (fun m q => if argBeats op q.1 m.1 then q else m) (l.headD (0, 0))
  if !vIntRed op && (f32 p.1).isNan then (w32NaN, p.2) else p

/-- A reduction executed (R128 to R133, R256 to R262). Indices are 16 bits. With ACC an existing pair stays on a tie, also the
pair that an empty first part left, whose index is 0xFFFF: R262 says so without an exception (DESIGN CHOICE, log entry 129). -/
def VeEnv.reduce (v : VeEnv) (m : VeRun) (w i : Nat) (poison : Bool) : VeRun :=
  let op := vOp w
  let a := v.srcA m.ve w i
  let idx := if vArg op then v.srcC m.ve w i else []
  let dst := relReg (vRel w) (vDst w) i
  let dst2 := (dst + 1) % 32
  let col := vAxis w
  let n := if col then 32 else 8
  let kept (g : Nat) : List (Word32 × Word32) :=
    ((List.range (if col then 8 else 32)).filter (fun x =>
      let (r, l) := if col then (x, g) else (g, x)
      vMMode w = 0 || v.mask m.ve i (vMSel w) r l)).map (fun x =>
        let (r, l) := if col then (x, g) else (g, x)
        (tileAt a r l, tileAt idx r l &&& 0xFFFF))
  let sets := (List.range n).map kept
  let tagKey (g : Nat) : Nat := if col then dst * 32 + g else dst * 8 + g
  let tags := if col then m.ve.emptyLane else m.ve.emptyRow
  let acc := vAcc w
  let results := (List.zip (List.range n) sets).map (fun q =>
    if q.2 = [] then (redIdent ⟨m.draw, q.1⟩ op (vFmt w), (0xFFFF : Word32))
    else if vArg op then argFold op q.2 else (redFold (m.draw + q.1) op (q.2.map Prod.fst), 0))
  let old := m.ve.treg dst
  let old2 := m.ve.treg dst2
  let pick (r l : Nat) : Word32 × Word32 :=
    let g := if col then l else r
    let new_ := results.getD g (0, 0)
    if !acc then new_
    else
      let o := (tileAt old r l, tileAt old2 r l)
      if (sets.getD g []) = [] then o
      else if vArg op then (if argBeats op new_.1 o.1 then new_ else o)
      else (redComb op o.1 new_.1, 0)
  let val := tileOf (fun r l => (pick r l).1)
  let ind := tileOf (fun r l => (pick r l).2)
  let tags' := (List.zip (List.range n) sets).foldl (fun t q =>
    if q.2 = [] then (if acc then t else nins t (tagKey q.1)) else ndel t (tagKey q.1)) tags
  let empties := (List.zip (List.range n) sets).any (fun q => q.2 == [] && (!acc || tags.contains (tagKey q.1)))
  let nan (x : Word32) : Bool := (f32 x).isNan
  let fresh := (List.zip sets results).any (fun q => nan q.2.1 && !q.1.any (fun x => nan x.1) && q.1 != [])
  let combined := acc && !vArg op && (List.range 256).any (fun x =>
    let (r, l) := (x / 32, x % 32)
    nan (tileAt val r l) && !nan (tileAt old r l) && !nan (results.getD (if col then l else r) (0, 0)).1)
  let nanOut := !vIntRed op && (fresh || combined)
  let ve := { m.ve with
    tregs := kset m.ve.tregs dst val, poisonT := nput m.ve.poisonT dst poison
    emptyRow := if col then m.ve.emptyRow else tags', emptyLane := if col then tags' else m.ve.emptyLane }
  let ve := if vArg op then { ve with tregs := kset ve.tregs dst2 ind, poisonT := nput ve.poisonT dst2 poison } else ve
  { m with ve := ve, status := m.status ||| (if empties then stEMPTY else 0) ||| (if nanOut then 1 else 0) }

/-- SOFTMAX of each row over the kept lanes, as RMAX, FEXPSUB, RSUM and FNORM (R130, R131, R264; log entry 35). -/
def VeEnv.softmax (v : VeEnv) (m : VeRun) (w i : Nat) (poison : Bool) : VeRun :=
  let a := v.srcA m.ve w i
  let keep (r l : Nat) : Bool := vMMode w = 0 || v.mask m.ve i (vMSel w) r l
  let rows := (List.range 8).map (fun r =>
    let lanes := (List.range 32).filter (keep r)
    let xs := lanes.map (tileAt a r)
    let bad := xs.any (fun x => (f32 x).isNan || f32 x == .inf false)
    let empty := xs.all (fun x => f32 x == .inf true)
    if bad then ((List.range 32).map (fun l => if keep r l then w32NaN else 0), (1 : Word16))
    else if empty then (List.replicate 32 0, stEMPTY)
    else
      let mx := (xs.drop 1).foldl (fMinMax true) (xs.headD 0)
      let p (l : Nat) : Word32 := fExpSub ⟨m.draw, 32 * r + l⟩ (f32 (tileAt a r l)) (f32 mx)
      let sum := f32Sum (m.draw + 300 + r) (lanes.map p)
      let inv := fRcp ⟨m.draw + 400, r⟩ (f32 sum)
      ((List.range 32).map (fun l => if keep r l then f32Mul (p l) inv else 0), 0))
  let dst := relReg (vRel w) (vDst w) i
  { m with
    ve := { m.ve with tregs := kset m.ve.tregs dst (rows.map Prod.fst).flatten, poisonT := nput m.ve.poisonT dst poison }
    status := rows.foldl (fun s q => s ||| q.2) m.status }

/-! ### Ports (R254, R265 to R271) -/

/-- Buffer, address of row 0 and row step of a port instruction. -/
def VeEnv.portPlace (v : VeEnv) (w i : Nat) : Nat × HandleEntry × Nat × Nat :=
  let st := v.w.stage
  let d := v.d
  if v.fin ∧ pBase w = 1 then
    let h := dOH d
    (h, v.c.map st h, outRow d (64 * v.w.rt + 8 * (i % 8)) + (32 * v.w.ct) * portBits w / 8 + portRel w i, dOStr d * 64)
  else if v.fin ∧ pBase w = 2 then
    let h := dVecH d
    (h, v.c.map st h, dVecOff d * 256 + 4 * convLen d * pOff w + 128 * v.w.ct + portRel w i, pStride w * 64)
  else
    let h := pHandle w
    (h, v.c.map st h, portStart w i v.w.rt (if v.fin then 0 else vrStride d), pStride w * 64)

/-- LD (R254, R268, R249). -/
def VeEnv.load (v : VeEnv) (m : VeRun) (w i : Nat) : VeRun :=
  let (_, h, o, step) := v.portPlace w i
  let home := v.w.home
  let b := fmtBits (pFmt w)
  let bc := pBcast w
  let sh := portShape w
  let row (r : Nat) : Nat := if bc = 1 ∨ bc = 3 then o else o + r * step
  let n := cdiv (sh.2 * b) 8
  let bytes := (List.range sh.1).map (fun r => m.s.bufRead home h (row r) n)
  let poison := (List.range sh.1).any (fun r => m.s.bufPoisoned home h (row r) n)
  let code (r l : Nat) : Nat := packedAt (bytes.getD (if sh.1 = 1 then 0 else r) []) b (if sh.2 = 1 then 0 else l)
  let t := tileOf (fun r l => widen (pFmt w) (code r l))
  let bad := pFmt w == 8 && (List.range sh.1).any (fun r => (List.range sh.2).any (fun l => code r l == 2))
  let dst := relReg (pRel w) (pReg w) i
  let old := m.ve.treg dst
  let t := tileOf (fun r l => if pMMode w = 0 || v.mask m.ve i (pMSel w) r l then tileAt t r l
    else if pMMode w = 1 then tileAt old r l else 0)
  let maskPoison := pMMode w != 0 && pMSel w != 0 && m.ve.poisonM.contains (pMSel w)
  { m with
    ve := { m.ve with tregs := kset m.ve.tregs dst t, poisonT := nput m.ve.poisonT dst (poison || maskPoison) }
    status := m.status ||| (if bad then stINVALID else 0) }

/-- Elements that a store or pack of a register writes, as MMODE gives: `none` keeps what stands in memory. -/
def VeEnv.stored (v : VeEnv) (m : VeRun) (w i : Nat) (r l : Nat) (x : Word32) : Option Word32 :=
  if pMMode w = 0 || v.mask m.ve i (pMSel w) r l then some x else if pMMode w = 1 then none else some 0

/-- ST (R254). -/
def VeEnv.store (v : VeEnv) (m : VeRun) (w i : Nat) (poison : Bool) : VeRun :=
  let (_, h, o, step) := v.portPlace w i
  let t := m.ve.treg (relReg (pRel w) (pReg w) i)
  let s := (List.range 8).foldl (fun s r =>
    s.putCodes v.w.home h (o + r * step) 0xD
      ((List.range 32).map (fun l => (v.stored m w i r l (tileAt t r l)).map (·.toNat))) poison) m.s
  { m with s := s, status := m.status ||| (if poison then stPOISON else 0) }

/-- Output control of a PACK (R148, R265). -/
def VeEnv.packCtl (v : VeEnv) (w : Nat) : OutCtl :=
  if v.fin ∧ pBase w = 1 then v.c.outCtl v.w.stage
  else
    let fmt := pFmt w
    let z := if v.fin then 0 else zeroPoint fmt (vrZpO v.d)
    let b := if v.fin then defaultClip fmt 0 else clipBounds (vrClipDef v.d) (vrClipLo v.d) (vrClipHi v.d) fmt z
    { fmt := fmt, round := pRound w, sat := pSat w, micro := pMicro w, zOut := z, lo := b.1, hi := b.2
      sWord := if v.fin then 0x3F80 else v.c.sWord v.w.stage }

/-- The value that a check vector's entry takes from a packed element (R208, R269). -/
def checkVal (o : OutCtl) (e code : Nat) : FVal :=
  let x := (decodeElem o.fmt none code).1
  if o.micro then FVal.mul (FVal.mul x (.fin false (Frac.pow2 ((e : Int) - 127)))) o.sOut else x

/-- A packed element added to its lane of the check accumulator (R269). -/
def VeState.checkAdd (ve : VeState) (l : Nat) (x : FVal) : VeState :=
  match x with
  | .fin n a =>
    { ve with
      ckS := kmod ve.ckS l Frac.zero (fun q => Frac.add q (FVal.fin n a).frac)
      ckA := kmod ve.ckA l Frac.zero (fun q => Frac.add q a) }
  | .inf false => { ve with ckPos := nins ve.ckPos l }
  | .inf true => { ve with ckNeg := nins ve.ckNeg l }
  | .nan => { ve with ckNan := nins ve.ckNan l }

/-- A row that M0 excludes takes zero codes in the columns of its tile (R151, R266, R270). -/
def VeEnv.packMasked (v : VeEnv) (s : State) (row extra : Nat) (poison : Bool) : State :=
  let d := v.d
  let h := v.c.map v.w.stage (dOH d)
  if dMicro d then s.writeMasked v.w.home h d row v.w.ct extra poison
  else
    let a := outRow d row + extra + colOffset (dOFmt d) (32 * v.w.ct) false
    s.zeroRange v.w.home h a (a + (Nat.min 32 (dN d - 32 * v.w.ct) * fmtBits (dOFmt d) + 7) / 8) poison

/-- One row of a PACK (R148 to R151, R156, R265 to R270). -/
def VeEnv.packRow (v : VeEnv) (w i : Nat) (poison : Bool) (m : VeRun) (r : Nat) : VeRun :=
  let o := v.packCtl w
  let toOut := v.fin && pBase w == 1
  let (_, h, base, step) := v.portPlace w i
  let t := m.ve.treg (relReg (pRel w) (pReg w) i)
  let row := 64 * v.w.rt + 8 * (i % 8) + r
  let kept (l : Nat) : Bool := v.m0 i r l
  let rowOut := !(List.range 32).any kept
  if toOut ∧ rowOut then
    if pChk w || dMicro v.d then { m with s := v.packMasked m.s row (portRel w i) poison } else m
  else
    let ins : List (Option FVal) := (List.range 32).map (fun l =>
      if (toOut && !kept l) || (pChk w && rowOut) then none else (v.stored m w i r l (tileAt t r l)).map f32)
    let seg := o.segment ins
    let codes : List (Option Nat) := seg.1.map (fun x => match x with
      | some x => some x.code
      | none => if !toOut && pChk w && rowOut then some 0 else none)
    let out : TileStats × Word16 × Frac := (List.range 32).foldl (fun q l =>
      match ins.getD l none, seg.1.getD l none with
      | some x, some y =>
        let real := FVal.mul x o.sOut
        (if toOut then q.1.add o (8 * (i % 8) + r) real y else q.1, q.2.1 ||| y.status,
          match real with | .fin _ a => if toOut || !v.fin then Frac.max q.2.2 a else q.2.2 | _ => q.2.2)
      | _, _ => q) (m.stats, m.status, m.maxAbs)
    let s := if toOut then m.s.writeSegment v.w.home h v.d row v.w.ct (portRel w i) o.sWord codes seg.2 poison
      else m.s.putCodes v.w.home h (base + r * step) o.fmt codes poison
    let ve := if !pChk w then m.ve
      else (List.range 32).foldl (fun (ve : VeState) l =>
        match seg.1.getD l none with
        | some y => if kept l then ve.checkAdd l (checkVal o seg.2 y.code) else ve
        | none => ve) m.ve
    { m with s := s, ve := ve, stats := out.1, status := out.2.1, maxAbs := out.2.2 }

/-- PACK: row by row. -/
def VeEnv.pack (v : VeEnv) (m : VeRun) (w i : Nat) (poison : Bool) : VeRun :=
  let m := (List.range 8).foldl (v.packRow w i poison) m
  { m with status := m.status ||| (if poison then stPOISON else 0) }

/-- Entry of a float check vector for a lane: a lane that has met a NaN, or infinities of both signs, is NaN; one that has
met an infinity is infinite, its magnitudes too (R269, R271). -/
def VeState.checkEntry (ve : VeState) (l : Nat) : List Byte :=
  let pos := ve.ckPos.contains l
  let neg := ve.ckNeg.contains l
  if ve.ckNan.contains l then toLe 4 fp32.nanCode ++ toLe 2 bf16.nanCode
  else if pos && neg then toLe 4 fp32.nanCode ++ toLe 2 0x7F80
  else if pos || neg then toLe 4 (toF32 (.inf neg)).toNat ++ toLe 2 0x7F80
  else toLe 4 (toF32 (FVal.ofFrac (kgetD ve.ckS l Frac.zero))).toNat ++ toLe 2 (bf16Up (kgetD ve.ckA l Frac.zero))

/-- CHKST (R271). -/
def VeEnv.chkst (v : VeEnv) (m : VeRun) (w i : Nat) : VeRun :=
  let (_, h, o, _) := v.portPlace w i
  let float := v.prog.chkFloat (if v.fin then dOFmt v.d else 0)
  let bytes := (List.range 32).map (fun l =>
    if float then m.ve.checkEntry l else leInt 2 (kgetD m.ve.ckS l Frac.zero).floor)
  { m with s := m.s.bufWrite v.w.home h o bytes.flatten false
           ve := { m.ve with ckS := [], ckA := [], ckNan := [], ckPos := [], ckNeg := [] } }

/-- MLD: a poisoned line, or a poisoned mask that selects, poisons the mask register (R249, R254). -/
def VeEnv.mld (v : VeEnv) (m : VeRun) (w i : Nat) : VeRun :=
  let (_, h, o, _) := v.portPlace w i
  let n := m.s.bufNat v.w.home h o 32
  let poison := m.s.bufPoisoned v.w.home h o 32 || (pMMode w != 0 && m.ve.poisonM.contains (pMSel w))
  { m with ve := v.writeM m.ve (pMMode w) (pMSel w) i (bits w 9 8) (fun r l => bit n (32 * r + l)) poison }

/-- FLAGST: bit r of the byte is bit (r, 0) of the mask. -/
def VeEnv.flagst (v : VeEnv) (m : VeRun) (w i : Nat) (poison : Bool) : VeRun :=
  let (_, h, o, _) := v.portPlace w i
  let old := m.s.bufNat v.w.home h o 1
  let byte := (List.range 8).foldl (fun n r =>
    let keep := pMMode w = 0 || v.mask m.ve i (pMSel w) r 0
    n + 2 ^ r * b2n (if keep then v.mask m.ve i (bits w 9 8) r 0 else pMMode w = 1 && bit old r)) 0
  { m with s := m.s.bufWrite v.w.home h o [BitVec.ofNat 8 byte] poison, status := m.status ||| (if poison then stPOISON else 0) }

/-! ### One instruction (R255) -/

/-- Permutations of source A by opcode. -/
def permute (w : Nat) (a b : List Word32) : List Word32 :=
  match vOp w with
  | 0x28 => tileOf (fun r l => tileAt a r ((tileAt b r l).toNat % 32))
  | 0x29 => tileOf (fun r l => tileAt a r ((l + vImm w) % 32))
  | 0x2A => tileOf (fun r l => tileAt a (l % 8) (l / 8 * 8 + r))
  | 0x2B => tileOf (fun _ l => tileAt a (vImm w % 8) l)
  | _ => tileOf (fun r _ => tileAt a r (vImm w % 32))

/-- One issued instruction. -/
def VeEnv.exec (v : VeEnv) (m : VeRun) (q : Nat × Nat) : VeRun :=
  let w := q.1
  let i := q.2
  let op := vOp w
  let m := { m with draw := m.draw + 1024 }
  let poison := v.readsPoison m.ve w i
  if op = 0 ∨ op = 0x3C ∨ op = 0x3D then m
  else if op = 0x40 then v.load m w i
  else if op = 0x41 then v.store m w i poison
  else if op = 0x42 then v.pack m w i poison
  else if op = 0x43 then v.chkst m w i
  else if op = 0x44 then v.mld m w i
  else if op = 0x45 then v.flagst m w i poison
  else if vRed op then v.reduce m w i poison
  else if op = 0x36 then v.softmax m w i poison
  else if vMaskOp op then
    let a := vSrcA w % 4
    let b := vSrcB w % 4
    let f (r l : Nat) : Bool :=
      match op with
      | 0x38 => v.mask m.ve i a r l && v.mask m.ve i b r l
      | 0x39 => v.mask m.ve i a r l || v.mask m.ve i b r l
      | 0x3A => !v.mask m.ve i a r l
      | _ => bit (vImm w) 0
    { m with ve := v.writeM m.ve (vMMode w) (vMSel w) i (bits w 9 8) f poison }
  else
    let a := v.srcA m.ve w i
    let b := v.srcB m.ve w i
    let dst := relReg (vRel w) (vDst w) i
    if op = 0x0D ∨ op = 0x1B then
      let cmp (r l : Nat) : Bool :=
        if op = 0x0D then fCmp (vFmt w) (tileAt a r l) (tileAt b r l) else iCmp (vFmt w) (tileAt a r l) (tileAt b r l)
      { m with ve := v.writeM m.ve (vMMode w) (vMSel w) i (bits w 9 8) cmp poison }
    else if op = 0x0E then
      let t := tileOf (fun r l => if v.mask m.ve i (vMSel w) r l then tileAt a r l else tileAt b r l)
      { m with ve := v.writeT m.ve w i dst t true poison }
    else if 0x28 ≤ op then { m with ve := v.writeT m.ve w i dst (permute w a b) true poison }
    else
      let c := if op = 4 then v.srcC m.ve w i else []
      let res := (List.range 256).map (fun k => elemOp ⟨m.draw, k⟩ w (a.getD k 0) (b.getD k 0) (c.getD k 0))
      let ev := (List.zip (List.range 256) res).foldl (fun (s : Word16) x =>
        if vMMode w = 0 || v.mask m.ve i (vMSel w) (x.1 / 32) (x.1 % 32) then s ||| x.2.2 else s) 0
      { m with ve := v.writeT m.ve w i dst (res.map Prod.fst) true poison, status := m.status ||| ev }

/-! ### Ports on rings (R356) -/

/-- What a port instruction reads or writes: its buffer, ranges, and whether it writes. -/
def VeEnv.portRanges (v : VeEnv) (q : Nat × Nat) : Nat × HandleEntry × List (Nat × Nat) × Bool :=
  let w := q.1
  let i := q.2
  let (hi, h, o, step) := v.portPlace w i
  let op := vOp w
  let out := v.fin && pBase w == 1 && op == 0x42
  let rows : List (Nat × Nat) :=
    if op = 0x43 then [(o, if v.prog.chkFloat (if v.fin then dOFmt v.d else 0) then 192 else 64)]
    else if op = 0x44 then [(o, 32)]
    else if op = 0x45 then [(o, 1)]
    else if out then
      let n := (Nat.min 32 (dN v.d - 32 * v.w.ct) * fmtBits (dOFmt v.d) + 7) / 8
      (((List.range 8).map (fun r => 64 * v.w.rt + 8 * (i % 8) + r)).filter (· < dM v.d)).flatMap (fun row =>
        (outRow v.d row + portRel w i + colOffset (dOFmt v.d) (32 * v.w.ct) (dMicro v.d), n)
          :: (if dMicro v.d then [(microAt v.d row v.w.ct, 1)] else []))
    else
      let sh := portShape w
      (List.range sh.1).map (fun r => (o + r * step, cdiv (sh.2 * portBits w) 8))
  (hi, h, rows, op != 0x40 && op != 0x44)

/-- Ring slots that an instruction reads or writes: handle, slot and whether it is written. -/
def VeEnv.portSlots (v : VeEnv) (q : Nat × Nat) : List (Nat × Nat × Bool) :=
  if !vPort (vOp q.1) then []
  else
    let (hi, h, rows, write) := v.portRanges q
    if !h.ring then [] else ((rows.map (fun r => h.slotsOf r.1 r.2)).flatten.foldl nins []).map (fun s => (hi, s, write))

/-- No port of an instruction waits on a ring. -/
def VeEnv.portsOpen (v : VeEnv) (s : State) (slots : List (Nat × Nat × Bool)) : Bool :=
  slots.all (fun q =>
    let full := ((s.core v.w.home).handle q.1).isFull q.2.1
    if q.2.2 then !full || v.c.ringWrote.contains (q.1, q.2.1) else full)

/-! ### Issue (R276, R281) -/

/-- An instruction takes an ALU slot. -/
def vAlu (op : Nat) : Bool := !vPort op && op != 0x3C && op != 0x3D

/-- Slots that an instruction takes after the one before it: a port instruction shares the slot of an ALU instruction whose
destination it neither reads nor writes. -/
def issueSlots (last : Option (Nat × Nat)) (q : Nat × Nat) : Nat :=
  let op := vOp q.1
  if op = 0x3C ∨ op = 0x3D then 0
  else if op = 0x36 then 6
  else if !vPort op || op == 0x42 then 1
  else match last with
    | none => 1
    | some p =>
      let dst := vWrites p.1 p.2
      if vAlu (vOp p.1) && (vReads q.1 q.2 ++ vWrites q.1 q.2).all (fun r => !dst.contains r) then 0 else 1

/-- Beats of 64 bytes that a port instruction moves. -/
def VeEnv.portBeats (v : VeEnv) (q : Nat × Nat) : Nat :=
  if vPort (vOp q.1) then sumNat ((v.portRanges q).2.2.1.map (fun r => (bufLines r.1 r.2).length)) else 0

/-- A vector engine's Drone counter advances on every issued slot and on every port beat (R281). -/
def State.veProgress (s : State) (core e n : Nat) : State := (List.range n).foldl (fun t _ => t.progress core (16 + e)) s

/-! ### Bodies (R237, R243, R248, R283) -/

/-- The engine's registers at a body: cleared when a new command begins, with the command's scalar sources; whether the
prologue runs (R237, R241, R243). -/
def VeEnv.begin_ (v : VeEnv) (ve : VeState) : VeState × Bool :=
  let id := (v.c.serial, v.w.stage)
  if ve.cmd = some id then (ve, v.fin && ve.lastCol != some v.w.ct)
  else ({ cmd := some id, qs := v.qs, item := ve.item }, true)

/-- The environment of an item: its program is the one loaded at the command's dispatch (R250). -/
def State.veEnv (_s : State) (c : Cmd) (w : WorkItem) (a : AccSet) : VeEnv :=
  let d := c.desc w.stage
  { c := c, w := w, d := d, fin := dOp d != 0x30, prog := VProg.parse (kgetD c.progs w.stage [])
    rows := a.rows, setPoison := stHas a.status stPOISON }

/-- RELEASE returns the set that a body holds to FREE (R248). -/
def VeRun.release (m : VeRun) (core e : Nat) : VeRun :=
  match m.set with
  | none => m
  | some i => { m with s := m.s.modEngine core e (fun g => g.putSet i {}), set := none }

/-- One instruction issued: the ring slots of its port are noted with its command, and what the check bits find is counted. -/
def VeEnv.issue (v : VeEnv) (core e : Nat) (errs : BoreErrs) (m : VeRun) (q : Nat × Nat) (slots : List (Nat × Nat × Bool)) : VeRun :=
  let op := vOp q.1
  if op = 0x3D then m.release core e
  else
    let s := if op = 0x40 ∨ op = 0x44 then
        let (_, h, rows, _) := v.portRanges q
        m.s.boreFinds v.w.home (rows.map (fun r => (h, r.1, r.2))) errs
      else m.s
    let of_ (b : Bool) : List (Nat × Nat) := (slots.filter (fun x => x.2.2 == b)).map (fun x => (x.1, x.2.1))
    let s := if slots = [] then s else s.modCmdOf v.w (fun c => { c with
      ringWrote := addNew c.ringWrote (of_ true), ringRead := addNew c.ringRead (of_ false) })
    let m := v.exec { m with s := s } q
    { m with s := m.s.veProgress core e (issueSlots m.last q + v.portBeats q), last := some q }

/-- Instructions issued in order until one waits at its port; with what is left (R248, R356). -/
def VeEnv.runSteps (v : VeEnv) (core e : Nat) (errs : BoreErrs) : List (Nat × Nat) → VeRun → VeRun × List (Nat × Nat)
  | [], m => (m, [])
  | q :: l, m =>
    let slots := v.portSlots q
    if v.portsOpen m.s slots then v.runSteps core e errs l (v.issue core e errs m q slots) else (m, q :: l)

/-- The body that an engine runs: the one under way, or that of its VEC_RUN item, or of the VE_HELD set whose item started
first. -/
def Engine.nextBody (g : Engine) : Option (VeBody × Bool) :=
  match g.ve.body with
  | some b => some (b, false)
  | none =>
    match g.ve.item with
    | some w => some ({ item := w, set := none, left := [] }, true)
    | none => (g.oldest .veHeld).map (fun q => ({ item := q.2.2, set := some q.1, left := [], status := q.2.1.status }, true))

/-- The body has ended: its set is FREE, the statistics record is written and the item is complete. -/
def State.endBody (s : State) (core e : Nat) (v : VeEnv) (m : VeRun) (float : Bool) : State :=
  let t := (m.release core e).s
  let t := if v.fin then t.writeStats v.w.home v.c v.w.stage v.w.rt v.w.ct m.stats (stHas m.status stPOISON) else t
  let t := t.modEngine core e (fun g =>
    { g with ve := { m.ve with lastCol := if v.fin then some v.w.ct else none, item := none, body := none } })
  let stat := v.c.ringSlots v.w.stage (v.c.statRanges v.w.stage v.w.rt v.w.ct)
  let t := if v.fin then t.modCmdOf v.w (fun c => { c with
      ringWrote := addNew c.ringWrote stat, ringRead := addNew c.ringRead (s.readSlots v.c v.w float) }) else t
  t.itemDone core e v.w m.status m.maxAbs

/-- A body run as far as its ports allow: the prologue where R243 asks for it, then the body; where an instruction, or the
statistics record, waits on a ring, what is left is kept. -/
def State.runBody (s : State) (core e : Nat) (c : Cmd) (b : VeBody) (first : Bool) (errs : BoreErrs) : State :=
  let g := s.engine core e
  let a : AccSet := match b.set with | none => {} | some i => g.set i
  let v := s.veEnv c b.item a
  let (ve, pro) := if first then v.begin_ g.ve else (g.ve, false)
  let left := if first then (if pro then v.prog.proSteps else []) ++ v.prog.bodySteps else b.left
  let m0 : VeRun := { s := s, ve := ve, set := b.set, status := b.status, stats := b.stats, maxAbs := b.maxAbs
                      draw := s.draws, last := b.last }
  let (m, rest) := v.runSteps core e errs left m0
  let m := { m with s := { m.s with draws := m.draw + 1024 } }
  let stat := v.c.ringSlots v.w.stage (v.c.statRanges v.w.stage v.w.rt v.w.ct)
  if rest = [] ∧ (!v.fin ∨ !s.outStalled v.w.home (dVecH v.d) c (stat.map Prod.snd)) then
    m.s.endBody core e v m (itemFloat v.d (if dCoded v.d then s.bufRead v.w.home (c.map v.w.stage (dCbH v.d)) 0 8 else []))
  else
    let body : VeBody := { b with set := m.set, left := rest, status := m.status, stats := m.stats, maxAbs := m.maxAbs, last := m.last }
    m.s.modEngine core e (fun g => { g with ve := { m.ve with body := some body } })

/-- VE_BODY_END: the vector engine runs the body of the VE_HELD set whose item started first, or of its VEC_RUN item, to its
end, or up to a port that waits on a ring (R183, R204, R237, R243, R248, R249, R255 to R271, R283, R285, R356). -/
def execVeBodyEnd (me : EngineId) (errs : BoreErrs) (s : State) : Host.Outcome State Fault Refusal :=
  .next (if s.recovering me.core then s
  else
    match (s.engine me.core me.engine).nextBody with
    | none => s
    | some (b, first) =>
      match s.cmdOf b.item with
      | none => s.modEngine me.core me.engine (fun g => { g with ve := { g.ve with item := none, body := none } })
      | some c => State.after s (s.runBody me.core me.engine c b first errs) me.core)

/-- VEC_RUN: the router makes one work item of each run (R216 to R218, R283). -/
def execVecRun (ctx : Nat) (s : State) : Host.Outcome State Fault Refusal :=
  .next (match s.toIssue ctx 0x30 with
  | none => s
  | some (core, c) => State.after s (s.issueStage core c) core)

end Sys2Proof.Machine
end

