-- ==== Sys2Proof/Machine/Dispatch.lean ====
section
/-! DEFINITION. One arm for each command: its meaning. -/

namespace Sys2Proof.Machine

def exec (i : Instr) (s : State) : Host.Outcome State Fault Refusal :=
  match i with
  | .mediaPacket port pkt authOk => Sys2Proof.Machine.execMediaPacket port pkt authOk s
  | .unmatchedDatagram port pkt => Sys2Proof.Machine.execUnmatchedDatagram port pkt s
  | .frameReceiveDrop port why => Sys2Proof.Machine.execFrameReceiveDrop port why s
  | .rxFifoWaitTimeout port => Sys2Proof.Machine.execRxFifoWaitTimeout port s
  | .poolBufferGrant pool => Sys2Proof.Machine.execPoolBufferGrant pool s
  | .arpRequest port senderMac senderIp targetIp => Sys2Proof.Machine.execArpRequest port senderMac senderIp targetIp s
  | .neighbourSolicitation port senderMac senderIp targetIp => Sys2Proof.Machine.execNeighbourSolicitation port senderMac senderIp targetIp s
  | .icmpEchoRequest port senderIp targetIp data => Sys2Proof.Machine.execIcmpEchoRequest port senderIp targetIp data s
  | .pauseFrame port holdNs pfc => Sys2Proof.Machine.execPauseFrame port holdNs pfc s
  | .pauseExpiry port => Sys2Proof.Machine.execPauseExpiry port s
  | .portLinkChange port up => Sys2Proof.Machine.execPortLinkChange port up s
  | .chunkCloseAtBoundary stream => Sys2Proof.Machine.execChunkCloseAtBoundary stream s
  | .lateLimitExpiry stream => Sys2Proof.Machine.execLateLimitExpiry stream s
  | .stepEligible stream => Sys2Proof.Machine.execStepEligible stream s
  | .roundForm core => Sys2Proof.Machine.execRoundForm core s
  | .roundYield core => Sys2Proof.Machine.execRoundYield core s
  | .roundEndStore core prep value => Sys2Proof.Machine.execRoundEndStore core prep value s
  | .checkpointReport core => Sys2Proof.Machine.execCheckpointReport core s
  | .chunkCommit stream => Sys2Proof.Machine.execChunkCommit stream s
  | .resultDelivered port => Sys2Proof.Machine.execResultDelivered port s
  | .deadlineExpiry stream => Sys2Proof.Machine.execDeadlineExpiry stream s
  | .streamContextFree stream => Sys2Proof.Machine.execStreamContextFree stream s
  | .streamOpen choice => Sys2Proof.Machine.execStreamOpen choice s
  | .streamClose => Sys2Proof.Machine.execStreamClose s
  | .clothaRequestReceive port srcAddr srcPort msg tagOk => Sys2Proof.Machine.execClothaRequestReceive port srcAddr srcPort msg tagOk s
  | .ping => Sys2Proof.Machine.execPing s
  | .read => Sys2Proof.Machine.execRead s
  | .readTable => Sys2Proof.Machine.execReadTable s
  | .info => Sys2Proof.Machine.execInfo s
  | .write => Sys2Proof.Machine.execWrite s
  | .bulkReadDump => Sys2Proof.Machine.execBulkReadDump s
  | .bulkReadEventLog => Sys2Proof.Machine.execBulkReadEventLog s
  | .bulkReadFirmwareStaging => Sys2Proof.Machine.execBulkReadFirmwareStaging s
  | .bulkWriteFirmwareStaging => Sys2Proof.Machine.execBulkWriteFirmwareStaging s
  | .bulkWritePackageStaging segment => Sys2Proof.Machine.execBulkWritePackageStaging segment s
  | .flashCommitDone => Sys2Proof.Machine.execFlashCommitDone s
  | .partitionCreate choice => Sys2Proof.Machine.execPartitionCreate choice s
  | .partitionReady p => Sys2Proof.Machine.execPartitionReady p s
  | .partitionDestroy => Sys2Proof.Machine.execPartitionDestroy s
  | .jobSubmit => Sys2Proof.Machine.execJobSubmit s
  | .jobCancel => Sys2Proof.Machine.execJobCancel s
  | .meRelease => Sys2Proof.Machine.execMeRelease s
  | .resetCore sc => Sys2Proof.Machine.execResetCore sc s
  | .dumpRelease => Sys2Proof.Machine.execDumpRelease s
  | .restoreDefaults => Sys2Proof.Machine.execRestoreDefaults s
  | .keyEnrol check => Sys2Proof.Machine.execKeyEnrol check s
  | .keyRevoke => Sys2Proof.Machine.execKeyRevoke s
  | .decommission => Sys2Proof.Machine.execDecommission s
  | .tenantEnrol => Sys2Proof.Machine.execTenantEnrol s
  | .tenantRemove => Sys2Proof.Machine.execTenantRemove s
  | .fwVerify check => Sys2Proof.Machine.execFwVerify check s
  | .fwActivate => Sys2Proof.Machine.execFwActivate s
  | .fwActivationTimeout => Sys2Proof.Machine.execFwActivationTimeout s
  | .fwFloorRaise => Sys2Proof.Machine.execFwFloorRaise s
  | .modelStage => Sys2Proof.Machine.execModelStage s
  | .modelLoad choice => Sys2Proof.Machine.execModelLoad choice s
  | .modelRemove => Sys2Proof.Machine.execModelRemove s
  | .attRequest => Sys2Proof.Machine.execAttRequest s
  | .srtpKeyWrite => Sys2Proof.Machine.execSrtpKeyWrite s
  | .ppsEpochWrite => Sys2Proof.Machine.execPpsEpochWrite s
  | .timeSourceWrite => Sys2Proof.Machine.execTimeSourceWrite s
  | .alertClear => Sys2Proof.Machine.execAlertClear s
  | .powerDrain => Sys2Proof.Machine.execPowerDrain s
  | .drainGraceExpiry => Sys2Proof.Machine.execDrainGraceExpiry s
  | .telemetrySample map => Sys2Proof.Machine.execTelemetrySample map s
  | .mgmtRead addr len => Sys2Proof.Machine.execMgmtRead addr len s
  | .telemetryWindowRead map => Sys2Proof.Machine.execTelemetryWindowRead map s
  | .mgmtWrite addr bytes => Sys2Proof.Machine.execMgmtWrite addr bytes s
  | .readStatus => Sys2Proof.Machine.execReadStatus s
  | .writeEnable => Sys2Proof.Machine.execWriteEnable s
  | .mgmtOtherCommand command extension => Sys2Proof.Machine.execMgmtOtherCommand command extension s
  | .reqGo tagOk => Sys2Proof.Machine.execReqGo tagOk s
  | .respAck => Sys2Proof.Machine.execRespAck s
  | .ptpMessage port transport msg => Sys2Proof.Machine.execPtpMessage port transport msg s
  | .ppsInEdge => Sys2Proof.Machine.execPpsInEdge s
  | .timeSourceTimeout => Sys2Proof.Machine.execTimeSourceTimeout s
  | .holdoverExpiry => Sys2Proof.Machine.execHoldoverExpiry s
  | .ppsOutPulse => Sys2Proof.Machine.execPpsOutPulse s
  | .doorbell core prep value => Sys2Proof.Machine.execDoorbell core prep value s
  | .commandDispatch core => Sys2Proof.Machine.execCommandDispatch core s
  | .nop ctx => Sys2Proof.Machine.execNop ctx s
  | .matmul ctx => Sys2Proof.Machine.execMatmul ctx s
  | .matmulGather ctx => Sys2Proof.Machine.execMatmulGather ctx s
  | .matmulScore ctx => Sys2Proof.Machine.execMatmulScore ctx s
  | .fence ctx => Sys2Proof.Machine.execFence ctx s
  | .semWait ctx => Sys2Proof.Machine.execSemWait ctx s
  | .semSignal ctx => Sys2Proof.Machine.execSemSignal ctx s
  | .semaphoreOpApply core index => Sys2Proof.Machine.execSemaphoreOpApply core index s
  | .semWaitTimeout ctx => Sys2Proof.Machine.execSemWaitTimeout ctx s
  | .creditAcquire ctx => Sys2Proof.Machine.execCreditAcquire ctx s
  | .creditRelease ctx => Sys2Proof.Machine.execCreditRelease ctx s
  | .creditGrant target handle => Sys2Proof.Machine.execCreditGrant target handle s
  | .creditTimeout ctx => Sys2Proof.Machine.execCreditTimeout ctx s
  | .streamStart ctx => Sys2Proof.Machine.execStreamStart ctx s
  | .streamRearm ctx => Sys2Proof.Machine.execStreamRearm ctx s
  | .streamStop ctx => Sys2Proof.Machine.execStreamStop ctx s
  | .vecRun ctx => Sys2Proof.Machine.execVecRun ctx s
  | .checkpoint ctx => Sys2Proof.Machine.execCheckpoint ctx s
  | .commandComplete ctx => Sys2Proof.Machine.execCommandComplete ctx s
  | .stealGrant core engine => Sys2Proof.Machine.execStealGrant core engine s
  | .workItemStart core engine => Sys2Proof.Machine.execWorkItemStart core engine s
  | .accumulationDone me flips errs => Sys2Proof.Machine.execAccumulationDone me flips errs s
  | .segmentDone me flips addFlips errs => Sys2Proof.Machine.execSegmentDone me flips addFlips errs s
  | .mismatchAgeOut core engine => Sys2Proof.Machine.execMismatchAgeOut core engine s
  | .conversionDone me errs => Sys2Proof.Machine.execConversionDone me errs s
  | .veBodyEnd me errs => Sys2Proof.Machine.execVeBodyEnd me errs s
  | .codebookLoadStart core engine => Sys2Proof.Machine.execCodebookLoadStart core engine s
  | .codebookLoadDone me errs => Sys2Proof.Machine.execCodebookLoadDone me errs s
  | .extensionReadReturn core engine ecc => Sys2Proof.Machine.execExtensionReadReturn core engine ecc s
  | .handleEntryStore core prep addr value => Sys2Proof.Machine.execHandleEntryStore core prep addr value s
  | .pageFree core prep value => Sys2Proof.Machine.execPageFree core prep value s
  | .pageRelease p => Sys2Proof.Machine.execPageRelease p s
  | .prepFence core prep => Sys2Proof.Machine.execPrepFence core prep s
  | .linkRequest core prep tail => Sys2Proof.Machine.execLinkRequest core prep tail s
  | .linkRequestComplete p => Sys2Proof.Machine.execLinkRequestComplete p s
  | .spillPairRequest ctx => Sys2Proof.Machine.execSpillPairRequest ctx s
  | .spillWalkTimeout ctx => Sys2Proof.Machine.execSpillWalkTimeout ctx s
  | .channelPieceIssue ch errs => Sys2Proof.Machine.execChannelPieceIssue ch errs s
  | .channelPieceWritten core chan piece => Sys2Proof.Machine.execChannelPieceWritten core chan piece s
  | .poolBufferTimeout core chan => Sys2Proof.Machine.execPoolBufferTimeout core chan s
  | .hbmRequest die source addr op ecc => Sys2Proof.Machine.execHbmRequest die source addr op ecc s
  | .windchestFill slice => Sys2Proof.Machine.execWindchestFill slice s
  | .scrubStep stack ecc => Sys2Proof.Machine.execScrubStep stack ecc s
  | .eventLogCommit => Sys2Proof.Machine.execEventLogCommit s
  | .contextSwapStart ctx => Sys2Proof.Machine.execContextSwapStart ctx s
  | .contextSwapDone ctx => Sys2Proof.Machine.execContextSwapDone ctx s
  | .hangDetected core unit => Sys2Proof.Machine.execHangDetected core unit s
  | .dumpPartTimeout core part => Sys2Proof.Machine.execDumpPartTimeout core part s
  | .fenceReadExpiry core => Sys2Proof.Machine.execFenceReadExpiry core s
  | .fenceDrainComplete dom => Sys2Proof.Machine.execFenceDrainComplete dom s
  | .computeResetDone dom => Sys2Proof.Machine.execComputeResetDone dom s
  | .resume dom => Sys2Proof.Machine.execResume dom s
  | .lcServiceResume core => Sys2Proof.Machine.execLcServiceResume core s
  | .clearanceIntervalEnd stream => Sys2Proof.Machine.execClearanceIntervalEnd stream s
  | .coreResetTimeout core unit => Sys2Proof.Machine.execCoreResetTimeout core unit s
  | .dieResetTimeout u => Sys2Proof.Machine.execDieResetTimeout u s
  | .linkFlitReceive link flit => Sys2Proof.Machine.execLinkFlitReceive link flit s
  | .linkNak link lastGood => Sys2Proof.Machine.execLinkNak link lastGood s
  | .linkDown link => Sys2Proof.Machine.execLinkDown link s
  | .linkUp link => Sys2Proof.Machine.execLinkUp link s
  | .linkRetrainTimeout link => Sys2Proof.Machine.execLinkRetrainTimeout link s
  | .linkKeyExchange link peerKey sigOk peerSerial => Sys2Proof.Machine.execLinkKeyExchange link peerKey sigOk peerSerial s
  | .linkRekey link => Sys2Proof.Machine.execLinkRekey link s
  | .linkWriteMessage link msg => Sys2Proof.Machine.execLinkWriteMessage link msg s
  | .linkReadRequest link msg => Sys2Proof.Machine.execLinkReadRequest link msg s
  | .linkResponse link msg => Sys2Proof.Machine.execLinkResponse link msg s
  | .linkWriteAckTimeout link tag => Sys2Proof.Machine.execLinkWriteAckTimeout link tag s
  | .pwrEnHigh straps => Sys2Proof.Machine.execPwrEnHigh straps s
  | .pwrEnLow => Sys2Proof.Machine.execPwrEnLow s
  | .railGroupInRegulation => Sys2Proof.Machine.execRailGroupInRegulation s
  | .railSequenceTimeout => Sys2Proof.Machine.execRailSequenceTimeout s
  | .railFault rail mv => Sys2Proof.Machine.execRailFault rail mv s
  | .modRstAssert => Sys2Proof.Machine.execModRstAssert s
  | .modRstRelease straps => Sys2Proof.Machine.execModRstRelease straps s
  | .inputTrip overVolt mv => Sys2Proof.Machine.execInputTrip overVolt mv s
  | .sensorSample r => Sys2Proof.Machine.execSensorSample r s
  | .thermalTrip sensor mC => Sys2Proof.Machine.execThermalTrip sensor mC s
  | .bootRomCheck slot0 slot1 => Sys2Proof.Machine.execBootRomCheck slot0 slot1 s
  | .hbmTrainingDone allOk => Sys2Proof.Machine.execHbmTrainingDone allOk s
  | .serviceFirmwareStart slot2 slot3 journalOk parts => Sys2Proof.Machine.execServiceFirmwareStart slot2 slot3 journalOk parts s
  | .moduleReady => Sys2Proof.Machine.execModuleReady s
  | .standbySupplyUp inputMv => Sys2Proof.Machine.execStandbySupplyUp inputMv s
  | .standbySupplyLoss => Sys2Proof.Machine.execStandbySupplyLoss s
  | .pwrEnLowTimeElapsed => Sys2Proof.Machine.execPwrEnLowTimeElapsed s
  | .railGroupBelowTenPercent => Sys2Proof.Machine.execRailGroupBelowTenPercent s
  | .keptResponseExpiry keyId reqId => Sys2Proof.Machine.execKeptResponseExpiry keyId reqId s
  | .srtpKeyOverlapExpiry slot => Sys2Proof.Machine.execSrtpKeyOverlapExpiry slot s
  | .contextRecreate init => Sys2Proof.Machine.execContextRecreate init s
  | .narrowViewAccess core prep line word store ecc => Sys2Proof.Machine.execNarrowViewAccess core prep line word store ecc s
  | .nextHopReply port ip mac => Sys2Proof.Machine.execNextHopReply port ip mac s
  | .delayRequest => Sys2Proof.Machine.execDelayRequest s

end Sys2Proof.Machine
end

