-- ==== Sys2Proof/Safety.lean ====
section
/-! DEFINITION. What a safe run is, and the conditions in whose terms the statements speak: memory's canonical form, and a
request that a command takes. -/

namespace Sys2Proof.Safety

open Sys2Proof.Machine

/-- HBM is in its canonical form. -/
def HbmOk (s : State) : Prop := Memory.wf s.mem.hbm = true

/-- Every core's bore memory is in its canonical form. -/
def BoreOk (s : State) : Prop := ∀ c, Memory.wf (s.core c).bore = true

/-- Two states differ in no more than the queue of waiting commands. -/
def SameButQueue (s t : State) : Prop := { s with pending := [] } = { t with pending := [] }

/-- The dictionary answers and the first request of a kind is `r`, made by a caller `c` whose key is enrolled; `t` is the
state without it in the queue (R556, R568, R573). -/
def Takes (s : State) (k : Kind) (r : Req) (c : Caller) (t : State) : Prop :=
  s.clotha.dictReady = true ∧ ∃ l, pickReq k s.clotha.queue = some (r, l)
    ∧ t = { s with clotha := { s.clotha with queue := l } } ∧ t.caller r = some c

/-- The request taken is a WRITE of one action whose entry passes the tests that come before the action's own (R539, R714). -/
def TakesAction (s : State) (index sub : Nat) (r : Req) (c : Caller) (e : Entry) (t : State) : Prop :=
  Takes s (.action index sub) r c t ∧ r.entries = [e] ∧ t.accessTests c e.index e.sub true = none
    ∧ ∃ o, objAt e.index e.sub = some o ∧ e.typ = o.typ ∧ e.value.length = o.len

/-- The state after an action's response: sent at once, or held until what the action changed is committed (R542). -/
def answered (x : ActRes) (r : Req) (e : Entry) : State :=
  let body := entryOut e.index e.sub (typeAt e.index e.sub) false x.code x.value
  if x.commit then x.next.respondCommitted r x.code body else x.next.respond r x.code body []

end Sys2Proof.Safety
end

