-- ==== Sys2Proof/Certificates/Slice0/Obligations.lean ====
section
/-! DEFINITION. The statements about the machine. Each says which rules of the spec it formalises. -/

open Sys2Proof Sys2Proof.Machine Sys2Proof.Safety

/-! ### The block as a whole -/

/-- A step takes the command at the front of the queue and is that command's meaning on the state without it. -/
def Obligations.StepRunsFrontCommand : Prop :=
  ∀ (s : State) (c : Instr) (rest : List Instr), s.pending = c :: rest → step s = exec c { s with pending := rest }

/-- With no command waiting a step is one tick: the always-on clock counts what its own oscillator gives while the standby
supply is up; the 64-bit timebase counts a nanosecond while it runs, and at one tick in 10,000 one more or one less while an offset is slewed (R24, R611);
and nothing else changes. That an empty queue ticks is the model's choice (log entry 2). -/
def Obligations.EmptyQueueTicks : Prop :=
  ∀ s : State, s.pending = [] →
    ∃ t k, step s = .next t ∧ k ≤ 2 ∧ (k ≠ 1 → s.time.slew ≠ 0 ∧ (s.time.ticks + 1) % 10000 = 0)
      ∧ t.aon.clock = (if s.aon.phase = .unpowered then s.aon.clock else s.aon.clock + Config.aonAdvance s.draws)
      ∧ t.time.now = (if s.time.running = true ∧ k ≠ 0 then (s.time.now + k) % 2 ^ 64 else s.time.now)
      ∧ t = { s with
          aon := { s.aon with clock := t.aon.clock }
          time := { s.time with now := t.time.now, ticks := t.time.ticks, slew := t.time.slew }
          draws := s.draws + 1 }

/-- The one stop: a LINK_FLIT_RECEIVE whose operand has not 242 payload bytes is no flit (R615); every other command, and every flit,
is answered with a next state, in every state; nothing is ever refused.
The model's own readings and choices in it: log entry 1. -/
def Obligations.OnlyANonFlitStops : Prop :=
  ∀ (i : Instr) (s : State), (∃ t, exec i s = .next t)
    ∨ ∃ link flit f, i = .linkFlitReceive link flit ∧ flit.payload.length ≠ 242 ∧ exec i s = .fault f

/-- No command touches the queue of commands that wait; a step consumes the one at its front and keeps the others in their order. -/
def Obligations.StepConsumesOneCommand : Prop :=
  (∀ (i : Instr) (s t : State), exec i s = .next t → t.pending = s.pending)
  ∧ (∀ (s t : State) (c : Instr) (rest : List Instr), s.pending = c :: rest → step s = .next t → t.pending = rest)

/-- Memory is in its canonical form after reset: HBM and the bore of every core. -/
def Obligations.ResetMemoryCanonical : Prop :=
  HbmOk State.reset ∧ BoreOk State.reset

/-- Every step keeps HBM in its canonical form: addresses strictly rising, no byte listed that reads as an unlisted one. -/
def Obligations.StepKeepsHbmCanonical : Prop :=
  ∀ s t : State, HbmOk s → step s = .next t → HbmOk t

/-- Every step keeps every core's bore memory in its canonical form. -/
def Obligations.StepKeepsBoreCanonical : Prop :=
  ∀ s t : State, BoreOk s → step s = .next t → BoreOk t

/-! ### Ports (14) -/

/-- What the MAC of a port that is up drops is counted, and nothing else changes (R586): 5 for a frame that is too long, 4 for a
bad FCS, 1 for an uncorrectable codeword. A datagram that matches no row of the classification is counted as received and as
dropped by it (R590). A frame that has waited 50 µs for a buffer is dropped and counted (R593). -/
def Obligations.PortDropsAreCounted : Prop :=
  (∀ (s : State) (port : Fin 2) (why : FrameFault), (s.port port).up = true →
    exec (.frameReceiveDrop port why) s = .next (s.modPort port (fun p => { p with
      counts := p.counts.modify (match why with | .tooLong => 5 | .badFcs => 4 | .uncorrectableFec => 1) (· + 1) })))
  ∧ (∀ (s : State) (port : Fin 2) (src : IpAddr) (sport dst : Word16) (bs : List Byte), (s.port port).up = true →
      s.classify port dst bs = .other →
      exec (.unmatchedDatagram port (.udp src sport dst true bs)) s = .next (s.modPort port (fun p => { p with
        counts := (p.counts.modify 2 (· + 1)).modify 6 (· + 1) })))
  ∧ (∀ (s : State) (port : Fin 2) (f : FifoFrame) (rest : List FifoFrame), (s.port port).fifo = f :: rest →
      f.since + 50000 ≤ s.now →
      ∃ t, exec (.rxFifoWaitTimeout port) s = .next t ∧ (t.port port).fifo = rest
        ∧ (t.port port).counts = (s.port port).counts.modify 8 (· + 1) ∧ t.net.tx = s.net.tx
        ∧ t.mem = s.mem ∧ t.cores = s.cores ∧ t.persist = s.persist)

/-- A port that is up and not held answers an ARP request for its IPv4 address, a Neighbour Solicitation for one of its IPv6
addresses and, where it knows the next hop, an echo request to an address that it holds; no memory, core or persistent value
changes (R589).
The model's own readings and choices in it: log entries 82, 83, 139. -/
def Obligations.PortsAnswerNeighbours : Prop :=
  (∀ (s : State) (port : Fin 2) (mac : BitVec 48) (ip target : BitVec 32), (s.port port).up = true →
    (s.port port).holdUntil = none → (kgetD s.persist.commPort port {}).ipv4 ≠ 0 →
    target = (kgetD s.persist.commPort port {}).ipv4 →
    ∃ t, exec (.arpRequest port mac ip target) s = .next t ∧ t.net.tx = .arpReply port mac target :: s.net.tx
      ∧ t.mem = s.mem ∧ t.cores = s.cores ∧ t.persist = s.persist ∧ t.streams = s.streams)
  ∧ (∀ (s : State) (port : Fin 2) (mac : BitVec 48) (ip target : IpAddr), (s.port port).up = true →
      (s.port port).holdUntil = none → s.holdsAddr port target = true → isV4 target = false →
      ∃ t, exec (.neighbourSolicitation port mac ip target) s = .next t ∧ t.net.tx = .neighbourAdvert port mac target :: s.net.tx
        ∧ t.mem = s.mem ∧ t.cores = s.cores ∧ t.persist = s.persist ∧ t.streams = s.streams)
  ∧ (∀ (s : State) (port : Fin 2) (ip target : IpAddr) (data : List Byte), (s.port port).up = true →
      (s.port port).holdUntil = none → s.holdsAddr port target = true →
      (s.port port).hops.any (fun q => q.1 == s.nextHop port ip) = true →
      ∃ t, exec (.icmpEchoRequest port ip target data) s = .next t ∧ t.net.tx = .echoReply port ip target data :: s.net.tx
        ∧ t.mem = s.mem ∧ t.cores = s.cores ∧ t.persist = s.persist ∧ t.streams = s.streams)

/-- A PAUSE or PFC frame of a time holds the port for it and is counted; when the hold has ended nothing is held, and what
waited only for it has been sent (R588). A port that changes its link keeps nothing to send and logs the change (R585). A
next hop that the port resolves is known from then on (R589).
The model's own readings and choices in it: log entry 83. -/
def Obligations.PortHoldsLinksAndHops : Prop :=
  (∀ (s : State) (port : Fin 2) (ns : Nat) (pfc : Bool), (s.port port).up = true → 0 < ns →
    ∃ t, exec (.pauseFrame port ns pfc) s = .next t ∧ (t.port port).holdUntil = some (s.now + ns)
      ∧ (t.port port).holds = (s.port port).holds + 1 ∧ t.mem = s.mem ∧ t.cores = s.cores ∧ t.persist = s.persist)
  ∧ (∀ (s : State) (port : Fin 2) (e : Nat), (s.port port).holdUntil = some e → e ≤ s.now → (s.port port).up = true →
      ∃ t, exec (.pauseExpiry port) s = .next t ∧ (t.port port).holdUntil = none
        ∧ t.net.tx = (((s.port port).txWait.filter (fun q => q.1.isNone)).map Prod.snd).reverse ++ s.net.tx
        ∧ t.mem = s.mem ∧ t.cores = s.cores ∧ t.streams = s.streams ∧ t.persist = s.persist)
  ∧ (∀ (s : State) (port : Fin 2) (up : Bool), s.aon.phase = .running → s.aon.hubUp = true → (s.port port).up ≠ up →
      ∃ t e, exec (.portLinkChange port up) s = .next t ∧ (t.port port).up = up ∧ (t.port port).txWait = []
        ∧ (t.port port).holdUntil = none ∧ t.recov.heldEvents = s.recov.heldEvents ++ [e] ∧ e.event = 0x9001
        ∧ t.mem = s.mem ∧ t.cores = s.cores ∧ t.persist = s.persist)
  ∧ (∀ (s : State) (port : Fin 2) (ip : IpAddr) (mac : BitVec 48), (s.port port).up = true →
      ip ∈ (s.port port).resolving →
      ∃ t, exec (.nextHopReply port ip mac) s = .next t ∧ (ip, mac) ∈ (t.port port).hops
        ∧ ip ∉ (t.port port).resolving ∧ t.mem = s.mem ∧ t.cores = s.cores ∧ t.streams = s.streams)

/-- A datagram of a stream with a good checksum that finds its buffer at once is counted as received and its payload is taken
in by that stream; the first frame of a class that waits for a buffer is taken when one is granted; old SRTP keys stop being
accepted when their overlap has ended; the first packet of a stream anchors it: its timestamp and arrival fix the mapping, and
its samples wait for their chunks (R46, R590, R592, R593, R603).
The model's own readings and choices in it: log entries 23, 74, 76. -/
def Obligations.MediaIsTakenIn : Prop :=
  (∀ (s : State) (port : Fin 2) (src : IpAddr) (sport dst : Word16) (bs : List Byte) (auth : Bool) (i : Nat) (x : StreamCtx)
      (p : Package), (s.port port).up = true → s.classify port dst bs = .media i → s.stream? i = some x →
    s.pkg? x.modelSlot = some p → s.net.poolFits port 1 = true → (s.port port).fifo = [] →
    exec (.mediaPacket port (.udp src sport dst true bs) auth) s
      = .next ((s.countPort port 2).mediaIn i x p bs auth s.now))
  ∧ (∀ (s : State) (port : Fin 2) (f : FifoFrame) (rest : List FifoFrame) (src : IpAddr) (sport dst : Word16) (ok : Bool)
      (bs : List Byte), (s.port port).fifo = f :: rest → f.media = true → f.pkt = .udp src sport dst ok bs →
      s.net.poolFits port 1 = true →
      exec (.poolBufferGrant (.hub ⟨port, by omega⟩)) s
        = .next ((s.modPort port (fun p => { p with fifo := rest })).takeMedia port dst bs f.authOk f.since))
  ∧ (∀ (s : State) (slot : Fin 4096) (k : SrtpSlot) (end_ : Nat) (old : List Byte), kget? s.net.srtp slot = some k →
      k.old = some (end_, old) → end_ ≤ s.now →
      ∃ t, exec (.srtpKeyOverlapExpiry slot) s = .next t ∧ kget? t.net.srtp slot = some { k with old := none }
        ∧ t = { s with net := { s.net with srtp := t.net.srtp } })
  ∧ (∀ (s : State) (i : Nat) (x : StreamCtx) (g : PayShape) (m : MediaIn) (at_ : Nat), s.stream? i = some x → x.anchored = false →
    x.closing = false → x.arrived = [] → x.nextChunk = 0 → m.ts < 2 ^ 32 → 0 < m.data.length / g.bytes * g.step → 0 < x.units →
    ∃ y, (s.ingest i x g m at_ false).stream? i = some y ∧ y.anchored = true ∧ y.anchorNs = at_ ∧ y.firstTs = m.ts
      ∧ y.anchorTs = (m.ts : Int) + (m.data.length / g.bytes * g.step : Nat)
      ∧ y.arrived.length = 1 ∧ y.promise = x.promise ∧ y.core = x.core ∧ y.be = x.be ∧ y.chunks = x.chunks)

/-! ### Chunks, rounds and the deadline monitor (02, 10) -/

/-- A chunk whose last sample is here closes at its boundary; one whose last packet has not come closes when the late limit
has passed, at that instant; a step whose predecessors are complete enters its ready queue with the instant. The chunk that
closes is accepted with the index of the open chunk: a latency-critical one has the deadline that its promise gives from the
accepted instant, and the open chunk is the next (R13, R47 to R49, R57, R440).
The model's own readings and choices in it: log entries 74, 134. -/
def Obligations.ChunksCloseAndBecomeEligible : Prop :=
  (∀ (s : State) (i : Fin 16384) (x : StreamCtx) (g : PayShape) (at_ : Nat) (lag : Option Int), s.stream? i = some x →
    s.shapeOf x = some g → (x.lastArrival g).isSome = true → x.closeAt g s.now false = some (at_, lag) →
    exec (.chunkCloseAtBoundary i) s = .next (s.closeChunk i x g at_ lag))
  ∧ (∀ (s : State) (i : Fin 16384) (x : StreamCtx) (g : PayShape), s.stream? i = some x → s.shapeOf x = some g →
      x.lastArrival g = none → x.anchored = true → x.closing = false → x.boundary + x.lateLimit ≤ s.now →
      exec (.lateLimitExpiry i) s = .next (s.closeChunk i x g (Nat.max (x.boundary + x.lateLimit) x.lastClose) none))
  ∧ (∀ (s : State) (i : Fin 16384) (x : StreamCtx) (c : Chunk), s.stream? i = some x → x.current = some c → c.phase = .waiting →
      exec (.stepEligible i) s = .next (State.after s ((s.modChunk i c.idx (fun c => { c with phase := .ready, eligibleAt := s.now })).enqueueStep
        x.core (s.readyStepOf i x c)) x.core))
  ∧ (∀ (s : State) (i : Nat) (x : StreamCtx) (g : PayShape) (at_ : Nat) (lag : Option Int), s.stream? i = some x → x.be = false →
    ∃ y c, (s.closeChunk i x g at_ lag).stream? i = some y ∧ y.chunks = x.chunks ++ [c] ∧ c.idx = x.nextChunk
      ∧ c.accept = at_ ∧ c.deadline = at_ + x.promise ∧ y.nextChunk = x.nextChunk + 1 ∧ y.lastDeadline = at_ + x.promise
      ∧ y.promise = x.promise ∧ y.core = x.core ∧ y.be = x.be ∧ y.tenant = x.tenant ∧ y.part = x.part)

/-- A round is formed on a core that runs, for the step that its queues put first, in the first context free for it; a
best-effort round ordered to yield whose context holds nothing yields; a prep core's store of the round's number ends it (R440 to R442, R446). -/
def Obligations.RoundsFormYieldAndEnd : Prop :=
  (∀ (s : State) (core : Fin 8) (h : ReadyStep) (i : Nat) (l : List Nat) (ct : Ctx), s.recovering core = false →
    (s.orderYield core).headStep core = some h → (s.orderYield core).mayForm core h.be = true →
    (s.orderYield core).freeCtxs core h = i :: l → (s.orderYield core).ctx? i = some ct →
    exec (.roundForm core) s = .next (State.after s ((s.orderYield core).makeRound core h i ct) core))
  ∧ (∀ (s : State) (core : Fin 8) (r : Round) (ct : Ctx), s.recovering core = false → s.yieldable core = some (r, ct) →
      exec (.roundYield core) s = .next (State.after s (s.yieldRound core r ct) core))
  ∧ (∀ (s : State) (core : Fin 8) (prep : Fin 4) (v : Word64) (ct : Ctx) (part : Nat),
      s.ctx? (bits v.toNat 47 32) = some ct → s.prepPart core prep = some part → s.fenced core = false → ct.core = core →
      ct.part = part →
      exec (.roundEndStore core prep v) s = .next (State.after s ((s.progress core (112 + prep)).modCore core (fun k =>
        { k with rounds := k.rounds.map (fun r =>
          if r.ctx == bits v.toNat 47 32 && r.seq == bits v.toNat 31 0 then { r with ended := true } else r) })) core))

/-- The round made of a queue takes its steps out of the ready queue, has the earliest of their deadlines, the core's next
round number and its context; a round that yields has its steps back at the head of its core's ready queue, in their order, is
marked, and counts in the core's scheduler statistics (R440 to R442, R446, R447). -/
def Obligations.RoundsHoldAndReturnTheirSteps : Prop :=
  (∀ (s : State) (core : Nat) (h : ReadyStep) (i : Nat) (ct : Ctx),
    ∃ r, ((s.makeRound core h i ct).core core).rounds = (s.core core).rounds ++ [r] ∧ r.steps = s.fillRound core h ∧ r.ctx = i
      ∧ r.seq = (s.core core).roundSeq ∧ r.be = h.be ∧ r.formedNs = s.now
      ∧ (∀ q ∈ r.steps, h.be = false → r.deadline ≤ q.deadline)
      ∧ (∀ q ∈ ((s.makeRound core h i ct).core core).ready, q ∉ r.steps)
      ∧ (s.makeRound core h i ct).persist = s.persist ∧ (s.makeRound core h i ct).net = s.net)
  ∧ (∀ (s : State) (core : Nat) (r : Round) (ct : Ctx), r.cancelled = false →
    ((s.yieldRound core r ct).core core).ready = r.steps.map (fun q => { q with returned := true }) ++ (s.core core).ready
      ∧ (∀ q ∈ ((s.yieldRound core r ct).core core).rounds, q.seq = r.seq → q.ctx = r.ctx → q.yielded = true)
      ∧ ((s.yieldRound core r ct).core core).schedStats = (s.core core).schedStats.modify 3 (· + 1)
      ∧ (s.yieldRound core r ct).persist = s.persist ∧ (s.yieldRound core r ct).links = s.links
      ∧ (s.yieldRound core r ct).net = s.net)

/-- The deadline monitor's rule at a checkpoint (R72): a latency-critical chunk that is on its fallback already, or whose
prediction is later than 25 µs before the deadline, runs on the fallback that exists, and what optional work follows is
suppressed; another one keeps its variant, and its optional work runs exactly when the prediction with its cost still leaves the
reserve and 25 µs. For a best-effort chunk optional work is always granted (R171).
The model's own readings and choices in it: log entry 77. -/
def Obligations.CheckpointRule : Prop :=
  (∀ (onFb available follows : Bool) (pred cost d reserve : Nat), onFb = true ∨ d < pred + 25000 →
    let v := decideCkpt false onFb available follows pred cost d reserve
    v.fallback = (onFb || available) ∧ v.offAll = true ∧ (v.opt = .suppressed ↔ follows = true) ∧ v.opt ≠ .granted)
  ∧ (∀ (available follows : Bool) (pred cost d reserve : Nat), pred + 25000 ≤ d →
    let v := decideCkpt false false available follows pred cost d reserve
    v.fallback = false ∧ v.offAll = false
      ∧ (v.opt = .granted ↔ follows = true ∧ pred + cost + reserve + 25000 ≤ d)
      ∧ (v.opt = .suppressed ↔ follows = true ∧ d < pred + cost + reserve + 25000))
  ∧ (∀ (onFb available follows : Bool) (pred cost d reserve : Nat),
    let v := decideCkpt true onFb available follows pred cost d reserve
    v.fallback = onFb ∧ v.offAll = false ∧ (v.opt = .granted ↔ follows = true) ∧ v.opt ≠ .suppressed)

/-- CHECKPOINT_REPORT takes the report at the front of its core's reports, decides it, writes its decision byte at byte 3,072 + n
of the context's inbox, and leaves its command one decision less to wait for; a report without poison at a checkpoint that
guards no layer is decided by R72. CHUNK_COMMIT exchanges the two state addresses of a stream whose chunk has done all its steps, unless the
last one was poisoned, and enqueues the result; a chunk already missed of a stream that discards late results leaves none.
STREAM_CONTEXT_FREE frees a closing stream with no chunk left (R56, R71, R72, R80, R85, R509).
The model's own readings and choices in it: log entry 106. -/
def Obligations.ReportsCommitsAndFreedStreams : Prop :=
  (∀ (s : State) (core : Fin 8) (r : CkptReport) (rest : List CkptReport) (ct : Ctx), (s.core core).reports = r :: rest →
    ((s.modCore core (fun k => { k with reports := rest })).decideReport core r).1.ctx? r.ctx = some ct →
    exec (.checkpointReport core) s = .next (State.after s
      ((((s.modCore core (fun k => { k with reports := rest })).decideReport core r).1.hbmWrite (ct.inboxBase + 3072 + r.n)
        [((s.modCore core (fun k => { k with reports := rest })).decideReport core r).2] false).modCmd core r.ctx r.seq
        (fun c => { c with decisions := c.decisions - 1 })) core))
  ∧ (∀ (s : State) (core : Nat) (r : CkptReport) (x : StreamCtx) (c : Chunk) (t : CostTable) (e : CkptEntry),
      s.stream? r.stream = some x → x.chunk? r.chunk = some c → s.tableFor x r.fallback = some t → t.ckpts[r.ckpt]? = some e →
      e.safeguarded = false → r.poison = false →
      let v := decideCkpt x.be c.onFallback (s.tableFor x true).isSome e.optFollows (s.predict r.stream x c e.remPath)
        (e.optCost.getD 0) c.deadline x.reserve
      (s.decideReport core r).2 = decisionByte v.fallback v.opt .none_
        ∧ (s.decideReport core r).1.mem = s.mem ∧ (s.decideReport core r).1.persist = s.persist
        ∧ (s.decideReport core r).1.links = s.links ∧ (s.decideReport core r).1.clotha = s.clotha
        ∧ (s.decideReport core r).1.net = s.net ∧ (s.decideReport core r).1.ctxs = s.ctxs)
  ∧ (∀ (s : State) (i : Fin 16384) (x : StreamCtx) (c : Chunk), s.stream? i = some x → x.current = some c → c.phase = .done →
      c.stepPoison = false → ¬ (c.missed = true ∧ x.lateDiscard = true) →
      ∃ t y, exec (.chunkCommit i) s = .next t ∧ t.stream? i = some y ∧ y.stateAddr = x.shadowAddr ∧ y.shadowAddr = x.stateAddr
        ∧ y.onFallback = x.variantFb ∧ (∀ q ∈ y.chunks, q.idx = c.idx → q.phase = .committed ∧ q.committedAt = s.now)
        ∧ (∃ r ∈ kgetD t.streams.egress x.port [], r.stream = i ∧ r.chunk = c.idx ∧ r.deadline = c.deadline)
        ∧ t.mem = s.mem ∧ t.cores = s.cores ∧ t.persist = s.persist)
  ∧ (∀ (s : State) (i : Fin 16384) (x : StreamCtx) (c : Chunk), s.stream? i = some x → x.current = some c → c.phase = .done →
      c.stepPoison = true → ¬ (c.missed = true ∧ x.lateDiscard = true) →
      ∃ t y, exec (.chunkCommit i) s = .next t ∧ t.stream? i = some y ∧ y.stateAddr = x.stateAddr ∧ y.shadowAddr = x.shadowAddr
        ∧ (∀ q ∈ y.chunks, q.idx = c.idx → q.flags &&& 0x0100 = 0x0100)
        ∧ (∃ r ∈ kgetD t.streams.egress x.port [], r.stream = i ∧ r.chunk = c.idx ∧ r.deadline = c.deadline)
        ∧ t.mem = s.mem ∧ t.cores = s.cores ∧ t.persist = s.persist)
  ∧ (∀ (s : State) (i : Fin 16384) (x : StreamCtx) (c : Chunk), s.stream? i = some x → x.current = some c → c.phase = .done →
      c.missed = true → x.lateDiscard = true →
      ∃ t y, exec (.chunkCommit i) s = .next t ∧ t.stream? i = some y ∧ (∀ q ∈ y.chunks, q.idx ≠ c.idx)
        ∧ y.stateAddr = (if c.stepPoison then x.stateAddr else x.shadowAddr)
        ∧ y.shadowAddr = (if c.stepPoison then x.shadowAddr else x.stateAddr)
        ∧ t.streams.egress = s.streams.egress ∧ t.mem = s.mem ∧ t.cores = s.cores ∧ t.persist = s.persist)
  ∧ (∀ (s : State) (i : Fin 16384) (x : StreamCtx), s.stream? i = some x → x.closing = true → x.chunks = [] →
      ∃ t, exec (.streamContextFree i) s = .next t ∧ t.stream? i = none
        ∧ (∀ j, j ≠ i.val → t.stream? j = s.stream? j)
        ∧ (∀ g ∈ t.svc.grants, ¬(g.use = .ingressRing ∧ g.key = i.val))
        ∧ t.mem = s.mem ∧ t.net = s.net ∧ t.persist = s.persist)

/-- The oldest latency-critical chunk whose deadline has come undelivered and uncounted is a miss: it is counted for its
stream and in the total, and its record is the newest of the miss log (R80 to R82).
The model's own readings and choices in it: log entry 40. -/
def Obligations.DeadlineMissIsCounted : Prop :=
  ∀ (s : State) (i : Fin 16384) (x : StreamCtx) (c : Chunk), s.stream? i = some x → x.be = false → x.lateDiscard = false →
    x.chunks.find? (fun c => !c.missed && decide (c.deadline ≤ s.now)) = some c →
    ∃ t m l, exec (.deadlineExpiry i) s = .next t ∧ t.streams.missTotal = s.streams.missTotal + 1
      ∧ (kgetD t.streams.stats i {}).misses = (kgetD s.streams.stats i {}).misses + 1
      ∧ t.streams.missLog = m :: l ∧ m.stream = i ∧ m.chunk = c.idx ∧ m.deadline = c.deadline ∧ m.accept = c.accept
      ∧ m.deliver = none ∧ l = s.streams.missLog.take 255
      ∧ t.mem = s.mem ∧ t.cores = s.cores ∧ t.net = s.net ∧ t.persist = s.persist

/-- RESULT_DELIVERED: the result that a port serves next leaves it when the port is up and not held and the next hop is known: it
is counted as delivered for its stream, its chunk is gone, and no other stream changes; a latency-critical one that is late is a
miss unless it has been counted, and where its stream discards late results it is dropped and not counted as delivered. While the port is down
or held nothing happens, and where the next hop is not known its resolution begins. A latency-critical result goes before every
best-effort one, the earliest deadline first (R44, R58, R80, R588, R589, R596).
The model's own readings and choices in it: log entries 17, 80, 81, 141. -/
def Obligations.ResultsAreDelivered : Prop :=
  (∀ (s : State) (port : Fin 2) (r : EgressResult) (x : StreamCtx) (p : Package) (c : Chunk),
    nextResult (kgetD s.streams.egress port []) = some r → s.stream? r.stream = some x → s.pkg? x.modelSlot = some p →
    x.chunk? r.chunk = some c → (x.be = true ∨ s.now ≤ c.deadline) → (s.port port).up = true → (s.port port).holdUntil = none →
    (s.port port).hops.any (fun q => q.1 == s.nextHop port x.remoteAddr) = true →
    ∃ t y, exec (.resultDelivered port) s = .next t ∧ t.stream? r.stream = some y
      ∧ (∀ q ∈ y.chunks, q.idx ≠ c.idx)
      ∧ (kgetD t.streams.stats r.stream {}).delivered = (kgetD s.streams.stats r.stream {}).delivered + 1
      ∧ t.streams.missTotal = s.streams.missTotal
      ∧ (∀ j, j ≠ r.stream → t.stream? j = s.stream? j)
      ∧ t.mem = s.mem ∧ t.cores = s.cores ∧ t.persist = s.persist)
  ∧ (∀ (s : State) (port : Fin 2) (r : EgressResult) (x : StreamCtx) (p : Package) (c : Chunk),
      nextResult (kgetD s.streams.egress port []) = some r → s.stream? r.stream = some x → s.pkg? x.modelSlot = some p →
      x.chunk? r.chunk = some c → x.be = false → x.lateDiscard = false → c.deadline < s.now → (s.port port).up = true →
      (s.port port).holdUntil = none → (s.port port).hops.any (fun q => q.1 == s.nextHop port x.remoteAddr) = true →
      ∃ t y, exec (.resultDelivered port) s = .next t ∧ t.stream? r.stream = some y
        ∧ (∀ q ∈ y.chunks, q.idx ≠ c.idx)
        ∧ (kgetD t.streams.stats r.stream {}).delivered = (kgetD s.streams.stats r.stream {}).delivered + 1
        ∧ t.streams.missTotal = s.streams.missTotal + (if c.missed then 0 else 1)
        ∧ (∀ j, j ≠ r.stream → t.stream? j = s.stream? j)
        ∧ t.mem = s.mem ∧ t.cores = s.cores ∧ t.persist = s.persist)
  ∧ (∀ (s : State) (port : Fin 2) (r : EgressResult) (x : StreamCtx) (p : Package) (c : Chunk),
      nextResult (kgetD s.streams.egress port []) = some r → s.stream? r.stream = some x → s.pkg? x.modelSlot = some p →
      x.chunk? r.chunk = some c → x.be = false → x.lateDiscard = true → c.deadline < s.now →
      ∃ t y, exec (.resultDelivered port) s = .next t ∧ t.stream? r.stream = some y
        ∧ (∀ q ∈ y.chunks, q.idx ≠ c.idx)
        ∧ (kgetD t.streams.stats r.stream {}).delivered = (kgetD s.streams.stats r.stream {}).delivered
        ∧ t.streams.missTotal = s.streams.missTotal + (if c.missed then 0 else 1) ∧ t.net.tx = s.net.tx
        ∧ (∀ j, j ≠ r.stream → t.stream? j = s.stream? j)
        ∧ t.mem = s.mem ∧ t.cores = s.cores ∧ t.persist = s.persist)
  ∧ (∀ (s : State) (port : Fin 2) (r : EgressResult) (x : StreamCtx) (p : Package) (c : Chunk),
      nextResult (kgetD s.streams.egress port []) = some r → s.stream? r.stream = some x → s.pkg? x.modelSlot = some p →
      x.chunk? r.chunk = some c → (x.be = true ∨ x.lateDiscard = false ∨ s.now ≤ c.deadline) →
      ((s.port port).up = false ∨ (s.port port).holdUntil ≠ none → exec (.resultDelivered port) s = .next s)
      ∧ ((s.port port).up = true → (s.port port).holdUntil = none →
          (s.port port).hops.any (fun q => q.1 == s.nextHop port x.remoteAddr) = false →
          ∃ t, exec (.resultDelivered port) s = .next t ∧ s.nextHop port x.remoteAddr ∈ (t.port port).resolving
            ∧ t.streams = s.streams ∧ t.mem = s.mem ∧ t.cores = s.cores ∧ t.persist = s.persist))
  ∧ (∀ (q : List EgressResult) (r : EgressResult), nextResult q = some r → r.be = true → ∀ o ∈ q, o.held = true → o.be = true)
  ∧ (∀ (q : List EgressResult) (r : EgressResult), nextResult q = some r → r.be = false →
      ∀ o ∈ q, o.held = true → o.be = false → r.deadline ≤ o.deadline)

/-! ### Requests of the Clotha protocol (13) -/

/-- PING, READ, READ_TABLE and INFO take the first request of their kind from the queue and answer it: with nothing, with one
entry for each object asked for, with the consecutive records that fit, and with the objects' descriptions (R549, R557 to R559).
The model's own readings and choices in it: log entries 47, 48, 51. -/
def Obligations.ReadRequestsAreAnswered : Prop :=
  (∀ (s t : State) (r : Req) (c : Caller), Takes s (.read 0) r c t → exec .ping s = .next (t.respond r 0 [] []))
  ∧ (∀ (s t : State) (r : Req) (c : Caller), Takes s (.read 1) r c t →
      exec .read s = .next (t.respond r 0 (t.readBody c r.entries) []))
  ∧ (∀ (s t : State) (r : Req) (c : Caller) (e : Entry) (o : Obj), Takes s (.read 3) r c t → r.entries = [e] →
      objAt e.index e.sub = some o →
      exec .readTable s = .next (t.respond r 0 (t.tableBody c e.index o.count (leAt e.value 0 2) e.sub (bodyLimit r.via)) []))
  ∧ (∀ (s t : State) (r : Req) (c : Caller), Takes s (.read 4) r c t →
      exec .info s = .next (t.respond r 0 ((r.entries.map (fun e => infoEntry c e.index e.sub)).flatten) []))

/-- A WRITE of values, and a write of time.source, take the first request of their kind and apply it. A WRITE of which one
entry fails applies none: no persistent value, core, stream, link, clock or memory changes, and it is answered with the first
code and with each entry's own; one whose entries all pass applies them in body order (R556). One that changes a persistent
value is answered only after the commit of that value: applying it sends nothing and leaves the response with the commit (R542). -/
def Obligations.WritesAreAllOrNothing : Prop :=
  (∀ (s t : State) (r : Req) (c : Caller), Takes s .write r c t → exec .write s = .next (t.applyWrite r c))
  ∧ (∀ (s t : State) (r : Req) (c : Caller), Takes s (.action 0x1201 0) r c t → exec .timeSourceWrite s = .next (t.applyWrite r c))
  ∧ (∀ (s : State) (r : Req) (c : Caller) (code : Word16), (s.writeCodes c r.entries).find? (· != 0) = some code →
    s.applyWrite r c = s.respond r code (((r.entries.zip (s.writeCodes c r.entries)).map (fun q =>
        entryOut q.1.index q.1.sub (typeAt q.1.index q.1.sub) false q.2 [])).flatten) []
      ∧ (s.applyWrite r c).persist = s.persist ∧ (s.applyWrite r c).flash = s.flash ∧ (s.applyWrite r c).streams = s.streams
      ∧ (s.applyWrite r c).cores = s.cores ∧ (s.applyWrite r c).mem = s.mem ∧ (s.applyWrite r c).links = s.links
      ∧ (s.applyWrite r c).time = s.time ∧ (s.applyWrite r c).aon = s.aon ∧ (s.applyWrite r c).recov = s.recov
      ∧ (s.applyWrite r c).svc = s.svc ∧ (s.applyWrite r c).ctxs = s.ctxs ∧ (s.applyWrite r c).clotha.commits = s.clotha.commits)
  ∧ (∀ (s t : State) (r : Req) (c : Caller), (s.writeCodes c r.entries).find? (· != 0) = none →
      t = r.entries.foldl (fun t e => t.writeObj e.index e.sub e.value) s →
      (s.applyWrite r c).persist = t.persist ∧ (s.applyWrite r c).streams = t.streams ∧ (s.applyWrite r c).cores = t.cores
        ∧ (s.applyWrite r c).mem = t.mem ∧ (s.applyWrite r c).links = t.links ∧ (s.applyWrite r c).time = t.time
        ∧ (s.applyWrite r c).aon = t.aon ∧ (s.applyWrite r c).recov = t.recov ∧ (s.applyWrite r c).svc = t.svc
        ∧ (s.applyWrite r c).ctxs = t.ctxs)
  ∧ ∀ (s t : State) (r : Req) (c : Caller), (s.writeCodes c r.entries).find? (· != 0) = none →
    t = r.entries.foldl (fun t e => t.writeObj e.index e.sub e.value) s → t.persist ≠ s.persist →
    (s.applyWrite r c).persist = t.persist ∧ (s.applyWrite r c).net = t.net ∧ (s.applyWrite r c).flash = t.flash
      ∧ ∃ k m, (s.applyWrite r c).clotha.commits = t.clotha.commits ++ [k] ∧ k.snap = t.persist ∧ k.answer = some m
          ∧ m.reqId = r.reqId ∧ m.keyId = r.keyId ∧ m.code = 0

/-- A response over the management port: the response mailbox holds the header and the body, RESP_VALID is 1 and REQ_BUSY 0,
and the bulk window holds the data; a response, and the answer of an action at once or with its commit, change no part but the
protocol's own state, the ports and the draws of free tag bytes (R542, R548, R567, R714).
The model's own readings and choices in it: log entries 6, 17, 48. -/
def Obligations.ResponsesChangeNothingElse : Prop :=
  (∀ (s : State) (r : Req) (code : Word16) (body bulk : List Byte), r.via = .mgmt → body.length ≤ 4000 →
    s.clotha.kept.find? (fun k => k.req.keyId == r.keyId && k.req.reqId == r.reqId && k.resp.isNone) = none →
    (s.respond r code body bulk).clotha.respBox.take (32 + body.length) = (r.msg s.now code body bulk true).head
      ∧ (s.respond r code body bulk).clotha.respValid = true ∧ (s.respond r code body bulk).clotha.reqBusy = false
      ∧ (s.respond r code body bulk).clotha.bulk = bulk ∧ (s.respond r code body bulk).net = s.net)
  ∧ (∀ (s : State) (r : Req) (code : Word16) (body bulk : List Byte),
      (s.respond r code body bulk).persist = s.persist ∧ (s.respond r code body bulk).flash = s.flash
        ∧ (s.respond r code body bulk).streams = s.streams ∧ (s.respond r code body bulk).cores = s.cores
        ∧ (s.respond r code body bulk).mem = s.mem ∧ (s.respond r code body bulk).links = s.links
        ∧ (s.respond r code body bulk).time = s.time ∧ (s.respond r code body bulk).aon = s.aon
        ∧ (s.respond r code body bulk).recov = s.recov ∧ (s.respond r code body bulk).svc = s.svc
        ∧ (s.respond r code body bulk).ctxs = s.ctxs)
  ∧ (∀ (x : ActRes) (r : Req) (e : Entry),
    (answered x r e).persist = x.next.persist ∧ (answered x r e).flash = x.next.flash
      ∧ (answered x r e).streams = x.next.streams ∧ (answered x r e).cores = x.next.cores ∧ (answered x r e).mem = x.next.mem
      ∧ (answered x r e).links = x.next.links ∧ (answered x r e).time = x.next.time ∧ (answered x r e).aon = x.next.aon
      ∧ (answered x r e).recov = x.next.recov ∧ (answered x r e).svc = x.next.svc ∧ (answered x r e).ctxs = x.next.ctxs)

/-- A message to the Clotha port of a port that is up is received while the firmware answers: an authentic one with a counter
never accepted and no kept response is queued last; one whose counter has been accepted, or lies below the window, is not
queued (R553 to R555, R562).
The model's own readings and choices in it: log entries 43, 44, 45. -/
def Obligations.RequestsAreReceived : Prop :=
  (∀ (s : State) (port : Fin 2) (src : IpAddr) (sport : Word16) (msg : List Byte) (ok : Bool), (s.port port).up = true →
    (kgetD s.persist.commPort port {}).clothaOn ≠ 0 → s.clotha.dictReady = true → s.net.poolFits (2 + port) 1 = true →
    (s.port port).fifo = [] →
    exec (.clothaRequestReceive port src sport msg ok) s = .next ((s.countPort port 2).receive (.udp port src sport) msg ok))
  ∧ (∀ (s : State) (via : Via) (msg : List Byte) (n : Nat) (k k' : KeyRec), 96 ≤ msg.length →
      s.findKey via (leAt (slice msg 0 32) 4 2) = some (n, k) → k.count (leAt (slice msg 0 32) 8 8) = .fresh k' →
      msgTests via (slice msg 0 32) ((msg.drop 32).take (msg.length - 96)) = none →
      (∀ q ∈ s.clotha.kept, ¬(q.req.keyId = leAt (slice msg 0 32) 4 2 ∧ q.req.reqId = leAt (slice msg 0 32) 16 4)) →
      (via = .mgmt ∨ s.reqsOf via.no < 256) →
      ∃ r, (s.receive via msg true).clotha.queue = s.clotha.queue ++ [r] ∧ r.via = via ∧ r.keyId = leAt (slice msg 0 32) 4 2
        ∧ r.opcode = leAt (slice msg 0 32) 1 1 ∧ r.reqId = leAt (slice msg 0 32) 16 4
        ∧ r.body = (msg.drop 32).take (msg.length - 96))
  ∧ (∀ (s : State) (via : Via) (msg : List Byte) (n : Nat) (k : KeyRec),
      s.findKey via (leAt (slice msg 0 32) 4 2) = some (n, k) →
      (k.count (leAt (slice msg 0 32) 8 8) = .seen ∨ k.count (leAt (slice msg 0 32) 8 8) = .tooOld) →
      (s.receive via msg true).clotha.queue = s.clotha.queue ∧ (s.receive via msg true).persist = s.persist)

/-- The counter window (R553, R554): a counter above the highest accepted one is accepted and becomes the highest; one 64 or more
below it is too old; and once a counter has been accepted the same counter is never accepted again.
The model's own readings and choices in it: log entry 44. -/
def Obligations.CounterWindow : Prop :=
  (∀ (k : KeyRec) (c : Nat), k.high < c → ∃ k', k.count c = .fresh k' ∧ k'.high = c)
  ∧ (∀ (k : KeyRec) (c : Nat), c + 64 ≤ k.high → k.count c = .tooOld)
  ∧ (∀ (k k' : KeyRec) (c : Nat), k.count c = .fresh k' → k'.count c = .seen ∧ k.high ≤ k'.high)

/-- A response that has been kept for 10 s is forgotten, and no other is (R555). The oldest commit completes: the values that
it took are in flash, and the next stands first; a shutdown record that waits is committed before it (R542, R684, R687). -/
def Obligations.KeptResponsesAndCommits : Prop :=
  (∀ (s : State) (key : Word16) (req : Word32),
    ∃ t, exec (.keptResponseExpiry key req) s = .next t
      ∧ (∀ k, k ∈ t.clotha.kept ↔ k ∈ s.clotha.kept ∧ ¬(k.req.keyId = key.toNat ∧ k.req.reqId = req.toNat ∧ k.resp.isSome = true
          ∧ k.since + 10000000000 ≤ s.now))
      ∧ t = { s with clotha := { s.clotha with kept := t.clotha.kept } })
  ∧ (∀ (s : State) (c : Commit) (l : List Commit), s.aon.pending = none → s.clotha.commits = c :: l →
      ∃ t, exec .flashCommitDone s = .next t ∧ t.flash = c.snap ∧ t.clotha.commits = l ∧ t.persist = s.persist
        ∧ t.mem = s.mem ∧ t.cores = s.cores ∧ t.streams = s.streams)
  ∧ (∀ (s : State) (r : ShutdownRec), s.aon.pending = some r →
      ∃ t, exec .flashCommitDone s = .next t ∧ t.flash.lastShutdown = r ∧ t.persist.lastShutdown = r ∧ t.aon.pending = none
        ∧ t.clotha.commits = s.clotha.commits ∧ t.mem = s.mem)

/-- The bulk requests are answered: bytes of a crash-dump slot, of the event log and of a firmware slot are read by the operator
and the baseboard controller; bytes written to a firmware slot that is not active are staged in it and committed, bytes written
to a package's staging region are staged in its slot (R560, R561, R647, R653).
The model's own readings and choices in it: log entries 49, 50, 63, 72. -/
def Obligations.BulkRequestsAreServed : Prop :=
  (∀ (s t : State) (r : Req) (c : Caller), Takes s (.bulk false 1) r c t → c.opOrBoard = true →
    exec .bulkReadDump s = .next (t.answerRead r (bulkOf r.body) (bulkOf r.body).offset false
      (slice (kgetD t.recov.dumps (bulkOf r.body).selector {}).image (bulkOf r.body).offset
        (Nat.min (bulkOf r.body).length (147456 - (bulkOf r.body).offset)))))
  ∧ (∀ (s t : State) (r : Req) (c : Caller), Takes s (.bulk false 2) r c t → c.opOrBoard = true →
      exec .bulkReadEventLog s = .next (t.answerRead r (bulkOf r.body) (t.recov.logStart (bulkOf r.body).offset).1
        (t.recov.logStart (bulkOf r.body).offset).2
        (t.recov.logBytes (t.recov.logStart (bulkOf r.body).offset).1 (bulkOf r.body).length)))
  ∧ (∀ (s t : State) (r : Req) (c : Caller), Takes s (.bulk false 3) r c t → c.opOrBoard = true →
      exec .bulkReadFirmwareStaging s = .next (t.answerRead r (bulkOf r.body) (bulkOf r.body).offset false
        ((t.persist.fwSlot (bulkOf r.body).selector).bytesAt (bulkOf r.body).selector (bulkOf r.body).offset
          (Nat.min (bulkOf r.body).length (slotBytes (bulkOf r.body).selector - (bulkOf r.body).offset)))))
  ∧ (∀ (s t : State) (r : Req) (c : Caller), Takes s (.bulk true 3) r c t → c.opOrBoard = true →
      (bulkOf r.body).offset + (bulkOf r.body).length ≤ slotBytes (bulkOf r.body).selector →
      (t.persist.fwSlot (bulkOf r.body).selector).state ≠ 3 →
      ∃ u : State, exec .bulkWriteFirmwareStaging s = .next u
        ∧ u.persist = { t.persist with fwSlots := (kset t.persist.fwSlots (bulkOf r.body).selector
            ((t.persist.fwSlot (bulkOf r.body).selector).stage (bulkOf r.body).offset ((r.body.drop 16).take (bulkOf r.body).length))) }
        ∧ (∃ k, u.clotha.commits = t.clotha.commits ++ [k] ∧ k.snap = u.persist ∧ k.answer = none)
        ∧ u.mem = s.mem ∧ u.cores = s.cores ∧ u.streams = s.streams)
  ∧ (∀ (s t : State) (r : Req) (c : Caller) (m : ModelSlot) (g : Option SegmentDone), Takes s (.bulk true 4) r c t →
      (c.role = 1 ∨ (c.role = 2 ∧ t.partTenant m.part = some c.tenant)) →
      t.model? (bulkOf r.body).selector = some m → m.state = 1 →
      exec (.bulkWritePackageStaging g) s = .next (((t.modModel (bulkOf r.body).selector
        (·.stage (bulkOf r.body).offset ((r.body.drop 16).take (bulkOf r.body).length) g)).placeSegment m.part g).respond r 0
          ((bulkOf r.body).head (bulkOf r.body).length (bulkOf r.body).offset false) []))
  ∧ (∀ (s : State) (part : Nat) (g : SegmentDone),
      ((g.ok = true ∧ s.ownedBy part g.addr g.plain.length = true ∧ s.granted .packageEngine g.addr g.plain.length true = true) →
        (s.placeSegment part (some g)).mem.hbm = wrBytes s.mem.hbm g.addr g.plain)
      ∧ (¬ (g.ok = true ∧ s.ownedBy part g.addr g.plain.length = true ∧ s.granted .packageEngine g.addr g.plain.length true = true) →
        s.placeSegment part (some g) = s))

/-! ### Actions (02, 10, 12, 13) -/

/-- An open that passes its tests takes the lowest-numbered stream context that is free, with the home core and the variant that
admission found, and is answered; a close of an open stream makes it closing and changes no other; a refused open opens nothing:
no stream, reservation or persistent value changes (R62 to R65, R84, R86).
The model's own readings and choices in it: log entries 7, 66, 133, 135. -/
def Obligations.StreamsOpenAndClose : Prop :=
  (∀ (s t : State) (ch : OpenChoice) (r : Req) (c : Caller) (e : Entry) (x : Placement) (i : Nat),
    TakesAction s 0x2000 1 r c e t → t.openTests c e.value = none → t.admission (t.openReq e.value) = .inr x →
    i < 16384 → t.stream? i = none → (∀ j, j < i → (t.stream? j).isSome = true) →
    grantsOk (t.persist.extentsOf (t.openReq e.value).part) [t.ringGrant i (t.openCtx e.value x ch)] = true →
    ∃ u : State, exec (.streamOpen ch) s = .next u ∧ u.stream? i = some (t.openCtx e.value x ch)
      ∧ (∀ j, j ≠ i → u.stream? j = s.stream? j) ∧ u.mem = s.mem ∧ u.persist = s.persist
      ∧ u = answered { code := 0, next := (t.openStream ch e.value).next, value := (t.openStream ch e.value).value } r e)
  ∧ (∀ (s t : State) (r : Req) (c : Caller) (e : Entry) (x : StreamCtx), TakesAction s 0x2000 2 r c e t →
      leAt e.value 0 2 < 16384 → leAt e.value 0 2 ∉ t.streams.lost → t.stream? (leAt e.value 0 2) = some x →
      c.foreign x.tenant = false → x.closing = false →
      ∃ u : State, exec .streamClose s = .next u ∧ u.stream? (leAt e.value 0 2) = some { x with closing := true, arrived := [] }
        ∧ (∀ j, j ≠ leAt e.value 0 2 → u.stream? j = s.stream? j) ∧ u.mem = s.mem ∧ u.cores = s.cores ∧ u.persist = s.persist
        ∧ u = answered { code := 0, next := t.modStream (leAt e.value 0 2) StreamCtx.close } r e)
  ∧ (∀ (s t : State) (ch : OpenChoice) (r : Req) (c : Caller) (e : Entry) (code : Word16),
    TakesAction s 0x2000 1 r c e t → t.openTests c e.value = none → t.admission (t.openReq e.value) = .inl code →
    ∃ u : State, exec (.streamOpen ch) s = .next u ∧ u.streams.ctx = s.streams.ctx ∧ u.streams.egress = s.streams.egress
      ∧ u.persist = s.persist ∧ u.cores = s.cores ∧ u.mem = s.mem ∧ u.links = s.links)
  ∧ (∀ (s t : State) (ch : OpenChoice) (r : Req) (c : Caller) (e : Entry) (x : Placement),
      TakesAction s 0x2000 1 r c e t → t.openTests c e.value = none → t.admission (t.openReq e.value) = .inr x →
      grantsOk (t.persist.extentsOf (t.openReq e.value).part) [t.ringGrant t.freeStreamId (t.openCtx e.value x ch)] = false →
      exec (.streamOpen ch) s = .next (answered { code := secNOT_GRANTED, next := t } r e))

/-- A consistent job is taken in the lowest free job slot and its identifier answered; a job that runs and is cancelled ends in
state 4 (R455 to R457).
The model's own readings and choices in it: log entry 65. -/
def Obligations.JobsAreSubmittedAndCancelled : Prop :=
  (∀ (s t : State) (r : Req) (c : Caller) (e : Entry) (m : ModelSlot) (p : Package) (slot : Nat),
    TakesAction s 0x4010 1 r c e t → recBits e.value 23 19 = 0 → recBits e.value 63 48 = 0 → recBits e.value 127 104 = 0 →
    recBits e.value 255 192 = 0 → recBits e.value 95 64 ≠ 0 → c.foreign (recBits e.value 15 0) = false → t.aon.drain = 0 →
    t.jobModel e.value = some (m, p) → t.quotaHolds (recBits e.value 18 16) m.die (recBits e.value 191 128) = true →
    t.freeJobSlot = some slot →
    exec .jobSubmit s = .next (answered { code := 0, next := t.submitJob e.value slot p, value := toLe 2 (slot + 1) } r e))
  ∧ (∀ (s t : State) (r : Req) (c : Caller) (e : Entry) (j : Job), TakesAction s 0x4010 2 r c e t → leAt e.value 0 2 ≠ 0 →
      t.job? (leAt e.value 0 2) = some j → c.foreign j.tenant = false → (j.state = 1 ∨ j.state = 2) →
      ∃ (u : State) (k : _), exec .jobCancel s = .next u ∧ u.job? (leAt e.value 0 2) = some k ∧ k.state = 4 ∧ k.tenant = j.tenant
        ∧ u.persist = s.persist ∧ u.mem = s.mem ∧ u.streams = s.streams)

/-- A partition that passes the tests of R429 exists afterwards, with its record; it is ready once firmware has made it ready;
a partition without streams, jobs and commands in flight is destroyed and frees its extents, its models and its contexts
(R428 to R431).
The model's own readings and choices in it: log entries 7, 68, 135. -/
def Obligations.PartitionsAreCreatedAndDestroyed : Prop :=
  (∀ (s t : State) (ch : PartChoice) (r : Req) (c : Caller) (e : Entry), TakesAction s 0x3000 1 r c e t →
    t.partTests e.value (partRecOf e.value t.now ch) = none → t.persist.extentsOk (partRecOf e.value t.now ch) ch.extents = true →
    t.choiceOk (partRecOf e.value t.now ch) ch ch.extents = true →
    grantsOk ch.extents (partGrants (recBits e.value 2 0) ch ++ (ch.sysCtxs.map (ctxGrants (recBits e.value 2 0))).flatten) = true →
    ∃ u : State, exec (.partitionCreate ch) s = .next u
      ∧ kget? u.persist.parts (recBits e.value 2 0) = some (partRecOf e.value t.now ch)
      ∧ (∀ n, n ≠ recBits e.value 2 0 → kget? u.persist.parts n = kget? s.persist.parts n)
      ∧ u.streams = s.streams ∧ u.links = s.links ∧ u.flash = s.flash)
  ∧ (∀ (s : State) (p : Fin 8) (n : Nat), kget? s.svc.partSince p = some n →
      exec (.partitionReady p) s = .next { s with svc := { s.svc with
        partReady := nins s.svc.partReady p, partSince := kdel s.svc.partSince p } })
  ∧ (∀ (s t : State) (r : Req) (c : Caller) (e : Entry) (p : PartRec), TakesAction s 0x3000 2 r c e t → leAt e.value 0 1 < 8 →
      kget? t.persist.parts (leAt e.value 0 1) = some p → t.coresBusy p.cores = false →
      ∃ u : State, exec .partitionDestroy s = .next u ∧ kget? u.persist.parts (leAt e.value 0 1) = none
        ∧ (∀ q ∈ u.persist.extents, q.2 ≠ leAt e.value 0 1) ∧ (∀ q ∈ u.svc.models, q.2.part ≠ leAt e.value 0 1)
        ∧ u.streams = s.streams ∧ u.links = s.links ∧ u.flash = s.flash)

/-- A package is staged in a slot that is absent and for whose bytes the partition has room on the die, with its partition, die and
an allocation of that many free bytes of the partition's own extents, which is granted to the package engine; a staged package that passes the tests
of R654 becomes resident; a resident model that no stream and no job uses is removed, and its slot is absent (R652, R654).
The model's own readings and choices in it: log entries 7, 12, 63, 135, 144. -/
def Obligations.ModelsAreStagedLoadedRemoved : Prop :=
  (∀ (s t : State) (r : Req) (c : Caller) (e : Entry) (p : PartRec), TakesAction s 0x3010 1 r c e t →
    zeroAt e.value 3 1 = true → zeroAt e.value 6 2 = true → leAt e.value 0 1 < 64 → leAt e.value 1 1 < 8 → leAt e.value 2 1 < 2 →
    kget? t.persist.parts (leAt e.value 1 1) = some p → c.foreign p.tenant = false → t.aon.drain = 0 →
    t.model? (leAt e.value 0 1) = none → coresOnDie p.cores (leAt e.value 2 1) ≠ [] →
    t.quotaHolds (leAt e.value 1 1) (leAt e.value 2 1) (leAt e.value 8 8) = true →
    t.allocOk (leAt e.value 0 1) (leAt e.value 1 1) (leAt e.value 2 1) (leAt e.value 8 8)
      (t.lowestFree (leAt e.value 1 1) (leAt e.value 2 1) (leAt e.value 8 8)) = true →
    ∃ (u : State) (m : _), exec .modelStage s = .next u ∧ u.model? (leAt e.value 0 1) = some m ∧ m.state = 1 ∧ m.modelId = leAt e.value 4 2
      ∧ m.part = leAt e.value 1 1 ∧ m.die = leAt e.value 2 1 ∧ m.bytes = leAt e.value 8 8
      ∧ t.allocOk (leAt e.value 0 1) (leAt e.value 1 1) (leAt e.value 2 1) (leAt e.value 8 8) m.alloc = true
      ∧ u.svc.grants = t.svc.grants ++ stageGrants (leAt e.value 0 1) (leAt e.value 1 1) m.alloc
      ∧ u.mem = s.mem ∧ u.cores = s.cores ∧ u.persist = s.persist)
  ∧ (∀ (s t : State) (ch : LoadChoice) (r : Req) (c : Caller) (e : Entry) (m : ModelSlot), TakesAction s 0x3010 2 r c e t →
      leAt e.value 0 1 < 64 → t.foreignSlot c (leAt e.value 0 1) = false → t.aon.drain = 0 →
      t.model? (leAt e.value 0 1) = some m → m.state = 1 → t.loadTests m (m.package ch.pkg) ch.sigOk ch.segsOk = none →
      t.modelCtxsOk m (m.package ch.pkg) ch.ctxs = true → t.loadGranted m (leAt e.value 0 1) (m.package ch.pkg) ch.ctxs = true →
      ∃ (u : State) (k : _), exec (.modelLoad ch) s = .next u ∧ u.model? (leAt e.value 0 1) = some k ∧ k.state = 2
        ∧ k.pkg = some (m.package ch.pkg) ∧ k.modelId = m.modelId ∧ k.part = m.part
        ∧ u.persist = s.persist ∧ u.mem = s.mem ∧ u.streams = s.streams)
  ∧ (∀ (s t : State) (r : Req) (c : Caller) (e : Entry) (m : ModelSlot), TakesAction s 0x3010 3 r c e t →
      t.model? (leAt e.value 0 1) = some m → t.foreignSlot c (leAt e.value 0 1) = false →
      (∀ q ∈ t.streams.ctx, q.2.modelSlot ≠ leAt e.value 0 1) → t.svc.jobs = [] →
      ∃ u : State, exec .modelRemove s = .next u ∧ u.model? (leAt e.value 0 1) = none ∧ u.streams = s.streams ∧ u.persist = s.persist)

/-- Engines of a mask return to service and their core's other engines keep their state; a core that runs starts its compute
reset when the operator asks; a dump slot is released; with no partition the persistent objects that have defaults take them
(R232, R521, R524, R545).
The model's own readings and choices in it: log entry 68. -/
def Obligations.RecoveryActions : Prop :=
  (∀ (s t : State) (r : Req) (c : Caller) (e : Entry), TakesAction s 0x8013 0 r c e t →
    ∃ u : State, exec .meRelease s = .next u
      ∧ kgetD u.persist.quarantine (coreOf e.index) 0 = kgetD s.persist.quarantine (coreOf e.index) 0 &&& (0xFFFF ^^^ leAt e.value 0 2)
      ∧ (∀ k, k ≠ coreOf e.index → kgetD u.persist.quarantine k 0 = kgetD s.persist.quarantine k 0)
      ∧ u.mem = s.mem ∧ u.streams = s.streams ∧ u.links = s.links)
  ∧ (∀ (s t : State) (sc : Fin 4) (r : Req) (c : Caller) (e : Entry), TakesAction s 0x6010 0 r c e t → leAt e.value 0 1 < 8 →
      t.recovering (leAt e.value 0 1) = false →
      exec (.resetCore sc) s = .next (answered { code := 0, next := t.requestReset (leAt e.value 0 1) sc } r e))
  ∧ (∀ (s t : State) (r : Req) (c : Caller) (e : Entry) (d : Dump), TakesAction s 0x6021 0 r c e t → leAt e.value 0 1 < 16 →
      kget? t.recov.dumps (leAt e.value 0 1) = some d →
      ∃ u : State, exec .dumpRelease s = .next u ∧ kget? u.recov.dumps (leAt e.value 0 1) = some { d with locked := false }
        ∧ (∀ i, i ≠ leAt e.value 0 1 → kget? u.recov.dumps i = kget? s.recov.dumps i)
        ∧ u.mem = s.mem ∧ u.cores = s.cores ∧ u.persist = s.persist)
  ∧ (∀ (s t : State) (r : Req) (c : Caller) (e : Entry), TakesAction s 0x1400 0 r c e t → leAt e.value 0 1 = 0x5A →
      t.persist.parts = [] →
      ∃ u : State, exec .restoreDefaults s = .next u ∧ u.persist = t.persist.restored ∧ u.persist.headroom = 64
        ∧ u.persist.windowNs = 100000 ∧ u.persist.keys = s.persist.keys ∧ u.persist.quarantine = s.persist.quarantine
        ∧ u.mem = s.mem)

/-- A key that passes its tests is enrolled with a counter of zero; a key is removed, and what it has queued is marked; with no
partition every key and tenant record is destroyed and a new wrap key made; an enrolled tenant's package key is replaced (R634 to
R639). A tenant that owns a partition is refused with ACC_BUSY and nothing else changes; one that owns none is removed: its keys
are gone, its SRTP slots are cleared and its record is gone (R640). -/
def Obligations.KeysAndTenants : Prop :=
  (∀ (s t : State) (k : EnrolCheck) (r : Req) (c : Caller) (e : Entry) (n : Nat), TakesAction s 0x7002 1 r c e t →
    t.enrolTests c e.value k.unwrapOk = none → t.persist.freeKeyRec = some n →
    ∃ (u : State) (q : _), exec (.keyEnrol k) s = .next u ∧ kget? u.persist.keys n = some q ∧ q.keyId = leAt e.value 0 2
      ∧ q.role = leAt e.value 2 1 ∧ q.tenant = leAt e.value 4 2 ∧ q.high = 0 ∧ q.enrolledNs = s.now
      ∧ (∀ j, j ≠ n → kget? u.persist.keys j = kget? s.persist.keys j) ∧ u.flash = s.flash ∧ u.mem = s.mem)
  ∧ (∀ (s t : State) (r : Req) (c : Caller) (e : Entry) (q : Nat × KeyRec), TakesAction s 0x7002 2 r c e t →
      t.persist.keys.find? (fun q => q.2.keyId == leAt e.value 0 2) = some q → c.role = 1 → q.2.role ≠ 1 →
      ∃ u : State, exec .keyRevoke s = .next u ∧ (∀ p ∈ u.persist.keys, p.2.keyId ≠ leAt e.value 0 2)
        ∧ (∀ p ∈ s.persist.keys, p.2.keyId ≠ leAt e.value 0 2 → p ∈ u.persist.keys)
        ∧ (∀ k ∈ u.clotha.queue, k.keyId = leAt e.value 0 2 → k.revoked = true) ∧ u.mem = s.mem)
  ∧ (∀ (s t : State) (r : Req) (c : Caller) (e : Entry), TakesAction s 0x7002 3 r c e t → leAt e.value 0 1 = 0xA5 →
      t.persist.parts = [] →
      ∃ u : State, exec .decommission s = .next u ∧ u.persist.keys = [] ∧ u.persist.tenants = [] ∧ u.net.srtp = []
        ∧ u.persist.wrapGen = s.persist.wrapGen + 1 ∧ u.flash = s.flash)
  ∧ (∀ (s t : State) (r : Req) (c : Caller) (e : Entry) (n : Nat) (q : TenantRec), TakesAction s 0x7004 1 r c e t →
      zeroAt e.value 2 6 = true → zeroAt e.value 141 3 = true →
      t.persist.tenants.find? (fun q => q.2.tenant == leAt e.value 0 2) = some (n, q) →
      ∃ u : State, exec .tenantEnrol s = .next u ∧ kget? u.persist.tenants n = some { q with pkgKey := slice e.value 8 133 }
        ∧ (∀ j, j ≠ n → kget? u.persist.tenants j = kget? s.persist.tenants j) ∧ u.mem = s.mem ∧ u.flash = s.flash)
  ∧ (∀ (s t : State) (r : Req) (c : Caller) (e : Entry) (n : Nat) (q : TenantRec), TakesAction s 0x7004 2 r c e t →
      t.persist.tenants.find? (fun q => q.2.tenant == leAt e.value 0 2) = some (n, q) →
      (∀ p ∈ t.persist.parts, p.2.tenant ≠ leAt e.value 0 2) →
      ∃ u : State, exec .tenantRemove s = .next u ∧ kget? u.persist.tenants n = none
        ∧ (∀ k ∈ u.persist.keys, ¬(k.2.role = 2 ∧ k.2.tenant = leAt e.value 0 2))
        ∧ (∀ k ∈ u.net.srtp, k.2.owner ≠ leAt e.value 0 2) ∧ u.mem = s.mem ∧ u.flash = s.flash)
  ∧ (∀ (s t : State) (r : Req) (c : Caller) (e : Entry) (n : Nat) (q : TenantRec), TakesAction s 0x7004 2 r c e t →
      t.persist.tenants.find? (fun q => q.2.tenant == leAt e.value 0 2) = some (n, q) →
      (∃ p ∈ t.persist.parts, p.2.tenant = leAt e.value 0 2) →
      exec .tenantRemove s = .next (answered { code := accBUSY, next := t } r e))

/-- A staged image that passes its tests is verified; a verified slot becomes active; an activation whose firmware does not
answer within 10 s is undone; a floor never falls; and a report starts with its version and length (R642, R648 to R650, R656).
The model's own readings and choices in it: log entries 69, 70. -/
def Obligations.FirmwareAndAttestation : Prop :=
  (∀ (s t : State) (k : ImageCheck) (r : Req) (c : Caller) (e : Entry), TakesAction s 0x7006 1 r c e t → leAt e.value 0 1 < 4 →
    t.persist.imageTest (leAt e.value 0 1) k = none → (t.persist.fwSlot (leAt e.value 0 1)).state = 1 →
    ∃ u : State, exec (.fwVerify k) s = .next u ∧ (u.persist.fwSlot (leAt e.value 0 1)).state = 2
      ∧ (∀ j, j ≠ leAt e.value 0 1 → u.persist.fwSlot j = s.persist.fwSlot j) ∧ u.mem = s.mem ∧ u.flash = s.flash)
  ∧ (∀ (s t : State) (r : Req) (c : Caller) (e : Entry), TakesAction s 0x7006 2 r c e t → leAt e.value 0 1 < 4 →
      (t.persist.fwSlot (leAt e.value 0 1)).state = 2 →
      ∃ u : State, exec .fwActivate s = .next u ∧ (u.persist.fwSlot (leAt e.value 0 1)).state = 3
        ∧ (u.persist.fwSlot (leAt e.value 0 1 ^^^ 1)).state ≠ 3 ∧ (2 ≤ leAt e.value 0 1 → u.svc.sfRunning = false)
        ∧ u.mem = s.mem ∧ u.cores = s.cores ∧ u.flash = s.flash)
  ∧ (∀ (s : State) (new prev t0 : Nat), s.aon.activating = some (new, prev, t0) → new ≠ prev → s.clotha.dictReady = false →
      t0 + 10000000000 ≤ s.aon.clock →
      ∃ u : State, exec .fwActivationTimeout s = .next u ∧ (u.persist.fwSlot new).state = 4 ∧ (u.persist.fwSlot prev).state = 3
        ∧ u.aon.activating = none ∧ u.aon.sfSlot = some prev ∧ u.mem = s.mem ∧ u.cores = s.cores)
  ∧ (∀ (s t : State) (r : Req) (c : Caller) (e : Entry) (slot : Nat), TakesAction s 0x7006 3 r c e t → leAt e.value 0 1 = 2 →
      t.aon.sfSlot = some slot → 2 ≤ slot →
      ∃ u : State, exec .fwFloorRaise s = .next u ∧ s.persist.floorSf ≤ u.persist.floorSf
        ∧ (s.persist.fwSlot slot).svn slot ≤ u.persist.floorSf ∧ u.persist.floorLig = s.persist.floorLig ∧ u.mem = s.mem)
  ∧ (∀ (s t : State) (r : Req) (c : Caller) (e : Entry), TakesAction s 0x7010 1 r c e t → zeroAt e.value 66 6 = true →
      leAt e.value 64 1 = 0xFF → leAt e.value 65 1 < 64 →
      ∃ u : State, exec .attRequest s = .next u
        ∧ u = answered { code := 0, next := t.draw.2, value := t.report e.value ++ (List.range 132).map (Config.tagByte t.draws) } r e
        ∧ (t.report e.value).headD 0 = 1 ∧ u.persist = s.persist ∧ u.mem = s.mem)

/-- SRTP keys are written to the slot of a tenant; an epoch that is a whole second arms PPS_IN; exactly the bits of a mask are
cleared in the cause register; a drain begins with its grace period, or ends; and when the grace period is over every stream is
closing (R601, R612, R678, R698, R699).
The model's own readings and choices in it: log entry 67. -/
def Obligations.KeysTimeAlertsAndDrain : Prop :=
  (∀ (s t : State) (r : Req) (c : Caller) (e : Entry), TakesAction s 0x9002 0 r c e t → zeroAt e.value 56 8 = true →
    zeroAt e.value 0 56 = false → c.role = 2 → kget? t.net.srtp (e.sub - 1) = none →
    exec .srtpKeyWrite s = .next (answered { code := 0, next := { t with net := { t.net with
      srtp := kset t.net.srtp (e.sub - 1) { owner := c.tenant, keys := e.value.take 56 } } } } r e))
  ∧ (∀ (s t : State) (r : Req) (c : Caller) (e : Entry), TakesAction s 0x9022 0 r c e t → leAt e.value 0 8 % 1000000000 = 0 →
      ∃ u : State, exec .ppsEpochWrite s = .next u ∧ u.time = { s.time with ppsNext := some (leAt e.value 0 8), ppsArmed := true }
        ∧ u.mem = s.mem ∧ u.cores = s.cores ∧ u.persist = s.persist)
  ∧ (∀ (s t : State) (r : Req) (c : Caller) (e : Entry), TakesAction s 0xA021 0 r c e t →
      ∃ u : State, exec .alertClear s = .next u
        ∧ (∀ i, i < 32 → u.aon.alert.getLsbD i = (s.aon.alert.getLsbD i && !(leAt e.value 0 4).testBit i))
        ∧ u.aon = { s.aon with alert := u.aon.alert } ∧ u.mem = s.mem ∧ u.cores = s.cores ∧ u.persist = s.persist)
  ∧ (∀ (s t : State) (r : Req) (c : Caller) (e : Entry), TakesAction s 0xA040 0 r c e t → leAt e.value 0 4 = 0 →
      ∃ u : State, exec .powerDrain s = .next u ∧ u.aon = { s.aon with drain := 0, drainEnd := none, graceOver := false }
        ∧ u.streams = s.streams ∧ u.mem = s.mem ∧ u.persist = s.persist)
  ∧ (∀ (s t : State) (r : Req) (c : Caller) (e : Entry), TakesAction s 0xA040 0 r c e t → 1000 ≤ leAt e.value 0 4 →
      leAt e.value 0 4 ≤ 600000 →
      exec .powerDrain s = .next (answered { code := 0, next := t.startDrain (leAt e.value 0 4) } r e))
  ∧ (∀ (s : State) (n : Nat), s.aon.drainEnd = some n → s.aon.drain = 1 → s.aon.graceOver = false → n ≤ s.aon.clock →
      ∃ u : State, exec .drainGraceExpiry s = .next u ∧ (∀ q ∈ u.streams.ctx, q.2.closing = true) ∧ u.aon.graceOver = true
        ∧ u.mem = s.mem ∧ u.cores = s.cores ∧ u.persist = s.persist)

/-! ### The management port and telemetry (13) -/

/-- While the hub runs, a read of the management port drives the bytes of its register map, a telemetry window that has been
read is no longer fresh, and READ_STATUS drives the low byte of STATUS; a write goes to the request mailbox byte by byte and
nowhere else; WRITE_ENABLE and every other command change nothing but what is driven, which is nothing. REQ_GO takes the
message in the request mailbox when no request is busy and no response stands; while one does it is ignored and counted.
RESP_ACK clears RESP_VALID and nothing else (R564 to R567, R579, R580).
The model's own readings and choices in it: log entry 62. -/
def Obligations.ManagementPortCommands : Prop :=
  (∀ (s : State) (a : Word32) (n : Nat), s.aon.hubUp = true →
    ∃ t, exec (.mgmtRead a n) s = .next t ∧ t.clotha.ocRead = (List.range n).map (fun i => s.mgmtByte ((a.toNat + i) % 2 ^ 32))
      ∧ t = { s with clotha := { s.clotha with ocRead := t.clotha.ocRead, fresh := t.clotha.fresh } })
  ∧ (∀ (s : State) (m : Fin 16), s.aon.hubUp = true →
      ∃ t, exec (.telemetryWindowRead m) s = .next t ∧ m.val ∉ t.clotha.fresh ∧ t.clotha.ocRead.length = 4096
        ∧ t = { s with clotha := { s.clotha with ocRead := t.clotha.ocRead, fresh := t.clotha.fresh } })
  ∧ (∀ (s : State) (a : Word32) (bs : List Byte), s.aon.hubUp = true → 0x1000 ≤ a.toNat → a.toNat + bs.length ≤ 0x2000 →
      ∃ t, exec (.mgmtWrite a bs) s = .next t ∧ rdBytes t.clotha.mailbox (a.toNat - 0x1000) bs.length = bs
        ∧ (∀ i, i < a.toNat - 0x1000 ∨ a.toNat - 0x1000 + bs.length ≤ i → rdByte t.clotha.mailbox i = rdByte s.clotha.mailbox i)
        ∧ t = { s with clotha := { s.clotha with mailbox := t.clotha.mailbox, ocRead := [] } })
  ∧ (∀ (s : State), s.aon.hubUp = true →
      exec .readStatus s = .next { s with clotha := { s.clotha with ocRead := [BitVec.ofNat 8 s.mgmtStatus] } })
  ∧ (∀ (s : State), s.aon.hubUp = true → exec .writeEnable s = .next { s with clotha := { s.clotha with ocRead := [] } })
  ∧ (∀ (s : State) (c x : Byte), s.aon.hubUp = true →
      exec (.mgmtOtherCommand c x) s = .next { s with clotha := { s.clotha with ocRead := [] } })
  ∧ (∀ (s : State) (ok : Bool), s.aon.hubUp = true → s.clotha.dictReady = true → s.clotha.reqBusy = false → s.clotha.respValid = false →
    exec (.reqGo ok) s = .next (({ s with clotha := { s.clotha with reqBusy := true } } : State).receive .mgmt s.clotha.mailMessage ok))
  ∧ (∀ (s : State) (ok : Bool), s.aon.hubUp = true → s.clotha.dictReady = true → (s.clotha.reqBusy = true ∨ s.clotha.respValid = true) →
      exec (.reqGo ok) s = .next (s.countComm 2 5))
  ∧ (∀ (s : State), s.aon.hubUp = true → exec .respAck s = .next { s with clotha := { s.clotha with respValid := false } })

/-- TELEMETRY_SAMPLE at a new instant of an enabled map's period, with a key that is enrolled and no message unsent: the message has the
next number; with the management port as transport it stands in its window, and the window is fresh; over UDP it leaves its port, where that is
up and not held, or waits for it. While an earlier message stands unsent on a port that cannot send, while no key of the map is enrolled or
the firmware does not answer, the sample takes its number, is counted as skipped and logged. At an instant that has been sampled
nothing happens (R575 to R579, R703).
The model's own readings and choices in it: log entry 61. -/
def Obligations.TelemetryIsSampled : Prop :=
  (∀ (s : State) (map : Fin 16) (m : TelMap) (n : Nat) (k : KeyRec), m = kgetD s.persist.telMaps map {} → m.enable = true →
    s.time.running = true → s.hbmUp = true → s.clotha.dictReady = true →
    (kgetD s.clotha.tel map {}).lastAt ≠ some (s.now / Nat.max 1 (m.periodUs * 1000) * Nat.max 1 (m.periodUs * 1000)) →
    (kgetD s.clotha.tel map {}).unsent = none → s.persist.keys.find? (fun q => q.2.keyId == m.keyId.toNat) = some (n, k) →
    ∃ t, exec (.telemetrySample map) s = .next t
      ∧ (kgetD t.clotha.tel map {}).counter = (kgetD s.clotha.tel map {}).counter + 1
      ∧ (kgetD t.clotha.tel map {}).skipped = (kgetD s.clotha.tel map {}).skipped
      ∧ (kgetD t.clotha.tel map {}).lastAt = some (s.now / Nat.max 1 (m.periodUs * 1000) * Nat.max 1 (m.periodUs * 1000))
      ∧ (m.transport = 2 → (kgetD t.clotha.tel map {}).sent = (kgetD s.clotha.tel map {}).sent + 1 ∧ map.val ∈ t.clotha.fresh
          ∧ (kgetD t.clotha.windows map []).take 4 = [1, 0x80, 1, 0] ∧ t.net = s.net)
      ∧ (m.transport ≠ 2 → (s.port m.transport).up = true → (s.port m.transport).holdUntil = none →
          (kgetD t.clotha.tel map {}).sent = (kgetD s.clotha.tel map {}).sent + 1 ∧ (kgetD t.clotha.tel map {}).unsent = none)
      ∧ (m.transport ≠ 2 → ((s.port m.transport).up = false ∨ (s.port m.transport).holdUntil ≠ none) →
          (kgetD t.clotha.tel map {}).sent = (kgetD s.clotha.tel map {}).sent
            ∧ (kgetD t.clotha.tel map {}).unsent.isSome = true ∧ t.net = s.net)
      ∧ t.persist = s.persist ∧ t.mem = s.mem ∧ t.cores = s.cores ∧ t.streams = s.streams)
  ∧ (∀ (s : State) (map : Fin 16) (m : TelMap), m = kgetD s.persist.telMaps map {} → m.enable = true →
      s.time.running = true → s.hbmUp = true →
      (kgetD s.clotha.tel map {}).lastAt ≠ some (s.now / Nat.max 1 (m.periodUs * 1000) * Nat.max 1 (m.periodUs * 1000)) →
      (kgetD s.clotha.tel map {}).unsent = none →
      (s.clotha.dictReady = false ∨ s.persist.keys.find? (fun q => q.2.keyId == m.keyId.toNat) = none) →
      ∃ t e, exec (.telemetrySample map) s = .next t
        ∧ (kgetD t.clotha.tel map {}).counter = (kgetD s.clotha.tel map {}).counter + 1
        ∧ (kgetD t.clotha.tel map {}).skipped = (kgetD s.clotha.tel map {}).skipped + 1
        ∧ (kgetD t.clotha.tel map {}).sent = (kgetD s.clotha.tel map {}).sent
        ∧ t.recov.heldEvents = s.recov.heldEvents ++ [e] ∧ e.event = 0x1004
        ∧ t.persist = s.persist ∧ t.mem = s.mem ∧ t.cores = s.cores ∧ t.streams = s.streams ∧ t.net = s.net)
  ∧ (∀ (s : State) (map : Fin 16) (m : TelMap), m = kgetD s.persist.telMaps map {} →
      (kgetD s.clotha.tel map {}).lastAt = some (s.now / Nat.max 1 (m.periodUs * 1000) * Nat.max 1 (m.periodUs * 1000)) →
      exec (.telemetrySample map) s = .next s)

/-! ### Time (14) -/

/-- Messages of the source port, domain and transport of a running timebase: an Announce is kept for the selection; a Sync of the
selected transmitter is counted, timestamped to within 4 ns and measured, or, in two steps, measured when its Follow_Up comes; a
Delay_Resp gives the delay. A port that is up and not held sends a Delay_Req to the selected transmitter and takes its instant to within
4 ns. A message of another port, transport, domain or transmitter is only counted (R608, R609).
The model's own readings and choices in it: log entries 21, 85, 131. -/
def Obligations.PtpMessages : Prop :=
  (∀ (s : State) (port : Fin 2) (tr : PtpTransport) (id : Word64) (dom rank n : Nat), (s.port port).up = true →
    s.time.running = true → s.persist.timeSource = port → transportNo tr = s.persist.ptpTransport → dom = s.persist.ptpDomain →
    ∃ t, exec (.ptpMessage port tr (.announce id dom rank n)) s = .next t
      ∧ (∃ p ∈ t.time.peers, p.ident = id ∧ p.rank = rank ∧ p.interval = n ∧ p.heard = s.time.now)
      ∧ t.persist = s.persist ∧ t.mem = s.mem ∧ t.cores = s.cores)
  ∧ (∀ (s : State) (port : Fin 2) (tr : PtpTransport) (id : Word64) (dom origin : Nat), (s.port port).up = true →
      s.time.running = true → s.persist.timeSource = port → transportNo tr = s.persist.ptpTransport → dom = s.persist.ptpDomain →
      s.time.master = some id →
      ∃ t a, exec (.ptpMessage port tr (.sync id dom origin)) s = .next t ∧ t.time.syncs = s.time.syncs + 1
        ∧ a ≤ s.time.now + 4 ∧ s.time.now ≤ a + 4
        ∧ t.time.offset = (a : Int) - origin - s.time.delay ∧ t.persist = s.persist ∧ t.mem = s.mem)
  ∧ (∀ (s : State) (port : Fin 2) (tr : PtpTransport) (id : Word64) (dom seq : Nat), (s.port port).up = true →
      s.time.running = true → s.persist.timeSource = port → transportNo tr = s.persist.ptpTransport → dom = s.persist.ptpDomain →
      s.time.master = some id →
      ∃ t a, exec (.ptpMessage port tr (.syncTwoStep id dom seq)) s = .next t ∧ a ≤ s.time.now + 4 ∧ s.time.now ≤ a + 4
        ∧ t.time = { s.time with syncs := s.time.syncs + 1, lastSync := s.time.now, twoStep := some (id, seq, a) }
        ∧ t.persist = s.persist ∧ t.mem = s.mem)
  ∧ (∀ (s : State) (port : Fin 2) (tr : PtpTransport) (id : Word64) (dom seq origin a : Nat), (s.port port).up = true →
      s.time.running = true → s.persist.timeSource = port → transportNo tr = s.persist.ptpTransport → dom = s.persist.ptpDomain →
      s.time.master = some id → s.time.twoStep = some (id, seq, a) →
      ∃ t, exec (.ptpMessage port tr (.followUp id dom seq origin)) s = .next t
        ∧ t.time.offset = (a : Int) - origin - s.time.delay ∧ t.time.twoStep = none ∧ t.persist = s.persist ∧ t.mem = s.mem)
  ∧ (∀ (s : State) (port : Fin 2) (tr : PtpTransport) (id : Word64) (dom t4 t1 t2 t3 : Nat), (s.port port).up = true →
      s.time.running = true → s.persist.timeSource = port → transportNo tr = s.persist.ptpTransport → dom = s.persist.ptpDomain →
      s.time.master = some id → s.time.t1t2 = some (t1, t2) → s.time.t3 = some t3 →
      ∃ t, exec (.ptpMessage port tr (.delayResp id dom t4)) s = .next t
        ∧ t.time = { s.time with t3 := none, delay := (((t2 : Int) - t1) + ((t4 : Int) - t3)) / 2 }
        ∧ t.persist = s.persist ∧ t.mem = s.mem)
  ∧ (∀ (s : State) (port : Fin 2) (tr : PtpTransport) (m : PtpMsg), (s.port port).up = true → s.time.running = true →
      (s.persist.timeSource ≠ port.val ∨ transportNo tr ≠ s.persist.ptpTransport) →
      exec (.ptpMessage port tr m) s = .next (s.countPort port 2))
  ∧ (∀ (s : State) (port : Fin 2) (id : Word64), s.persist.timeSource = port → s.time.master = some id → (s.port port).up = true →
      (s.port port).holdUntil = none →
      ∃ t a, exec .delayRequest s = .next t ∧ t.time = { s.time with t3 := some a } ∧ a ≤ s.time.now + 4 ∧ s.time.now ≤ a + 4
        ∧ t.net.tx = .delayReq port :: s.net.tx ∧ t.persist = s.persist ∧ t.mem = s.mem)

/-- A measured offset: a disciplined timebase only slews; one that is acquiring is stepped by an offset above 1 ms, and slewed by
one within it; a holdover becomes disciplined again at an offset of at most 1 µs; a step moves the streams' instants with it. A PPS_IN
edge is stamped within 1 ns of its true time (R36), marks the second that was written, and the next edge the one after; no Sync for three announce intervals moves a
disciplined timebase to holdover, and a holdover of longer than HOLDOVER_S to free-running; at a whole second PPS_OUT is driven
high for 100 ms (R610 to R613).
The model's own readings and choices in it: log entries 21, 84, 85, 131. -/
def Obligations.TimeFollowsItsSource : Prop :=
  (∀ (s : State) (off : Int), s.time.state = 2 → (s.measure off).time.now = s.time.now ∧ (s.measure off).time.slew = -off
    ∧ (s.measure off).streams = s.streams)
  ∧ (∀ (s : State) (off : Int), s.time.state = 1 → 1000000 < off.natAbs →
      (s.measure off).time.now = ((s.time.now : Int) - off).toNat ∧ (s.measure off).time.state = 1)
  ∧ (∀ (s : State) (off : Int), s.time.state = 1 → 100 < off.natAbs → off.natAbs ≤ 1000000 →
      (s.measure off).time.now = s.time.now ∧ (s.measure off).time.slew = -off ∧ (s.measure off).time.goodSecs = [])
  ∧ (∀ (s : State) (off : Int), s.time.state = 3 → off.natAbs ≤ 1000 →
      (s.measure off).time.state = 2 ∧ (s.measure off).time.now = s.time.now)
  ∧ (∀ (s : State) (d : Int) (i : Nat) (x : StreamCtx), s.stream? i = some x →
      (s.stepTime d).stream? i = some (x.shift d) ∧ (s.stepTime d).time.now = ((s.time.now : Int) + d).toNat)
  ∧ (∀ (s : State), s.time.ppsNext = none → s.time.running = true →
    ∃ t a, exec .ppsInEdge s = .next t ∧ a ≤ s.time.now + 1 ∧ s.time.now ≤ a + 1
      ∧ t = { s with time := { s.time with ppsStamp := some a }, draws := s.draws + 1 })
  ∧ (∀ (s : State) (sec : Nat), s.time.ppsNext = some sec → s.time.running = true → s.persist.timeSource ≠ 2 →
    ∃ t a, exec .ppsInEdge s = .next t ∧ a ≤ s.time.now + 1 ∧ s.time.now ≤ a + 1
      ∧ t = { s with
          time := { s.time with ppsStamp := some a, ppsNext := some (sec + 1000000000), ppsArmed := false }
          draws := s.draws + 1 })
  ∧ (∀ (s : State) (sec : Nat), s.time.ppsNext = some sec → s.time.running = true → s.persist.timeSource = 2 → s.time.state = 2 →
      ∃ t a, exec .ppsInEdge s = .next t ∧ a ≤ s.time.now + 1 ∧ s.time.now ≤ a + 1 ∧ t.time.ppsStamp = some a
        ∧ t.time.offset = (a : Int) - sec ∧ t.time.ppsNext = some (sec + 1000000000)
        ∧ t.time.lastSync = a ∧ t.time.state = 2 ∧ t.mem = s.mem ∧ t.persist = s.persist)
  ∧ (∀ (s : State), s.time.state = 2 → s.persist.timeSource ≤ 1 → s.time.lastSync + 3 * s.time.interval ≤ s.time.now →
      ∃ t, exec .timeSourceTimeout s = .next t ∧ t.time.state = 3 ∧ t.time.holdSince = some s.time.now ∧ t.time.now = s.time.now
        ∧ t.mem = s.mem ∧ t.persist = s.persist ∧ t.cores = s.cores)
  ∧ (∀ (s : State) (h : Nat), s.time.state = 3 → s.time.holdSince = some h →
      h + s.persist.holdoverS * 1000000000 < s.time.now →
      ∃ t, exec .holdoverExpiry s = .next t ∧ t.time.state = 0 ∧ t.time.lost = true ∧ t.time.now = s.time.now
        ∧ t.mem = s.mem ∧ t.persist = s.persist ∧ t.cores = s.cores)
  ∧ (∀ (s : State), s.time.ppsOn = true → s.time.now % 1000000000 = 0 →
      ∃ t, exec .ppsOutPulse s = .next t ∧ t.net.tx = .ppsOut :: s.net.tx ∧ t.time.ppsHighUntil = some (s.time.now + 100000000)
        ∧ t.mem = s.mem ∧ t.persist = s.persist ∧ t.cores = s.cores)

/-! ### Commands of the compute cores: queues and the router (04, 10) -/

/-- A doorbell of the context's own partition and core that does not overfill the queue sets TAIL and CRING_RD and nothing else
of the image; one that would overfill it changes no image and is logged (R438). The router dispatches the head command that
R443 puts first and that validates, and rejects it with its code otherwise (R196, R443).
The model's own readings and choices in it: log entries 18, 26, 30, 127. -/
def Obligations.DoorbellsAndDispatch : Prop :=
  (∀ (s : State) (core : Fin 8) (prep : Fin 4) (v : Word64) (ct : Ctx) (part : Nat),
    s.ctx? (bits v.toNat 15 0) = some ct → s.prepPart core prep = some part → s.fenced core = false → ct.core = core →
    ct.part = part → ct.dropping = false → (bits v.toNat 31 16 + 65536 - ct.head) % 65536 ≤ 2 ^ (ct.queueLog2 + 4) →
    exec (.doorbell core prep v) s = .next (State.after s ((s.progress core (112 + prep)).modCtx (bits v.toNat 15 0)
      (fun c => { c with tail := bits v.toNat 31 16, cringRd := bits v.toNat 47 32 })) core))
  ∧ (∀ (s : State) (core : Fin 8) (prep : Fin 4) (v : Word64) (ct : Ctx) (part : Nat),
      s.ctx? (bits v.toNat 15 0) = some ct → s.prepPart core prep = some part → s.fenced core = false → ct.core = core →
      ct.part = part → 2 ^ (ct.queueLog2 + 4) < (bits v.toNat 31 16 + 65536 - ct.head) % 65536 →
      ∃ t e, exec (.doorbell core prep v) s = .next t ∧ t.ctxs = s.ctxs ∧ t.recov.heldEvents = s.recov.heldEvents ++ [e]
        ∧ e.event = 0x4001 ∧ t.mem = s.mem ∧ t.streams = s.streams ∧ t.persist = s.persist)
  ∧ (∀ (s : State) (core : Fin 8) (c : Candidate), s.recovering core = false →
      bestBy (s.candLt core) (s.candidates core) = some c → c.bad = none →
      exec (.commandDispatch core) s = .next (State.after s (s.dispatch core c) core))
  ∧ (∀ (s : State) (core : Fin 8) (c : Candidate) (code : Word16), s.recovering core = false →
      bestBy (s.candLt core) (s.candidates core) = some c → c.bad = some code →
      exec (.commandDispatch core) s
        = .next (State.after s (s.reject c.ctxId (dSeq (c.ds.headD 0)) c.ds.length code
          (if code = cmdVPROG then s.badProgram c.ct c.ds else none)) core))

/-- A dispatched command stands last among its core's commands, with its context, its descriptors and the number that the
context's SEQ_NEXT gave; HEAD passes its descriptors and SEQ_NEXT the number, unless it is a wait, which stays at the head
(R194, R439).
The model's own readings and choices in it: log entry 18. -/
def Obligations.DispatchedCommandStands : Prop :=
  (∀ (s : State) (core : Nat) (c : Candidate), s.ctx? c.ctxId = some c.ct → c.ct.core = core →
    ∃ m x, ((s.dispatch core c).core core).cmds = (s.core core).cmds ++ [m] ∧ m.ctx = c.ctxId ∧ m.seq = c.ct.seqNext
      ∧ m.descs = c.ds.map (BitVec.ofNat 512 ·) ∧ m.dispatchedAt = s.now
      ∧ (s.dispatch core c).ctx? c.ctxId = some x
      ∧ (m.isWait = false → x.head = (c.ct.head + c.ds.length) % 65536 ∧ x.seqNext = (c.ct.seqNext + 1) % 65536)
      ∧ (m.isWait = true → x.head = c.ct.head ∧ x.seqNext = c.ct.seqNext)
      ∧ x.waiting = none ∧ x.tail = c.ct.tail ∧ (s.dispatch core c).persist = s.persist ∧ (s.dispatch core c).mem = s.mem)

/-- A rejected command's context halts with HEAD past the command, one completion record and no other effect of the command: no
stream, persistent value or link changes. A completed command is no longer among its core's commands, its context's completion
ring has one record more, and no stream, link or persistent value changes (R196, R233, R439).
The model's own readings and choices in it: log entries 18, 104, 131. -/
def Obligations.RejectionAndCompletionWriteARecord : Prop :=
  (∀ (s : State) (ctx seq n : Nat) (code : Word16) (prog : Option Nat) (ct : Ctx), s.ctx? ctx = some ct → ct.halted = false →
    ∃ x, (s.reject ctx seq n code prog).ctx? ctx = some x ∧ x.halted = true ∧ x.head = (ct.head + n) % 65536
      ∧ x.cringWr = (ct.cringWr + 1) % 65536 ∧ x.waiting = none ∧ x.tail = ct.tail
      ∧ (∀ j, j ≠ ctx → (s.reject ctx seq n code prog).ctx? j = s.ctx? j)
      ∧ (s.reject ctx seq n code prog).mem
          = (s.hbmWrite (ct.cringBase + 32 * (ct.cringWr % 2 ^ (ct.cringLog2 + 4)))
              ((({ seq := seq, code := code } : Completion)).bytes (s.localTime 0x05 ct.core)) false).mem
      ∧ (s.reject ctx seq n code prog).streams = s.streams ∧ (s.reject ctx seq n code prog).persist = s.persist
      ∧ (s.reject ctx seq n code prog).links = s.links)
  ∧ (∀ (s : State) (core : Nat) (ct : Ctx) (c : Cmd), s.ctx? c.ctx = some ct → ct.halted = false →
    (∀ m ∈ ((s.complete core ct c).core core).cmds, ¬(m.ctx = c.ctx ∧ m.seq = c.seq))
      ∧ (∃ x, (s.complete core ct c).ctx? c.ctx = some x ∧ x.cringWr = (ct.cringWr + 1) % 65536 ∧ x.tail = ct.tail)
      ∧ (s.complete core ct c).streams = s.streams ∧ (s.complete core ct c).links = s.links
      ∧ (s.complete core ct c).persist = s.persist ∧ (s.complete core ct c).net = s.net)

/-- NOP ends at once; FENCE runs until the commands before it have ended; SEM_WAIT goes to the semaphore store with its
condition; SEM_SIGNAL ends and sends its operation; CHECKPOINT sends one report for each of its records and waits for as many
decisions (R71, R189, R490, R492, R493). No memory, stream or persistent value changes.
The model's own readings and choices in it: log entry 18. -/
def Obligations.RouterCommands : Prop :=
  (∀ (s : State) (ctx core : Nat) (c : Cmd), s.toIssue ctx 0x00 = some (core, c) →
    exec (.nop ctx) s = .next (s.modCmd core c.ctx c.seq (·.drain 0)))
  ∧ (∀ (s : State) (ctx core : Nat) (c : Cmd), s.toIssue ctx 0x10 = some (core, c) →
      exec (.fence ctx) s = .next (s.modCmd core c.ctx c.seq (fun c => { c with phase := .running, stage := 1 })))
  ∧ (∀ (s : State) (ctx core : Nat) (c : Cmd) (ct : Ctx), s.toIssue ctx 0x11 = some (core, c) → s.ctx? ctx = some ct →
      seWaitOp (cmdSem (c.desc 0)) ≠ 0 →
      exec (.semWait ctx) s = .next ((s.modCmd core c.ctx c.seq (fun c => { c with phase := .running, stage := 1 })).semWaitSend ctx ct
        (cmdSem (c.desc 0))))
  ∧ (∀ (s : State) (ctx core : Nat) (c : Cmd), s.toIssue ctx 0x11 = some (core, c) → seWaitOp (cmdSem (c.desc 0)) = 0 →
      exec (.semWait ctx) s = .next (s.modCmd core c.ctx c.seq (·.drain 0)))
  ∧ (∀ (s : State) (ctx core : Nat) (c : Cmd), s.toIssue ctx 0x12 = some (core, c) →
      exec (.semSignal ctx) s = .next ((s.modCmd core c.ctx c.seq (·.drain 0)).semSignal ctx c.part (cmdSem (c.desc 0))))
  ∧ (∀ (s : State) (ctx core : Nat) (c : Cmd) (ct : Ctx), s.toIssue ctx 0x31 = some (core, c) → s.ctx? ctx = some ct →
      ((kgetD c.maps (ckH (c.desc 0)) {}).ring = false
        ∨ ((kgetD c.maps (ckH (c.desc 0)) {}).slotsOf (ckOff (c.desc 0) * 64) (8 * ckCount (c.desc 0))).all
            ((s.core core).handle (ckH (c.desc 0))).isFull = true) →
      ∃ t l, exec (.checkpoint ctx) s = .next t ∧ (t.core core).reports = (s.core core).reports ++ l
        ∧ l.length = ckCount (c.desc 0) ∧ (∀ r ∈ l, r.ctx = ctx ∧ r.seq = c.seq ∧ r.ckpt = ckIdx (c.desc 0))
        ∧ t.mem = s.mem ∧ t.streams = s.streams ∧ t.persist = s.persist ∧ t.ctxs = s.ctxs)

/-- A SET that has reached a semaphore makes its value what it carries, an ADD adds to it; no other semaphore of the core
changes; a wait that has timed out has its command rejected with MEM_SEM_TIMEOUT; a waiting TAKE that the value covers takes from
it, and one that it does not cover takes nothing, so a value never passes below zero (R492, R493, R495, R496). -/
def Obligations.Semaphores : Prop :=
  (∀ (s : State) (core : Fin 8) (index : Fin 4096) (v : Word32), (s.core core).sems.ops = [(index.val, .set v)] →
    (s.core core).sems.waits = [] →
    exec (.semaphoreOpApply core index) s = .next (State.after s (s.modCore core (fun k => { k with sems := { k.sems with
      ops := [], vals := kset k.sems.vals index v } })) core))
  ∧ (∀ (s : State) (core : Fin 8) (index : Fin 4096) (v : Word32), (s.core core).sems.ops = [(index.val, .add v)] →
      (s.core core).sems.waits = [] →
      exec (.semaphoreOpApply core index) s = .next (State.after s (s.modCore core (fun k => { k with sems := { k.sems with
        ops := [], vals := kset k.sems.vals index (kgetD k.sems.vals index 0 + v) } })) core))
  ∧ (∀ (s : State) (ctx end_ : Nat) (ct : Ctx) (ds : List Nat), s.ctx? ctx = some ct → ct.waiting = some (some end_) →
      ct.satisfied = false → end_ ≤ s.now → s.headDescs ct = some ds →
      exec (.semWaitTimeout ctx) s = .next (State.after s ((s.modCore ct.core (fun k => { k with
        cmds := k.cmds.filter (fun c => !(c.ctx == ctx && c.isWait)) })).reject ctx ct.seqNext ds.length memSEM_TIMEOUT none) ct.core))
  ∧ (∀ (s : State) (core idx : Nat) (w : SemWait), w.index = idx → core < 8 →
    (w.value ≤ s.semVal core idx →
      ((s.applyTakes core idx [w]).semVal core idx).toNat + w.value.toNat = (s.semVal core idx).toNat)
    ∧ (s.semVal core idx < w.value → s.applyTakes core idx [w] = s)
    ∧ (∀ ct, s.ctx? w.ctx = some ct → ∃ x, (s.satisfyWait w true).ctx? w.ctx = some x ∧ x.waiting = none
        ∧ x.holdCount = (ct.holdCount + 1) % 256)
    ∧ (∀ ct v, s.ctx? w.ctx = some ct → ∃ x, (s.applySemOp core idx (.give v w.ctx)).ctx? w.ctx = some x
        ∧ x.holdCount = ct.holdCount - 1 ∧ (s.applySemOp core idx (.give v w.ctx)).semVal core idx = s.semVal core idx + v))

/-- CREDIT_ACQUIRE asks the target core's router; CREDIT_RELEASE ends and returns what it names; the router grants the first
request for a handle what is free of it; a request not covered in 50 µs ends its command with MEM_CREDIT_TIMEOUT (R367, R370, R371).
The model's own readings and choices in it: log entries 31, 102. -/
def Obligations.Credits : Prop :=
  (∀ (s : State) (ctx core : Nat) (c : Cmd), s.toIssue ctx 0x13 = some (core, c) → s.fenced (crCore (c.desc 0)) = false →
    exec (.creditAcquire ctx) s = .next ((s.modCmd core c.ctx c.seq (fun c => { c with phase := .running, stage := 1 })).modCore
      (crCore (c.desc 0)) (fun k => { k with creditReqs := k.creditReqs ++ [(crH (c.desc 0), .context ctx, crCount (c.desc 0), s.now)] })))
  ∧ (∀ (s : State) (ctx core : Nat) (c : Cmd), s.toIssue ctx 0x13 = some (core, c) → s.fenced (crCore (c.desc 0)) = true →
      exec (.creditAcquire ctx) s = .next (s.modCmd core c.ctx c.seq (·.drain recFENCED)))
  ∧ (∀ (s : State) (ctx core : Nat) (c : Cmd), s.toIssue ctx 0x14 = some (core, c) →
      exec (.creditRelease ctx) s = .next ((s.modCmd core c.ctx c.seq (·.drain 0)).modCore (crCore (c.desc 0)) (fun k =>
        k.putCredits (crH (c.desc 0)) (.context ctx) (Nat.min (k.creditsOf (crH (c.desc 0)) (.context ctx))
          (Nat.max (b2n ((s.core core).creditInUse ctx (crCore (c.desc 0)) (crH (c.desc 0))))
            (k.creditsOf (crH (c.desc 0)) (.context ctx) - crCount (c.desc 0)))))))
  ∧ (∀ (s : State) (target : Fin 8) (h : Fin 256) (ctx n since : Nat), s.fenced target = false →
      (s.core target).creditReqs.find? (fun q => q.1 == h.val) = some (h.val, .context ctx, n, since) →
      n ≤ (s.core target).creditFree h → 0 < n →
      ∃ u : State, exec (.creditGrant target h) s = .next (State.after s (u.grantCtx ctx n) target)
        ∧ (u.core target).creditsOf h (.context ctx) = (s.core target).creditsOf h (.context ctx) + n
        ∧ u.mem = s.mem ∧ u.streams = s.streams ∧ u.persist = s.persist ∧ u.ctxs = s.ctxs)
  ∧ (∀ (s : State) (target : Fin 8) (h : Fin 256) (c : Fin 8) (ch n since : Nat), s.fenced target = false →
      (s.core target).creditReqs.find? (fun q => q.1 == h.val) = some (h.val, .channel c ch, n, since) →
      n ≤ (s.core target).creditFree h → 0 < n → c.val ≠ target.val →
      ∃ t, exec (.creditGrant target h) s = .next t
        ∧ (t.core target).creditsOf h (.channel c ch) = (s.core target).creditsOf h (.channel c ch) + n
        ∧ t.mem = s.mem ∧ t.streams = s.streams ∧ t.persist = s.persist ∧ t.ctxs = s.ctxs)
  ∧ (∀ (s : State) (ctx : Nat) (ct : Ctx) (c : Cmd), s.ctx? ctx = some ct →
      (s.core ct.core).cmds.find? (fun c => c.ctx == ctx && c.op == 0x13 && c.phase == .running) = some c →
      (s.core (crCore (c.desc 0))).creditReqs.any (fun q => q.2.1 == .context ctx && q.1 == crH (c.desc 0)
        && decide (q.2.2.2 + 50000 ≤ s.now)) = true →
      ∃ t, exec (.creditTimeout ctx) s = .next t
        ∧ (∀ m ∈ (t.core ct.core).cmds, m.ctx = c.ctx → m.seq = c.seq → m.phase = .drained ∧ m.code = memCREDIT_TIMEOUT)
        ∧ (∀ q ∈ (t.core (crCore (c.desc 0))).creditReqs, ¬(q.1 = crH (c.desc 0) ∧ q.2.1 = .context ctx))
        ∧ t.mem = s.mem ∧ t.streams = s.streams ∧ t.persist = s.persist ∧ t.ctxs = s.ctxs)

/-- STREAM_START ends and arms its free channel with the descriptor; a re-arm of an idle channel starts its pass and one with STOP
frees it, and the command ends; an armed channel runs its pass from the start, with its descriptor, and no other channel changes
(R342, R345, R360 to R362).
The model's own readings and choices in it: log entry 93. -/
def Obligations.ChannelCommands : Prop :=
  (∀ (s : State) (ctx core : Nat) (c : Cmd), s.toIssue ctx 0x20 = some (core, c) → (s.chan core (ssChan (c.desc 0))).state = .free →
    exec (.streamStart ctx) s = .next (State.after s ((s.modCmd core c.ctx c.seq (·.drain 0)).startPass core (ssChan (c.desc 0))
      (BitVec.ofNat 256 (ssDesc (c.desc 0))) c.ctx c.seq) core))
  ∧ (∀ (s : State) (ctx core : Nat) (c : Cmd), s.toIssue ctx 0x20 = some (core, c) → (s.chan core (ssChan (c.desc 0))).state ≠ .free →
      exec (.streamStart ctx) s = .next (State.after s (s.rejectRunning core c cmdSTREAM) core))
  ∧ (∀ (s : State) (ctx core : Nat) (c : Cmd), s.toIssue ctx 0x21 = some (core, c) → raStop (c.desc 0) = false →
      (s.chan core (raChan (c.desc 0))).state = .running → (s.chan core (raChan (c.desc 0))).pending = none →
      exec (.streamRearm ctx) s = .next (State.after s ((s.modCmd core c.ctx c.seq (·.drain 0)).modChan core (raChan (c.desc 0))
        (fun ch => { ch with pending := some (if raSetSrc (c.desc 0) then some (raSrc (c.desc 0)) else none,
          if raSetDst (c.desc 0) then some (raDst (c.desc 0)) else none, false, c.seq), overrun := ch.overrun || ch.pending.isSome }))
        core))
  ∧ (∀ (s : State) (ctx core : Nat) (c : Cmd), s.toIssue ctx 0x21 = some (core, c) → raStop (c.desc 0) = false →
      (s.chan core (raChan (c.desc 0))).state = .idle →
      exec (.streamRearm ctx) s = .next (State.after s (((s.modCmd core c.ctx c.seq (·.drain 0)).modChan core (raChan (c.desc 0))
        (fun ch => { ch with pending := some (if raSetSrc (c.desc 0) then some (raSrc (c.desc 0)) else none,
          if raSetDst (c.desc 0) then some (raDst (c.desc 0)) else none, false, c.seq) })).nextPass core (raChan (c.desc 0))) core))
  ∧ (∀ (s : State) (ctx core : Nat) (c : Cmd), s.toIssue ctx 0x21 = some (core, c) → raStop (c.desc 0) = true →
      (s.chan core (raChan (c.desc 0))).state = .idle →
      exec (.streamStop ctx) s = .next (State.after s ((((s.modCmd core c.ctx c.seq (·.drain 0)).modChan core (raChan (c.desc 0))
        (fun ch => { ch with pending := some (if raSetSrc (c.desc 0) then some (raSrc (c.desc 0)) else none,
          if raSetDst (c.desc 0) then some (raDst (c.desc 0)) else none, true, c.seq) })).freeChannel core (raChan (c.desc 0)))) core))
  ∧ (∀ (s : State) (core n : Nat) (desc : BitVec 256) (ctx seq : Nat),
    ((s.startPass core n desc ctx seq).chan core n).state = .running
      ∧ ((s.startPass core n desc ctx seq).chan core n).desc = desc
      ∧ ((s.startPass core n desc ctx seq).chan core n).issued = 0 ∧ ((s.startPass core n desc ctx seq).chan core n).flight = []
      ∧ ((s.startPass core n desc ctx seq).chan core n).ctx = ctx
      ∧ (∀ m, m ≠ n → (s.startPass core n desc ctx seq).chan core m = s.chan core m)
      ∧ (s.startPass core n desc ctx seq).mem = s.mem ∧ (s.startPass core n desc ctx seq).persist = s.persist)

/-- The router makes the work items of a stage of a vector run, of a matrix multiplication and, after its walk, of a gather and of
a score; a command whose engines have all ended completes, with its record and its signal. The items of a stage cover every tile
of its output: as many as row tiles times column tiles, each on an engine that the router may use (R197, R216, R218, R233, R283,
R384).
The model's own readings and choices in it: log entries 18, 104. -/
def Obligations.StagesIssueAndCommandsComplete : Prop :=
  (∀ (s : State) (ctx core : Nat) (c : Cmd), s.toIssue ctx 0x30 = some (core, c) →
    exec (.vecRun ctx) s = .next (State.after s (s.issueStage core c) core))
  ∧ (∀ (s : State) (ctx core : Nat) (c : Cmd), s.toIssue ctx 0x01 = some (core, c) →
      exec (.matmul ctx) s = .next (State.after s (s.issueStage core c) core))
  ∧ (∀ (s : State) (ctx core : Nat) (c d : Cmd), s.toIssue ctx 0x02 = some (core, c) → c.stageFree = true → c.walk = none →
      (s.core core).tagFree false = true →
      (s.walk core c).cmd? core c.ctx c.seq = some d →
      exec (.matmulGather ctx) s = .next (State.after s ((s.walk core c).issueStage core d) core))
  ∧ (∀ (s : State) (ctx core : Nat) (c d : Cmd), s.toIssue ctx 0x03 = some (core, c) → c.stageFree = true → c.walk = none →
      (s.core core).tagFree false = true →
      (s.walk core c).cmd? core c.ctx c.seq = some d →
      exec (.matmulScore ctx) s = .next (State.after s ((s.walk core c).issueStage core d) core))
  ∧ (∀ (s : State) (ctx : Nat) (ct : Ctx) (c : Cmd), s.ctx? ctx = some ct → s.recovering ct.core = false →
      (s.core ct.core).cmds.find? (fun c => c.ctx == ctx && (s.core ct.core).cmdDone c) = some c →
      exec (.commandComplete ctx) s = .next (State.after s ((s.complete ct.core ct c).issueFlushes ct.core
        ((s.complete ct.core ct c).core ct.core).flushes) ct.core))
  ∧ (∀ (c : Cmd) (core st : Nat) (live : List Nat), live ≠ [] → dOp (c.desc st) ≠ 0x30 →
    (stageItems c core st live).length = dRT (c.desc st) * dCT (c.desc st)
      ∧ (∀ q ∈ stageItems c core st live, q.1 ∈ live ∧ q.2.rt < dRT (c.desc st) ∧ q.2.ct < dCT (c.desc st))
      ∧ (∀ r j, r < dRT (c.desc st) → j < dCT (c.desc st) →
          ∃ q ∈ stageItems c core st live, q.2.rt = r ∧ q.2.ct = j ∧ q.2.ctx = c.ctx ∧ q.2.seq = c.seq))

/-! ### Matrix and vector engines (04 to 06, 08) -/

/-- An engine that may take one gives first the item of its own core's re-run queue whose taker it is (R219, R223, R224); an idle
one steals the item that it selects, unless a lower-numbered idle engine selects it too (R219, R220), and takes a re-run item of
the neighbour where it selects none; a first item whose operands and codebook stand ready fills a free accumulator set, or both
where it is segmented, and is then the running item; while it runs the fill of the next begins; a vector run goes to a free vector
engine (R183, R184, R215, R308); mismatches older than 10 s no longer count (R227).
The model's own readings and choices in it: log entries 18, 126, 128. -/
def Obligations.EnginesTakeAndStartItems : Prop :=
  (∀ (s : State) (core : Fin 8) (e : Fin 16) (w : WorkItem) (l : List WorkItem), s.recovering core = false →
    s.engineTakes core e = true → s.rerunFor core e core = some (w, l) →
    exec (.stealGrant core e) s
      = .next (State.after s (((s.modCore core (fun k => { k with rerun := l })).giveItem core e w).progress core 117) core))
  ∧ (∀ (s : State) (core : Fin 8) (e : Fin 16) (near : Bool) (vc ve : Nat) (w : WorkItem), s.recovering core = false →
      s.engineIdle core e = true → s.rerunFor core e core = none →
      near = (!s.recovering (core.val ^^^ 1) && (s.rerunFor core e (core.val ^^^ 1)).isSome) →
      s.stealFor core e near = some (vc, ve, w) →
      (∀ n, n < e.val → s.engineIdle core n = true → s.stealFor core n near ≠ some (vc, ve, w)) →
      exec (.stealGrant core e) s = .next (State.after s
        (((((s.modEngine vc ve (fun g => { g with queue := (g.queue.reverse.erase w).reverse })).giveItem core e w).modCore core
          (fun k => { k with stealStats := lbump k.stealStats (if vc = core.val then 0 else 1) 1 })).feedQueues vc).progress core 117) core))
  ∧ (∀ (s : State) (core : Fin 8) (e : Fin 16) (w : WorkItem) (l : List WorkItem), s.recovering core = false →
      s.engineIdle core e = true → s.rerunFor core e core = none → s.recovering (core.val ^^^ 1) = false →
      s.rerunFor core e (core.val ^^^ 1) = some (w, l) → s.stealFor core e true = none →
      exec (.stealGrant core e) s = .next (State.after s
        (((s.modCore (core.val ^^^ 1) (fun k => { k with rerun := l })).giveItem core e w).progress core 117) core))
  ∧ (∀ (s : State) (core : Fin 8) (e : Fin 16) (w : WorkItem) (q : List WorkItem) (c : Cmd) (i segs : Nat),
      s.recovering core = false → (s.engine core e).running = none → s.rerunFirst core e = false →
      (s.engine core e).ahead = w :: q → s.cmdOf w = some c → dOp (c.desc w.stage) ≠ 0x30 →
      (dCoded (c.desc w.stage) = false ∨ w.tag.isSome) →
      segs = itemSegs (c.desc w.stage) (itemFloat (c.desc w.stage) (s.itemRecord core e w)) →
      (s.engine core e).freeSet segs = some i → s.itemReady c core e w = true →
      (w.home = core.val ∨ (s.core core).tagFree false = true) →
      exec (.workItemStart core e) s = .next (State.after s
        (((s.startItem c core e i segs w (s.itemRecord core e w)).feedQueues core).progress core e) core))
  ∧ (∀ (s : State) (c : Cmd) (core e i segs : Nat) (w : WorkItem) (r : List Byte), i < 2 → core < 8 →
      ((s.startItem c core e i segs w r).engine core e).running = some ({ w with started := s.now }, i)
        ∧ ((s.startItem c core e i segs w r).engine core e).set i = { state := .filling, item := some { w with started := s.now } }
        ∧ ((s.startItem c core e i segs w r).engine core e).set (1 - i)
            = (if 1 < segs then { state := .filling, item := some { w with started := s.now } } else (s.engine core e).set (1 - i))
        ∧ ((s.startItem c core e i segs w r).engine core e).ahead.length = (s.engine core e).dropAhead.ahead.length
        ∧ (s.startItem c core e i segs w r).mem = s.mem ∧ (s.startItem c core e i segs w r).streams = s.streams
        ∧ (s.startItem c core e i segs w r).persist = s.persist ∧ (s.startItem c core e i segs w r).ctxs = s.ctxs)
  ∧ (∀ (s : State) (core : Fin 8) (e : Fin 16), s.recovering core = false → (s.engine core e).running.isSome →
      exec (.workItemStart core e) s = .next (State.after s (s.lookAhead core e) core))
  ∧ (∀ (s : State) (core : Fin 8) (e : Fin 16) (w : WorkItem) (q : List WorkItem) (c : Cmd),
      s.recovering core = false → (s.engine core e).running = none → s.rerunFirst core e = false →
      (s.engine core e).ahead = w :: q → s.cmdOf w = some c →
      dOp (c.desc w.stage) = 0x30 → (s.engine core e).veFree = true →
      exec (.workItemStart core e) s = .next (State.after s ((s.modEngine core e (fun g =>
        { g.dropAhead with ve := { g.ve with item := some { w with started := s.now } } })).feedQueues core) core))
  ∧ (∀ (s : State) (core : Fin 8) (e : Fin 16) (l : List Nat), kget? (s.core core).mismatch e = some l →
      ∃ t, exec (.mismatchAgeOut core e) s = .next t
        ∧ kget? (t.core core).mismatch e = some (l.filter (fun a => decide (s.now ≤ a + 10000000000)))
        ∧ (∀ n, n ≠ e.val → kget? (t.core core).mismatch n = kget? (s.core core).mismatch n)
        ∧ t.mem = s.mem ∧ t.streams = s.streams ∧ t.persist = s.persist ∧ t.ctxs = s.ctxs)

/-- The reduction of a tile in one segment draws its free rounding order, and its words go, with the tile's status, where the
verdict of the checksum column sends them (R183, R209); while an extension of a raw block is missing it waits (R304). A segment is
added into the running total, and the last one passes the total on (R214). A tile that fails its check for the first time has its
sets free and nothing written: no bore memory, HBM, context or stream changes; its item stands last in its core's re-run queue with
the failing engine excluded and CHECK_FAIL set (R223); one that fails again is passed on UNRESOLVED and poisoned (R225).
The model's own readings and choices in it: log entry 128. -/
def Obligations.TilesAccumulate : Prop :=
  (∀ (s : State) (core : Fin 8) (e : Fin 16) (flips : AccFlips) (errs : BoreErrs) (w : WorkItem) (i : Nat) (c : Cmd) (u : State),
    (s.engine core e).running = some (w, i) → s.cmdOf w = some c → s.recovering core = false →
    itemSegs (c.desc w.stage) (itemFloat (c.desc w.stage) (s.itemRecord core e w)) = 1 →
    (s.bellReach c core e w (cdiv (dK (c.desc w.stage)) 32)).2 = true →
    u = (s.bellReach c core e w (cdiv (dK (c.desc w.stage)) 32)).1.fillFinds c core e w errs →
    (u.accumulate c core e w 0 (dK (c.desc w.stage)) s.draws flips).res ≠ .fail →
    exec (.accumulationDone ⟨core, e⟩ flips errs) s = .next (State.after s
      (({ u.bellWaits c core e w with draws := s.draws + 4096 } : State).fillDone core e i w (c.desc w.stage)
        (u.accumulate c core e w 0 (dK (c.desc w.stage)) s.draws flips).rows
        ((u.accumulate c core e w 0 (dK (c.desc w.stage)) s.draws flips).status (dCheck (c.desc w.stage)))) core))
  ∧ (∀ (s : State) (core : Fin 8) (e : Fin 16) (flips : AccFlips) (errs : BoreErrs) (w : WorkItem) (i : Nat) (c : Cmd) (u : State),
      (s.engine core e).running = some (w, i) → s.cmdOf w = some c → s.recovering core = false →
      itemSegs (c.desc w.stage) (itemFloat (c.desc w.stage) (s.itemRecord core e w)) = 1 →
      (s.bellReach c core e w (cdiv (dK (c.desc w.stage)) 32)).2 = true →
      u = (s.bellReach c core e w (cdiv (dK (c.desc w.stage)) 32)).1.fillFinds c core e w errs →
      (u.accumulate c core e w 0 (dK (c.desc w.stage)) s.draws flips).res = .fail →
      exec (.accumulationDone ⟨core, e⟩ flips errs) s = .next (State.after s
        (if w.checkFail then
          (({ u.bellWaits c core e w with draws := s.draws + 4096 } : State).unresolved (engNo core e) w).fillDone core e i w
            (c.desc w.stage) (u.accumulate c core e w 0 (dK (c.desc w.stage)) s.draws flips).rows
            ((u.accumulate c core e w 0 (dK (c.desc w.stage)) s.draws flips).status (dCheck (c.desc w.stage))
              ||| stUNRESOLVED ||| stPOISON)
        else ({ u.bellWaits c core e w with draws := s.draws + 4096 } : State).failTile core e w) core))
  ∧ (∀ (s : State) (core : Fin 8) (e : Fin 16) (flips : AccFlips) (errs : BoreErrs) (w : WorkItem) (i : Nat) (c : Cmd),
      (s.engine core e).running = some (w, i) → s.cmdOf w = some c → s.recovering core = false →
      itemSegs (c.desc w.stage) (itemFloat (c.desc w.stage) (s.itemRecord core e w)) = 1 →
      (s.bellReach c core e w (cdiv (dK (c.desc w.stage)) 32)).2 = false →
      exec (.accumulationDone ⟨core, e⟩ flips errs) s
        = .next (State.after s (s.bellReach c core e w (cdiv (dK (c.desc w.stage)) 32)).1 core))
  ∧ (∀ (s : State) (core : Fin 8) (e : Fin 16) (flips addFlips : AccFlips) (errs : BoreErrs) (w : WorkItem) (i : Nat) (c : Cmd),
      (s.engine core e).running = some (w, i) → s.cmdOf w = some c → s.recovering core = false → w.checkFail = false →
      (s.engine core e).segs < itemSegs (c.desc w.stage) (itemFloat (c.desc w.stage) (s.itemRecord core e w)) →
      1 < itemSegs (c.desc w.stage) (itemFloat (c.desc w.stage) (s.itemRecord core e w)) →
      (s.bellReach c core e w (cdiv (Nat.min (dK (c.desc w.stage)) (4096 * ((s.engine core e).segs + 1))) 32)).2 = true →
      ∃ u : State, exec (.segmentDone ⟨core, e⟩ flips addFlips errs) s = .next (State.after s u core)
        ∧ u.draws = s.draws + 4096 ∧ u.streams = s.streams ∧ u.ctxs = s.ctxs
        ∧ (((u.engine core e).segs = (s.engine core e).segs + 1 ∧ (u.engine core e).running = some (w, i))
          ∨ ((u.engine core e).segs = 0 ∧ (u.engine core e).running = none)))
  ∧ (∀ (s : State) (core : Fin 8) (e : Fin 16) (flips : AccFlips) (errs : BoreErrs) (w : WorkItem) (i n : Nat) (c : Cmd),
      (s.engine core e).running = some (w, i) → s.cmdOf w = some c → s.recovering core = false →
      itemSegs (c.desc w.stage) (itemFloat (c.desc w.stage) (s.itemRecord core e w)) = n → 1 < n → n ≤ (s.engine core e).segs →
      exec (.accumulationDone ⟨core, e⟩ flips errs) s = .next (State.after s
        ((s.bellWaits c core e w).fillDone core e i w (c.desc w.stage) ((s.engine core e).set i).rows
          (((s.engine core e).set i).status ||| stSEGMENTED)) core))
  ∧ (∀ (s : State) (core e : Nat) (w : WorkItem), (∀ c, s.cmdOf w = some c → c.code ≠ recNO_ENGINE) →
      ((s.failTile core e w).core w.home).rerun
          = (s.core w.home).rerun ++ [{ w with checkFail := true, excluded := some (engNo core e), tag := none }]
        ∧ ((s.failTile core e w).engine core e).running = none
        ∧ (∀ i, i < 2 → ((s.engine core e).set i).item = some w → ((s.failTile core e w).engine core e).set i = {})
        ∧ (∀ c, ((s.failTile core e w).core c).bore = (s.core c).bore)
        ∧ (s.failTile core e w).mem = s.mem ∧ (s.failTile core e w).ctxs = s.ctxs ∧ (s.failTile core e w).streams = s.streams
        ∧ (s.failTile core e w).persist = s.persist)

/-- A conversion to an integer format gives a code of its width that stands for the rounded value with the zero point, held to the
format's range; infinities give the end of their sign, NaN the zero point, held to the range (R112, R145). Rounding to nearest
is at most half away, and even where it is exactly half (R108). A finite code of the small floating formats converts to itself.
The model's own readings and choices in it: log entries 11, 125. -/
def Obligations.OutputConversion : Prop :=
  (∀ (fmt : Nat) (mode : Rnd) (z lo hi : Int) (v : FVal), intRange fmt = some (lo, hi) →
    (convInt fmt mode z v).1 < 2 ^ fmtBits fmt
      ∧ (if intSigned fmt then sext (fmtBits fmt) (convInt fmt mode z v).1 else ((convInt fmt mode z v).1 : Int))
        = (match v with
          | .nan => max lo (min hi z)
          | .inf n => if n then lo else hi
          | .fin n m => max lo (min hi (roundInt mode (FVal.frac (.fin n m)) + z))))
  ∧ (∀ n d : Nat, 0 < d →
      2 * n ≤ (2 * roundNat .rne ⟨n, d⟩ + 1) * d ∧ 2 * roundNat .rne ⟨n, d⟩ * d ≤ 2 * n + d
        ∧ ((2 * n = (2 * roundNat .rne ⟨n, d⟩ + 1) * d ∨ 2 * roundNat .rne ⟨n, d⟩ * d = 2 * n + d) → roundNat .rne ⟨n, d⟩ % 2 = 0))
  ∧ (∀ f ∈ [e4m3, e5m2, e2m1], ∀ (mode : Rnd) (sat : Bool) (c : Nat), mode ≠ .up → c < 2 ^ f.width → (f.decode c).isFinite = true →
      convFloat f mode sat (f.decode c) = (c, {}))

/-- A converting set that no ring slot stalls is converted and written, and one that is stalled waits; the vector engine runs the
body that it stopped in, else that of its vector run, else that of the set held for it; a codebook load takes a free slot, whose
VERSION inverts and whose record can be matched again when the load is done, and without one the loader stalls; an extension line
that comes back is held with its bytes, its tag is free, and the Bell asks for what it may ask for next (R203, R206, R248, R283,
R304, R308, R309, R310, R311, R317, R356).
The model's own readings and choices in it: log entries 8, 11, 128. -/
def Obligations.EnginesConvertAndRunBodies : Prop :=
  (∀ (s : State) (core : Fin 8) (e : Fin 16) (errs : BoreErrs) (i : Nat) (a : AccSet) (w : WorkItem) (c : Cmd), s.recovering core = false →
    (s.engine core e).oldest .converting = some (i, a, w) → s.cmdOf w = some c → s.convStalled c w = false →
    exec (.conversionDone ⟨core, e⟩ errs) s = .next (State.after s
      ((s.boreFinds w.home (c.mapped w.stage (c.convRanges w.stage w.rt w.ct)) errs).convertTile c core e i w a) core))
  ∧ (∀ (s : State) (core : Fin 8) (e : Fin 16) (errs : BoreErrs) (i : Nat) (a : AccSet) (w : WorkItem) (c : Cmd),
      (s.engine core e).oldest .converting = some (i, a, w) → s.cmdOf w = some c → s.convStalled c w = true →
      exec (.conversionDone ⟨core, e⟩ errs) s = .next s)
  ∧ (∀ (s : State) (core : Fin 8) (e : Fin 16) (errs : BoreErrs) (b : VeBody) (first : Bool) (c : Cmd), s.recovering core = false →
      (s.engine core e).nextBody = some (b, first) → s.cmdOf b.item = some c →
      exec (.veBodyEnd ⟨core, e⟩ errs) s = .next (State.after s (s.runBody core e c b first errs) core))
  ∧ (∀ (g : Engine) (b : VeBody), g.ve.body = some b → g.nextBody = some (b, false))
  ∧ (∀ (g : Engine) (w : WorkItem), g.ve.body = none → g.ve.item = some w →
      g.nextBody = some ({ item := w, set := none, left := [] }, true))
  ∧ (∀ (g : Engine) (i : Nat) (a : AccSet) (w : WorkItem), g.ve.body = none → g.ve.item = none → g.oldest .veHeld = some (i, a, w) →
      g.nextBody = some ({ item := w, set := some i, left := [], status := a.status }, true))
  ∧ (∀ (s : State) (core : Fin 8) (e : Fin 16) (w : WorkItem) (rest : List WorkItem) (c : Cmd) (i : Nat), s.recovering core = false →
      (s.engine core e).bell.loading = none → (s.engine core e).bell.waiting = w :: rest → s.cmdOf w = some c →
      (s.engine core e).bell.holds 0 (s.codebookIdent c w) = false → (s.engine core e).bell.holds 1 (s.codebookIdent c w) = false →
      s.slotsFull w.home (c.ringSlots w.stage (c.bookRanges w.stage
        (cbBig (s.bufRead w.home (c.map w.stage (dCbH (c.desc w.stage))) 0 8)))) = true →
      (s.engine core e).bell.freeSlot = some i →
      exec (.codebookLoadStart core e) s = .next (State.after s (s.modEngine core e (fun g =>
        { g with bell := { (g.bell.loaderGoes s.now).beginLoad i w with waiting := rest } })) core))
  ∧ (∀ (s : State) (core : Fin 8) (e : Fin 16) (w : WorkItem) (rest : List WorkItem) (c : Cmd), s.recovering core = false →
      (s.engine core e).bell.loading = none → (s.engine core e).bell.waiting = w :: rest → s.cmdOf w = some c →
      (s.engine core e).bell.holds 0 (s.codebookIdent c w) = false → (s.engine core e).bell.holds 1 (s.codebookIdent c w) = false →
      (s.engine core e).bell.freeSlot = none →
      exec (.codebookLoadStart core e) s = .next (State.after s (s.loaderStalls core e) core))
  ∧ (∀ (b : BellState) (i : Nat) (w : WorkItem), i < 2 → ((b.beginLoad i w).slot i).version = !(b.slot i).version
      ∧ ((b.beginLoad i w).slot i).tagCount = 0 ∧ (b.beginLoad i w).slot (1 - i) = b.slot (1 - i)
      ∧ (b.beginLoad i w).loading = some (i, w) ∧ (∀ id, (b.beginLoad i w).holds i id = false))
  ∧ (∀ (s : State) (core : Fin 8) (e : Fin 16) (errs : BoreErrs) (i : Nat) (w : WorkItem) (c : Cmd), s.recovering core = false → i < 2 →
      (s.engine core e).bell.loading = some (i, w) → s.cmdOf w = some c →
      cbBad (dBFmt (c.desc w.stage)) (s.bufRead w.home (c.map w.stage (dCbH (c.desc w.stage))) 0 8) = false →
      ∃ u : State, exec (.codebookLoadDone ⟨core, e⟩ errs) s = .next (State.after s (u.progress core (32 + e.val)) core)
        ∧ (u.engine core e).bell.loading = none
        ∧ (w ∉ (s.engine core e).ahead → ((u.engine core e).bell.slot i).tagCount = 0
            ∧ ((u.engine core e).bell.slot i).version = ((s.engine core e).bell.slot i).version
            ∧ (u.engine core e).bell.slot (1 - i) = (s.engine core e).bell.slot (1 - i))
        ∧ u.ctxs = s.ctxs ∧ u.persist = s.persist ∧ u.streams = s.streams)
  ∧ (∀ (s : State) (core : Fin 8) (e : Fin 16) (w : WorkItem) (j d a : Nat) (rest : List (Nat × Nat)) (c : Cmd), s.recovering core = false →
      (s.engine core e).running = some (w, j) → (s.engine core e).bell.extReads = (d, a) :: rest → s.cmdOf w = some c →
      s.ownedBy c.part a 64 = true →
      ∃ (u v : State) (bs : List Byte) (p : Bool),
        exec (.extensionReadReturn core e .clean) s = .next (State.after s (v.progress core (32 + e.val)) core)
        ∧ v = (u.freeTags core 1).issueExt core e ((u.freeTags core 1).extRows c core e w)
        ∧ (u.engine core e).bell.extReads = rest ∧ (u.engine core e).bell.extDone = (s.engine core e).bell.extDone ++ [(a, bs, p)]
        ∧ (bs, p) = s.hbmFetch c.part a 64
        ∧ u.mem.hbm = s.mem.hbm ∧ u.ctxs = s.ctxs ∧ u.streams = s.streams ∧ u.persist = s.persist)

/-! ### Handles, pages and requests of prep programs (07, 08) -/

/-- A doubleword store to a handle entry that no work names writes that word with the partition's number, other entries stand; a
store through the narrow view writes its eight bytes of bore memory alone; a prep fence waits for nothing that is not already
done (R328, R340, R341, R374, R379, R488).
The model's own readings and choices in it: log entries 19, 32. -/
def Obligations.PrepStores : Prop :=
  (∀ (s : State) (core : Fin 8) (prep : Fin 4) (addr : Fin 8704) (v : Word64) (part : Nat), s.prepPart core prep = some part →
    addr.val % 8 = 0 → s.fenced core = false → 32 ≤ addr.val → addr.val < 8192 →
    (8 ≤ addr.val % 32 ∨ (((s.core core).handle (addr.val / 32)).store part (addr.val % 32 / 8) v).pool = false) →
    s.handleBusy core (addr.val / 32) = false →
    ∃ t, exec (.handleEntryStore core prep addr v) s = .next t
      ∧ (t.core core).handle (addr.val / 32) = ((s.core core).handle (addr.val / 32)).store part (addr.val % 32 / 8) v
      ∧ (∀ n, n ≠ addr.val / 32 → (t.core core).handle n = (s.core core).handle n)
      ∧ t.mem = s.mem ∧ t.streams = s.streams ∧ t.persist = s.persist ∧ t.ctxs = s.ctxs)
  ∧ (∀ (s : State) (core : Fin 8) (prep : Fin 4) (addr : Fin 8704) (v : Word64) (part : Nat), s.prepPart core prep = some part →
      addr.val % 8 = 0 → s.fenced core = false → 32 ≤ addr.val → addr.val < 8192 → s.handleBusy core (addr.val / 32) = true →
      ∃ t e, exec (.handleEntryStore core prep addr v) s = .next t ∧ (∀ c, (t.core c).handles = (s.core c).handles)
        ∧ t.recov.heldEvents = s.recov.heldEvents ++ [e] ∧ e.event = 0x8003 ∧ t.mem = s.mem)
  ∧ (∀ (s : State) (core : Fin 8) (prep : Fin 4) (line : Fin 65536) (word : Fin 8) (v : Word64) (ecc : EccResult),
      s.fenced core = false →
      ∃ t, exec (.narrowViewAccess core prep line word (some v) ecc) s = .next t
        ∧ (∀ a, line.val * 64 + word.val * 8 ≤ a → a < line.val * 64 + word.val * 8 + 8 →
            (rdByte (t.core core).bore a).toNat = v.toNat / 256 ^ (a - (line.val * 64 + word.val * 8)) % 256)
        ∧ (∀ a, (a < line.val * 64 + word.val * 8 ∨ line.val * 64 + word.val * 8 + 8 ≤ a) →
            rdByte (t.core core).bore a = rdByte (s.core core).bore a)
        ∧ (∀ c, c ≠ core.val → t.core c = s.core c)
        ∧ t.mem = s.mem ∧ t.streams = s.streams ∧ t.persist = s.persist ∧ t.ctxs = s.ctxs)
  ∧ (∀ (s : State) (core : Fin 8) (prep : Fin 4), exec (.prepFence core prep) s = .next s)

/-- A page that a prep program frees is queued with the partition's epoch, which advances; the first of the queue is released to
the release ring when no walk registered at or before its epoch is left and its slot there is empty (R412, R414). -/
def Obligations.PagesAreFreedAndReleased : Prop :=
  (∀ (s : State) (core : Fin 8) (prep : Fin 4) (v : Word64) (part : Nat), s.prepPart core prep = some part → s.fenced core = false →
    ∃ t, exec (.pageFree core prep v) s = .next t
      ∧ kgetD t.mem.freed part [] = kgetD s.mem.freed part [] ++ [(v, kgetD s.mem.epoch part 0)]
      ∧ kgetD t.mem.epoch part 0 = (kgetD s.mem.epoch part 0 + 1) % 2 ^ 64
      ∧ (∀ p, p ≠ part → kgetD t.mem.freed p [] = kgetD s.mem.freed p [])
      ∧ t.mem.hbm = s.mem.hbm ∧ (∀ c, (t.core c).bore = (s.core c).bore ∧ (t.core c).handles = (s.core c).handles) ∧ t.streams = s.streams ∧ t.persist = s.persist ∧ t.ctxs = s.ctxs)
  ∧ (∀ (s : State) (p : Fin 8) (v : Word64) (e : Nat) (rest : List (Word64 × Nat)) (r : PartRec), kgetD s.mem.freed p [] = (v, e) :: rest →
      kget? s.persist.parts p = some r → s.oldestWalk p = none → s.releaseValid r.releaseRing (kgetD s.mem.releaseWr p 0) = false →
      s.ownedBy p (r.releaseRing + 16 * kgetD s.mem.releaseWr p 0) 16 = true →
      ∃ t, exec (.pageRelease p) s = .next t ∧ kgetD t.mem.freed p [] = rest
        ∧ kgetD t.mem.releaseWr p 0 = (kgetD s.mem.releaseWr p 0 + 1) % 4096
        ∧ t.mem.hbm = (s.hbmWrite (r.releaseRing + 16 * kgetD s.mem.releaseWr p 0)
            (toLe 8 v.toNat ++ toLe 8 (2 ^ 63 + e % 2 ^ 63)) false).mem.hbm
        ∧ t.cores = s.cores ∧ t.streams = s.streams ∧ t.persist = s.persist ∧ t.ctxs = s.ctxs)
  ∧ (∀ (s : State) (p : Fin 8) (v : Word64) (e n : Nat) (rest : List (Word64 × Nat)), kgetD s.mem.freed p [] = (v, e) :: rest →
      s.oldestWalk p = some n → n ≤ e → exec (.pageRelease p) s = .next s)

/-- The requests that a partition's tail has passed are taken in order and sent as their links have room; a request all of whose
messages have been answered has its code in its entry and its addition sent; a write not acknowledged in the walk bound ends
with LNK_PEER_ABSENT (R624 to R626).
The model's own readings and choices in it: log entries 38, 98. -/
def Obligations.LinkRequestsAreTakenAndEnd : Prop :=
  (∀ (s : State) (core : Fin 8) (prep : Fin 4) (tail : Word16) (part : Nat) (r : PartRec), s.prepPart core prep = some part →
    kget? s.persist.parts part = some r → s.fenced core = false → (tail.toNat + 65536 - kgetD s.svc.linkTail part 0) % 65536 ≤ 1024 →
    ∃ u : State, exec (.linkRequest core prep tail) s = .next ((List.range 8).foldl (fun t l => t.sendAll l 1024) u)
      ∧ u.svc.linkTail = kset ((List.range ((tail.toNat + 65536 - kgetD s.svc.linkTail part 0) % 65536)).foldl (fun t i =>
          t.takeRequest part r.linkRing ((kgetD s.svc.linkTail part 0 + i) % 1024)) s).svc.linkTail part tail.toNat
      ∧ kgetD u.svc.linkTail part 0 = tail.toNat)
  ∧ (∀ (s : State) (p : Fin 8) (rec_ : PartRec) (r : LinkReq), kget? s.persist.parts p = some rec_ →
      s.svc.linkReqs.find? (fun r => r.part == p.val && r.left == 0) = some r → s.ownedBy p (rec_.linkRing + 32 * r.idx + 30) 2 = true →
      ∃ t, exec (.linkRequestComplete p) s = .next t
        ∧ t.svc.linkReqs = s.svc.linkReqs.filter (fun q => !(q.part == r.part && q.idx == r.idx))
        ∧ t.mem.hbm = (s.hbmWrite (rec_.linkRing + 32 * r.idx + 30) (toLe 2 r.code.toNat) false).mem.hbm
        ∧ t.streams = s.streams ∧ t.persist = s.persist ∧ t.ctxs = s.ctxs ∧ t.links = s.links)
  ∧ (∀ (s : State) (link : Fin 8) (tag : BitVec 10) (w : LinkWait),
      (s.link link).waits.find? (fun w => w.tag == tag.toNat && w.op == 0) = some w →
      w.since + kgetD s.persist.kvWalkBound w.part 15000 ≤ s.now →
      exec (.linkWriteAckTimeout link tag) s
        = .next (((s.endWait link w none lnkPEER_ABSENT).modLink link (·.settleEpoch)).sendAll link 1024))

/-! ### Walks, channels and context slots (07, 08, 10) -/

/-- The first pair of a walk that is not here is asked of its peer's link once, or read as zeros and poisoned where no link leads
there; a pair not answered in the walk bound ends so too, with an event (R418). A context not in a slot is swapped in:
its victim's slot is empty until the swap is done, then it is the context's; firmware that recreates a context gives it its
image, with the round deadline that the scheduler keeps (R436, R448, R449, R708).
The model's own readings and choices in it: log entries 95, 130. -/
def Obligations.WalksAndContextSlots : Prop :=
  (∀ (s : State) (ctx core l : Nat) (c : Cmd) (w : Walk) (q : Nat × Nat × Nat × Nat × Nat × Nat) (rest : List (Nat × Nat × Nat × Nat × Nat × Nat)),
    s.walkCmd ctx = some (core, c, w) → s.recovering core = false → w.asked = none → w.pairs = q :: rest →
    s.peerLink c.part (pairRef q).peer = some l → (s.link l).waits.length ≤ 1020 → s.mem.hubTags ≤ 4092 →
    exec (.spillPairRequest ctx) s = .next ((s.pairShape core (c.desc w.stage)).parts.foldl (fun t x =>
      t.pairRead l c.part ctx ((pairRef q).slot * 256 + x.1)
        (landingAt (c.map w.stage (dBH (c.desc w.stage))) (s.pairShape core (c.desc w.stage)) + x.1) x.2)
      (s.modWalk core c (fun w => some { w with asked := some s.now }))))
  ∧ (∀ (s : State) (ctx core : Nat) (c : Cmd) (w : Walk) (q : Nat × Nat × Nat × Nat × Nat × Nat) (rest : List (Nat × Nat × Nat × Nat × Nat × Nat)),
      s.walkCmd ctx = some (core, c, w) → s.recovering core = false → w.asked = none → w.pairs = q :: rest →
      s.peerLink c.part (pairRef q).peer = none → bit (kgetD s.persist.kvPeer (c.part * 16 + (pairRef q).peer) 0) 3 = false →
      exec (.spillPairRequest ctx) s = .next (State.after s
        (((s.pairShape core (c.desc w.stage)).parts.foldl (fun t x => t.hbmWriteAs c.part
          (landingAt (c.map w.stage (dBH (c.desc w.stage))) (s.pairShape core (c.desc w.stage)) + x.1) (List.replicate x.2 0) true) s).pairDone
            core c w (pairRef q)) core))
  ∧ (∀ (s : State) (ctx core t0 : Nat) (c : Cmd) (w : Walk) (q : Nat × Nat × Nat × Nat × Nat × Nat) (rest : List (Nat × Nat × Nat × Nat × Nat × Nat)),
      s.walkCmd ctx = some (core, c, w) → w.asked = some t0 → w.pairs = q :: rest → t0 + kgetD s.persist.kvWalkBound c.part 15000 ≤ s.now →
      ∃ (u : State) (e : _), exec (.spillWalkTimeout ctx) s = .next (State.after s (u.pairDone core c w (pairRef q)) core)
        ∧ e ∈ u.recov.heldEvents ∧ e.event = 0x3007)
  ∧ (∀ (s : State) (ctx i : Nat) (ct : Ctx) (b : Bool) (t : State), s.ctx? ctx = some ct → s.recovering ct.core = false →
      s.runnable ctx ct = true → s.victim ctx ct = some (i, b) →
      t = s.modCore ct.core (fun k => { k with
        slots := kdel k.slots i, swaps := k.swaps ++ [(ctx, i, s.now)], schedStats := lbump k.schedStats 2 (b2n b) }) →
      exec (.contextSwapStart ctx) s = .next (match kget? (s.core ct.core).slots i with
        | none => t
        | some out => State.after s (t.swapOutFlush ct.core out) ct.core))
  ∧ (∀ (s : State) (ctx i n : Nat) (ct : Ctx), s.ctx? ctx = some ct →
      (s.core ct.core).swaps.find? (fun w => w.1 == ctx) = some (ctx, i, n) →
      exec (.contextSwapDone ctx) s = .next (State.after s (s.modCore ct.core (fun k => { k with
        slots := kset k.slots i ctx, swaps := k.swaps.filter (fun w => w.1 != ctx), schedStats := lbump k.schedStats 1 1 })) ct.core))
  ∧ (∀ (s : State) (init : CtxInit) (ct : Ctx), s.ctx? init.ctxId = some ct → s.fw = true →
      exec (.contextRecreate init) s = .next (State.after s ((s.quietCtx init.ctxId ct.core).modCtx init.ctxId (fun _ =>
        { ctxImage init ct.core ct.part ct.slot with roundDeadline := ct.roundDeadline })) ct.core))

/-- A running channel issues the next part of a piece that is ready, or takes up the wait that holds it, and writes what has come,
freeing the piece's tag with its last byte; one side of it fenced, it fails with REC_FENCED, and a failed one goes on with the ring
slots that it owes; a pool buffer not to be had in 50 µs fails it with MEM_POOL_EXHAUSTED (R347, R349, R354, R375, R380, R476,
R514).
The model's own readings and choices in it: log entry 92. -/
def Obligations.ChannelPieces : Prop :=
  (∀ (s : State) (core : Fin 8) (n : Fin 64) (errs : BoreErrs), s.recovering core = false → (s.chan core n).state = .running →
    (s.chan core n).issued < sdTotal (s.chan core n).desc.toNat → s.sideFenced (s.chan core n) = false →
    exec (.channelPieceIssue ⟨core, n⟩ errs) s = .next
      (if (s.pieceReady core n (s.chan core n)).2 then
        State.after s ((s.pieceReady core n (s.chan core n)).1.issuePiece core n
          ((s.pieceReady core n (s.chan core n)).1.chan core n) errs) core
      else (s.pieceReady core n (s.chan core n)).1))
  ∧ (∀ (s : State) (core : Fin 8) (n : Fin 64) (errs : BoreErrs), s.recovering core = false → (s.chan core n).state = .running →
      (s.chan core n).issued < sdTotal (s.chan core n).desc.toNat → s.sideFenced (s.chan core n) = true →
      exec (.channelPieceIssue ⟨core, n⟩ errs) s = .next (State.after s (s.failChannel core n recFENCED) core))
  ∧ (∀ (s : State) (core : Fin 8) (n : Fin 64) (errs : BoreErrs), s.recovering core = false → (s.chan core n).state = .failed →
      (s.chan core n).owed ≠ [] → s.sideFenced (s.chan core n) = false →
      exec (.channelPieceIssue ⟨core, n⟩ errs) s
        = .next (State.after s (s.failRing core n (s.chan core n) (s.chan core n).owed) core))
  ∧ (∀ (s : State) (core : Fin 8) (n : Fin 64) (piece : Nat) (q : Piece) (t : State), s.recovering core = false →
      (s.chan core n).state = .running → (s.chan core n).flight[piece]? = some q → s.sideFenced (s.chan core n) = false →
      (s.chan core n).dstRing = false → (s.chan core n).issued < sdTotal (s.chan core n).desc.toNat →
      t = (s.pieceWrite core (s.chan core n) q).modChan core n (fun c => { c with flight := c.flight.eraseIdx piece }) →
      exec (.channelPieceWritten core n piece) s = .next (State.after s
        ((if (t.chan core n).pieceOver q.pos then (t.freeTags core 1).modChan core n (fun c => { c with tags := c.tags - 1 })
          else t).progress core (48 + n)) core))
  ∧ (∀ (s : State) (core : Fin 8) (n : Fin 64) (t0 : Nat), (s.chan core n).poolSince = some t0 → (s.chan core n).state = .running →
      t0 + 50000 ≤ s.now →
      exec (.poolBufferTimeout core n) s = .next (State.after s (s.failChannel core n memPOOL_EXHAUSTED) core))

/-! ### HBM, the Windchest and the event log (08, 09) -/

/-- A controller serves a write to its own die's bytes that the owner check passes, in an extent of the sender's partition or, for a hub
agent, under a grant, and only there: a request outside changes no byte and is logged; a read that meets an uncorrectable line leaves the line poisoned (R464 to R468, R631). The oldest missed line
of a slice goes into the lowest way free for it (R472, R473). A scrub step passes one line (R469). The first event held for 2 µs enters
the log, numbered by the head, which advances; one that reaches the hub more than 2 µs late is committed at once with LATE (R498,
R499).
The model's own readings and choices in it: log entries 5, 8, 15, 131, 135. -/
def Obligations.MemoryAndEventLog : Prop :=
  (∀ (s : State) (die : Fin 2) (src : HbmId) (a : BitVec 40) (bs : List Byte) (poison : Bool) (ecc : EccResult),
    (hbmPlace a.toNat).map Prod.fst = some die.val → s.mayAccess src a.toNat bs.length true = true →
    ∃ t, exec (.hbmRequest die src a (.write bs poison) ecc) s = .next t ∧ t.mem.hbm = wrBytes s.mem.hbm a.toNat bs
      ∧ t.cores = s.cores ∧ t.streams = s.streams ∧ t.persist = s.persist ∧ t.ctxs = s.ctxs)
  ∧ (∀ (s : State) (die : Fin 2) (src : HbmId) (a : BitVec 40) (bs : List Byte) (poison : Bool) (ecc : EccResult),
      s.mayAccess src a.toNat bs.length true = false →
      ∃ t e, exec (.hbmRequest die src a (.write bs poison) ecc) s = .next t ∧ t.mem = s.mem
        ∧ t.recov.heldEvents = s.recov.heldEvents ++ [e] ∧ e.event = 0x600A ∧ e.code = memRANGE
        ∧ t.cores = s.cores ∧ t.streams = s.streams ∧ t.persist = s.persist ∧ t.ctxs = s.ctxs)
  ∧ (∀ (s : State) (die : Fin 2) (src : HbmId) (a : BitVec 40) (n : Nat),
      (hbmPlace a.toNat).map Prod.fst = some die.val → s.mayAccess src a.toNat n false = true → s.wcHolds a.toNat = false →
      ∃ t, exec (.hbmRequest die src a (.read n) .uncorrectable) s = .next t ∧ t.mem.hbm = s.mem.hbm
        ∧ a.toNat / 64 ∈ t.mem.poison ∧ t.cores = s.cores ∧ t.streams = s.streams ∧ t.persist = s.persist ∧ t.ctxs = s.ctxs)
  ∧ (∀ (s : State) (slice : Fin 16) (m : Miss) (rest : List Miss) (w : Nat), kgetD s.mem.misses slice [] = m :: rest →
      (s.persist.fillWays (m.part.getD 0xFE) (slice.val / 8)).find?
        (fun w => !(kgetD s.mem.sets (wcSet m.line) []).any (fun q => q.1 == w)) = some w →
      ∃ t, exec (.windchestFill slice) s = .next t ∧ kgetD t.mem.misses slice [] = rest
        ∧ kgetD t.mem.sets (wcSet m.line) [] = kgetD s.mem.sets (wcSet m.line) [] ++ [(w, m.line)]
        ∧ t.mem.hbm = s.mem.hbm ∧ t.cores = s.cores ∧ t.streams = s.streams ∧ t.persist = s.persist ∧ t.ctxs = s.ctxs)
  ∧ (∀ (s : State) (stack : Fin 12), s.hbmUp = true →
      ∃ t, exec (.scrubStep stack .clean) s = .next t ∧ t.mem.hbm = s.mem.hbm ∧ t.mem.poison = s.mem.poison
        ∧ kgetD t.mem.scrub stack 0 = (if stackLines ≤ kgetD s.mem.scrub stack 0 + 1 then 0 else kgetD s.mem.scrub stack 0 + 1)
        ∧ t.cores = s.cores ∧ t.streams = s.streams ∧ t.persist = s.persist ∧ t.ctxs = s.ctxs ∧ t.recov = s.recov)
  ∧ (∀ (s : State) (e : EventRec), s.hbmUp = true → (∀ x ∈ s.recov.errors, s.now ≤ x.time + 2000) →
      nextEvent (s.recov.heldEvents ++ s.recov.errors) s.now = some e →
      ∃ t, exec .eventLogCommit s = .next t ∧ t.recov.eventHead = s.recov.eventHead + 1
        ∧ t.recov.log = ((s.recov.eventHead, e) :: s.recov.log).take logRecords
        ∧ t.recov.heldEvents = (s.recov.heldEvents ++ s.recov.errors).erase e ∧ t.recov.errors = []
        ∧ t.mem = s.mem ∧ t.cores = s.cores ∧ t.streams = s.streams ∧ t.ctxs = s.ctxs)
  ∧ (∀ (s : State) (x : EventRec), s.hbmUp = true → s.recov.errors = [x] → x.time + 2000 < s.now →
      nextEvent s.recov.heldEvents s.now = none →
      ∃ t, exec .eventLogCommit s = .next t ∧ t.recov.eventHead = s.recov.eventHead + 1
        ∧ t.recov.log = ((s.recov.eventHead, { x with late := true }) :: s.recov.log).take logRecords
        ∧ t.recov.heldEvents = s.recov.heldEvents ∧ t.recov.errors = []
        ∧ t.mem = s.mem ∧ t.cores = s.cores ∧ t.streams = s.streams ∧ t.ctxs = s.ctxs)

/-! ### Recovery (09) -/

/-- A pending unit of a core that runs, whose counter has not advanced for a window, begins the core's recovery; in a
core that is being handled it escalates by one level; the fence ends
reads still outstanding at 4 µs; its drain, the compute reset and the resume follow one another; 2 Qmax and B later
latency-critical service resumes, and a stream's clearance interval ends in its time (R79, R502, R512 to R523). A reset that is not done in its time
starts that of the next level (R525 to R527).
The model's own readings and choices in it: log entries 86, 87, 132, 138. -/
def Obligations.RecoverySequence : Prop :=
  (∀ (s : State) (core : Fin 8) (u : DroneUnit) (b : Nat), s.hbmUp = true → s.recovering core = false →
    (kgetD (s.core core).progress (unitIndex u) {}).since = some b → s.unitPending core (unitIndex u) = true →
    Nat.max (kgetD (s.core core).progress (unitIndex u) {}).last b + s.persist.windowNs ≤ s.now + 1000 →
    ∃ e, exec (.hangDetected core u) s = .next (((e.firstError core 0x6001 0 (unitSource core u).1 (unitSource core u).2).declareCore core
        (kgetD (s.core core).progress (unitIndex u) {}).last 0 (unitSource core u).1 (unitIndex u)).noteHang core u)
      ∧ e = s.queueError 0x6001 0 (unitSource core u).1 (unitSource core u).2 [(8, (unitSource core u).1), (16, (unitSource core u).2)])
  ∧ (∀ (s : State) (core : Fin 8) (u : DroneUnit) (b : Nat), s.hbmUp = true → s.recovering core = true →
    (kgetD (s.core core).progress (unitIndex u) {}).since = some b → s.unitPending core (unitIndex u) = true →
    Nat.max (kgetD (s.core core).progress (unitIndex u) {}).last b + s.persist.windowNs ≤ s.now + 1000 →
    exec (.hangDetected core u) s = .next ((s.queueError 0x6001 0 (unitSource core u).1 (unitSource core u).2
      [(8, (unitSource core u).1), (16, (unitSource core u).2)]).escalate core 0x6001 (unitSource core u).1 (unitSource core u).2
        (unitIndex u)))
  ∧ (∀ (s : State) (core : Fin 8) (part : DumpPart) (i : Nat), (s.core core).seqr.dump = some i →
      partNo part ∈ (s.core core).seqr.unread → s.now ≤ (s.core core).seqr.declared + 4000 →
      ∃ t, exec (.dumpPartTimeout core part) s = .next t
        ∧ (t.core core).seqr.unread = ((s.core core).seqr.unread.dropWhile (· != partNo part)).drop 1
        ∧ (∀ c, c ≠ core.val → t.core c = s.core c) ∧ t.mem = s.mem ∧ t.streams = s.streams ∧ t.persist = s.persist ∧ t.ctxs = s.ctxs)
  ∧ (∀ (s : State) (core : Fin 8), (s.core core).seqr.state = .fenced → (s.core core).seqr.declared + 4000 ≤ s.now →
      ∃ t, exec (.fenceReadExpiry core) s = .next t
        ∧ (t.core core).tags = 0 ∧ (t.core core).fencedReads = (s.core core).fencedReads + (s.core core).outstanding
        ∧ (∀ m ∈ (t.core core).cmds, m.walk = none) ∧ (∀ q ∈ (t.core core).channels, q.2.flight = []) ∧ (∀ q ∈ (t.core core).engines, q.2.bell.extReads = [])
        ∧ t.mem = s.mem ∧ t.streams = s.streams ∧ t.persist = s.persist ∧ t.ctxs = s.ctxs)
  ∧ (∀ (s : State) (c : Fin 8), (s.core c).seqr.state = .fenced → (s.core c).seqr.byDie = false → (s.core c).outstanding = 0 →
      s.now ≤ (s.core c).seqr.declared + 5000 →
      ∃ t, exec (.fenceDrainComplete (.core c)) s = .next t ∧ (t.core c).seqr.state = .resetting ∧ (t.core c).seqr.resetAt = s.now
        ∧ (t.core c).seqr.resets = (s.core c).seqr.resets + 1 ∧ (t.core c).bore = [] ∧ (t.core c).handles = []
        ∧ (t.core c).shadow = (s.core c).shadow ∧ (t.core c).cmds = (s.core c).cmds
        ∧ (∀ d, d ≠ c.val → t.core d = s.core d) ∧ t.mem = s.mem ∧ t.streams = s.streams ∧ t.persist = s.persist ∧ t.ctxs = s.ctxs)
  ∧ (∀ (s : State) (c : Fin 8), (s.core c).seqr.state = .resetting → (s.core c).seqr.byDie = false →
      s.now ≤ (s.core c).seqr.resetAt + 20000 →
      exec (.computeResetDone (.core c)) s = .next (s.modSeq c (fun q => { q with state := .resuming, doneAt := s.now })))
  ∧ (∀ (s : State) (c : Fin 8), (s.core c).seqr.state = .resuming → (s.core c).seqr.byDie = false →
      s.now ≤ (s.core c).seqr.doneAt + 10000 →
      exec (.resume (.core c)) s = .next (State.after s (s.resumeCore c) c))
  ∧ (∀ (s : State) (d : Fin 2), (s.die d).state = .fenced →
      ((∀ c ∈ coresOfDie d, (s.core c).outstanding = 0) ∨ (s.die d).declared + 4000 ≤ s.now) →
      exec (.fenceDrainComplete (.die d)) s = .next (((coresOfDie d).foldl State.resetCore s).modDie d (fun q => { q with
        state := .resetting, resetAt := s.now, resets := q.resets + 1, lastNs := s.now })))
  ∧ (∀ (s : State) (d : Fin 2), (s.die d).state = .resetting →
      exec (.computeResetDone (.die d)) s = .next (((coresOfDie d).foldl (fun (t : State) c =>
        t.modSeq c (fun q => { q with state := .resuming })) s).modDie d (fun q => { q with state := .resuming })))
  ∧ (∀ (s : State) (d : Fin 2), (s.die d).state = .resuming →
      exec (.resume (.die d)) s = .next ((coresOfDie d).foldl (fun (t : State) c => State.after s (t.resumeCore c) c)
        (s.modDie d (fun q => { q with state := .running }))))
  ∧ (∀ (s : State) (c : Fin 8) (at_ : Nat), (s.core c).seqr.serviceAt = some at_ → at_ ≤ s.now →
      ∃ t, exec (.lcServiceResume c) s = .next t ∧ (t.core c).seqr.serviceAt = none
        ∧ (∀ (i : Nat) (x : StreamCtx), s.stream? i = some x → t.stream? i = some (if x.core = c.val ∧ x.be = false then
            { x with clearanceEnd := some (at_ + cdiv (x.reserve * 1024) (Nat.max 1 s.persist.headroom)), clearedAt := none } else x))
        ∧ t.mem = s.mem ∧ t.persist = s.persist ∧ t.ctxs = s.ctxs)
  ∧ (∀ (s : State) (i : Fin 16384) (x : StreamCtx) (e : Nat), s.stream? i = some x → x.clearanceEnd = some e → e ≤ s.now →
      ∃ t, exec (.clearanceIntervalEnd i) s = .next t ∧ t.stream? i = some { x with clearanceEnd := none, clearedAt := some e }
        ∧ (∀ j, j ≠ i.val → t.stream? j = s.stream? j) ∧ t.mem = s.mem ∧ t.cores = s.cores ∧ t.persist = s.persist)
  ∧ (∀ (s : State) (c : Fin 8) (u : DroneUnit), (s.core c).seqr.state = .resetting → (s.core c).seqr.byDie = false →
      (s.core c).seqr.resetAt + 20000 ≤ s.now →
      exec (.coreResetTimeout c u) s = .next (((s.laterError c).firstError (8 + dieOf c) 0x6002 0 (unitSource c u).1 (unitSource c u).2).declareDie
        (dieOf c) 2 (unitSource c u).1 (unitIndex u)))
  ∧ (∀ (s : State) (d : Fin 2) (core : Fin 4) (u : DroneUnit), (s.die d).state = .resetting → (s.die d).resetAt + 40000 ≤ s.now →
      ∃ t, exec (.dieResetTimeout ⟨d, core, u⟩) s = .next t ∧ t.aon.phase = .internalReset ∧ t.aon.boot = .rom ∧ t.streams.ctx = []
        ∧ t.cores = [] ∧ t.mem.hbm = s.mem.hbm ∧ t.persist.moduleResets = s.persist.moduleResets + 1
        ∧ (kget? t.recov.first 10).map (fun f => (f.event, f.kind.toNat, f.index))
            = some (0x6003, (unitSource (4 * d.val + core.val) u).1, (unitSource (4 * d.val + core.val) u).2))

/-! ### Scale links (14) -/

/-- A good flit in order is counted and its acknowledgement taken; one with a bad CRC is answered with a NAK, once; a NAK that leaves
nothing to send again only acknowledges; a link that goes down drops its traffic and waits; a link that trains and is enrolled asks for its keys; a peer
that does not answer in 50 ms is absent; the enrolled peer's signed key brings the link up and no other does; a rekey begins a new epoch
(R614 to R619, R645, R646).
The model's own readings and choices in it: log entries 98, 140. -/
def Obligations.LinksTrainAndCarry : Prop :=
  (∀ (s : State) (l : Fin 8) (f : Flit), f.payload.length = 242 → (s.link l).trained = true → f.crcOk = true →
    bits f.header.toNat 63 60 = 0 → bits f.header.toNat 59 48 = (s.link l).rxSeq →
    exec (.linkFlitReceive l f) s = .next (s.modLink l (fun k => ({ k with
      rxSeq := (k.rxSeq + 1) % 4096, nakSent := false, owed := lbump k.owed (bits f.header.toNat 35 33) 1 } : Link).headerTaken (s.linkShares l) f.header.toNat)))
  ∧ (∀ (s : State) (l : Fin 8) (f : Flit), f.payload.length = 242 → (s.link l).trained = true → f.crcOk = false →
      (s.link l).nakSent = false →
      ∃ t, exec (.linkFlitReceive l f) s = .next t ∧ (t.link l).nakSent = true ∧ (t.link l).rxSeq = (s.link l).rxSeq
        ∧ t.net.tx = .linkNak l (((s.link l).rxSeq + 4095) % 4096) :: s.net.tx
        ∧ t.mem = s.mem ∧ t.cores = s.cores ∧ t.streams = s.streams ∧ t.persist = s.persist)
  ∧ (∀ (s : State) (l : Fin 8) (n : BitVec 12), (s.link l).trained = true → ((s.link l).ackTo n.toNat).replay = [] →
      exec (.linkNak l n) s = .next (s.modLink l (fun k => k.ackTo n.toNat)))
  ∧ (∀ (s : State) (l : Fin 8), (s.link l).trained = true →
      ∃ t, exec (.linkDown l) s = .next t ∧ (t.link l).up = false ∧ (t.link l).trained = false ∧ (t.link l).txq = []
        ∧ (t.link l).waits = [] ∧ (t.link l).epoch = none ∧ (t.link l).trainSince = some s.now ∧ t.persist = s.persist)
  ∧ (∀ (s : State) (l : Fin 8), s.fw = true → s.linkEnabled l = true → (s.link l).trained = false →
      (kgetD s.persist.linkPeer l []).all (· == 0) = false →
      ∃ t, exec (.linkUp l) s = .next t ∧ (t.link l).trained = true ∧ (t.link l).txSeq = 0 ∧ (t.link l).rxSeq = 0
        ∧ (t.link l).credits = linkCredits ∧ (t.link l).up = (s.link l).up ∧ t.net.tx = .linkKey l :: s.net.tx
        ∧ t.mem = s.mem ∧ t.cores = s.cores ∧ t.streams = s.streams ∧ t.persist = s.persist)
  ∧ (∀ (s : State) (l : Fin 8) (t0 : Nat), (s.link l).trainSince = some t0 → (s.link l).up = false → (s.link l).peerAbsent = false →
      t0 + 50000000 ≤ s.now →
      ∃ t, exec (.linkRetrainTimeout l) s = .next t ∧ (t.link l).peerAbsent = true ∧ (t.link l).up = false
        ∧ t.mem = s.mem ∧ t.cores = s.cores ∧ t.streams = s.streams ∧ t.persist = s.persist)
  ∧ (∀ (s : State) (l : Fin 8) (key serial : List Byte) (ok : Bool), (s.link l).trained = true → (s.link l).up = false →
      (kgetD s.persist.linkPeer l []).all (· == 0) = false →
      ∃ t, exec (.linkKeyExchange l key ok serial) s = .next t
        ∧ ((t.link l).up = true ↔ ok = true ∧ key = kgetD s.persist.linkPeer l [])
        ∧ ((t.link l).up = true → (t.link l).epoch = some (s.link l).epochs ∧ (t.link l).txCounter = 0)
        ∧ t.mem = s.mem ∧ t.cores = s.cores ∧ t.streams = s.streams ∧ t.persist = s.persist)
  ∧ (∀ (s : State) (l : Fin 8), (s.link l).up = true →
      ∃ t, exec (.linkRekey l) s = .next t ∧ (t.link l).epoch = some (s.link l).epochs ∧ (t.link l).epochs = (s.link l).epochs + 1
        ∧ (t.link l).txCounter = 0 ∧ (t.link l).up = true ∧ t.net.tx = .linkRekey l :: s.net.tx
        ∧ t.mem = s.mem ∧ t.cores = s.cores ∧ t.streams = s.streams ∧ t.persist = s.persist)

/-- An authentic write that lies in its partition's window is written to HBM there and acknowledged; a read there is answered with
the bytes; one outside the window is refused with MEM_RANGE and changes no byte; an acknowledgement ends its wait; a message that is not authentic takes the link
down (R321, R464, R621 to R624).
The model's own readings and choices in it: log entries 36, 37, 94, 98, 135. -/
def Obligations.LinkMessages : Prop :=
  (∀ (s u : State) (l : Fin 8) (m : LinkMsg), m.tagOk = true → s.linkMsg? l m = some u → lhOp m.header.toNat = 0 →
    u.inWindow l (lhPart m.header.toNat) (lhOff m.header.toNat) (linkPayload m.header.toNat m).length = true →
    exec (.linkWriteMessage l m) s = .next ((u.hbmWriteAs (lhPart m.header.toNat) (windowAddr l (lhPart m.header.toNat) (lhOff m.header.toNat))
      (linkPayload m.header.toNat m) false).linkSend l 1 (lhTc m.header.toNat) (lhPart m.header.toNat) (lhTag m.header.toNat) 2
      (lhOff m.header.toNat) (toLe 2 0)))
  ∧ (∀ (s u : State) (l : Fin 8) (m : LinkMsg), m.tagOk = true → s.linkMsg? l m = some u → lhOp m.header.toNat = 0 →
      u.inWindow l (lhPart m.header.toNat) (lhOff m.header.toNat) (linkPayload m.header.toNat m).length = false →
      ∃ t, exec (.linkWriteMessage l m) s = .next t ∧ t.mem.hbm = s.mem.hbm ∧ t.persist = s.persist ∧ t.cores = s.cores)
  ∧ (∀ (s u : State) (l : Fin 8) (m : LinkMsg), m.tagOk = true → s.linkMsg? l m = some u → lhOp m.header.toNat = 2 →
      0 < lhLen m.header.toNat → lhLen m.header.toNat ≤ 4096 →
      u.inWindow l (lhPart m.header.toNat) (lhOff m.header.toNat) (lhLen m.header.toNat) = true →
      exec (.linkReadRequest l m) s = .next (u.linkSend l 3 (lhTc m.header.toNat) (lhPart m.header.toNat) (lhTag m.header.toNat)
        (lhLen m.header.toNat) (lhOff m.header.toNat) (u.hbmRead (windowAddr l (lhPart m.header.toNat) (lhOff m.header.toNat)) (lhLen m.header.toNat))))
  ∧ (∀ (s u : State) (l : Fin 8) (m : LinkMsg) (w : LinkWait), m.tagOk = true → s.linkMsg? l m = some u → lhOp m.header.toNat = 1 →
      (u.link l).waits.find? (fun w => w.tag == lhTag m.header.toNat) = some w → w.ctx = none →
      exec (.linkResponse l m) s = .next (((u.endWait l w none (BitVec.ofNat 16 (leAt m.payload 0 2))).modLink l (·.settleEpoch)).sendAll l 1024))
  ∧ (∀ (s : State) (l : Fin 8) (m : LinkMsg), m.tagOk = false → (s.link l).up = true →
      exec (.linkWriteMessage l m) s = .next (s.linkGoDown l lnkAUTH) ∧ exec (.linkReadRequest l m) s = .next (s.linkGoDown l lnkAUTH)
        ∧ exec (.linkResponse l m) s = .next (s.linkGoDown l lnkAUTH))

/-! ### Power (15) -/

/-- The standby supply in its range starts the always-on controller; PWR_EN high in standby with a good input starts the rails; each
group in time is counted, and the sixth lets the module run; a group late, a rail more than 5 % off, an input out of its limits or a comparator
at its trip shut the module down with the first cause recorded, and a cause of the same AON cycle joins the record; PWR_EN low turns the rails off, the later groups first; 100 ms of it
end a latched shutdown (R27, R658, R660 to R665, R668, R681, R682, R684, R685, R688). -/
def Obligations.PowerSequence : Prop :=
  (∀ (s : State) (mv : Nat), s.aon.phase = .unpowered → 40000 ≤ mv → mv ≤ 62000 →
    exec (.standbySupplyUp mv) s = .next { s with aon := { s.aon with phase := .standby, clock := 0, lowSince := some 0, inputMv := mv } })
  ∧ (∀ (s : State) (straps : Straps) (n : Nat), s.aon.phase = .standby → s.aon.pwrEn = false → s.aon.lowSince = some n →
      n + 100000000 ≤ s.aon.clock → s.aon.downGroup = none → 50000 ≤ s.aon.inputMv → s.aon.inputMv ≤ 59500 →
      standingTrips s.aon.temps = [] → heldFor s.aon.since 32 (limitHold 32) s.aon.clock = false →
      heldFor s.aon.since 31 (limitHold 31) s.aon.clock = false →
      ∃ t, exec (.pwrEnHigh straps) s = .next t ∧ t.aon.phase = .sequencing ∧ t.aon.groups = 0 ∧ t.aon.seqStart = s.aon.clock
        ∧ t.aon.alert = 0 ∧ t.aon.pwrEn = true ∧ t.aon.straps = straps ∧ t.mem = s.mem ∧ t.persist = s.persist ∧ t.flash = s.flash)
  ∧ (∀ s : State, s.aon.phase = .sequencing → s.aon.groups < 6 →
      s.aon.clock ≤ s.aon.seqStart + groupBound (s.aon.groups + 1) + 2000000 →
      ∃ t, exec .railGroupInRegulation s = .next t ∧ t.aon.groups = s.aon.groups + 1
        ∧ t.aon.phase = (if s.aon.groups = 5 then .running else .sequencing)
        ∧ t.time.running = (s.time.running || s.aon.groups == 5) ∧ t.mem = s.mem ∧ t.persist = s.persist ∧ t.flash = s.flash)
  ∧ (∀ s : State, s.aon.phase = .sequencing → s.aon.seqStart + groupBound (s.aon.groups + 1) + 2000000 ≤ s.aon.clock →
      ∃ t r, exec .railSequenceTimeout s = .next t ∧ t.aon.phase = .shutdown ∧ t.aon.pending = some r ∧ r.cause = 3
        ∧ r.sensor = (railsOfGroup (s.aon.groups + 1)).headD 0 ∧ t.flash = s.flash ∧ t.persist = s.flash)
  ∧ (∀ (s : State) (rail : Fin 9) (mv : Int), s.aon.phase.powered = true → railGroup.getD rail 0 ≤ s.aon.groups →
      (railNominal.getD rail 0 : Int) < 20 * (mv - railNominal.getD rail 0).natAbs →
      ∃ t r, exec (.railFault rail mv) s = .next t ∧ t.aon.phase = .shutdown ∧ t.aon.pending = some r ∧ r.cause = 3
        ∧ r.sensor = rail.val ∧ r.value = mv ∧ t.flash = s.flash ∧ t.persist = s.flash)
  ∧ (∀ (s : State) (high : Bool) (mv : Int), s.aon.phase.powered = true → (if high then 60000 < mv else mv < 49500) →
      ∃ t r, exec (.inputTrip high mv) s = .next t ∧ t.aon.phase = .shutdown ∧ t.aon.pending = some r
        ∧ r.cause = (if high then 1 else 2) ∧ r.value = mv ∧ t.flash = s.flash ∧ t.persist = s.flash)
  ∧ (∀ (s : State) (sensor : Fin 25) (mC w trip : Int), s.aon.phase.powered = true → tempLimits sensor = some (w, trip) → trip ≤ mC →
      ∃ t r, exec (.thermalTrip sensor mC) s = .next t ∧ t.aon.phase = .shutdown ∧ t.aon.pending = some r
        ∧ r.cause = tripCause sensor ∧ r.sensor = sensor.val + 1 ∧ r.value = mC ∧ t.flash = s.flash ∧ t.persist = s.flash)
  ∧ (∀ (s : State) (sensor : Fin 25) (mC w trip : Int) (r : ShutdownRec), s.sameDecision = true → s.aon.pending = some r →
      tempLimits sensor = some (w, trip) → trip ≤ mC →
      ∃ t, exec (.thermalTrip sensor mC) s = .next t ∧ t.aon.phase = .shutdown ∧ t.flash = s.flash ∧ t.persist = s.persist
        ∧ t.aon.pending = some (if tripCause sensor < r.cause then
            { r with cause := tripCause sensor, sensor := sensor.val + 1, value := mC, mask := r.mask ||| 2 ^ (tripCause sensor - 1) }
          else { r with mask := r.mask ||| 2 ^ (tripCause sensor - 1) }))
  ∧ (∀ (s : State) (r : SensorReading), s.aon.phase = .standby → (s.aon.pwrEn = false ∨ s.aon.highWaits ≠ none) →
      ∃ t, exec (.sensorSample r) s = .next t ∧ t.aon.inputMv = r.inputMv ∧ t.aon.inputMa = r.inputMa ∧ t.aon.temps = r.temps
        ∧ t.aon.flow = r.flow ∧ t.aon.phase = .standby ∧ t.mem = s.mem ∧ t.persist = s.persist ∧ t.flash = s.flash)
  ∧ (∀ s : State, s.aon.phase.powered = true → s.aon.pwrEn = true →
      ∃ t, exec .pwrEnLow s = .next t ∧ t.aon.phase = .standby ∧ t.aon.pwrEn = false ∧ t.aon.lowSince = some s.aon.clock
        ∧ t.aon.downGroup = (if s.aon.groups = 0 then none else some s.aon.groups) ∧ t.streams = {} ∧ t.cores = []
        ∧ t.flash = s.flash ∧ t.persist = s.flash ∧ t.aon.pending = s.aon.pending)
  ∧ (∀ (s : State) (g : Nat), s.aon.downGroup = some g →
      ∃ t, exec .railGroupBelowTenPercent s = .next t ∧ t.aon.downGroup = (if g ≤ 1 then none else some (g - 1))
        ∧ (∀ r ∈ railsOfGroup g, kget? t.aon.rails r = none) ∧ t.mem = s.mem ∧ t.persist = s.persist ∧ t.flash = s.flash)
  ∧ (∀ (s : State) (n : Nat), s.aon.phase = .shutdown → s.aon.lowSince = some n → n + 100000000 ≤ s.aon.clock → s.aon.pwrEn = false →
      exec .pwrEnLowTimeElapsed s = .next { s with aon := { s.aon with phase := .standby } })

/-! ### Module reset and boot (09, 13, 15) -/

/-- A module reset ends every stream and resets every domain but the always-on one: flash holds the values whose commit was under way, the
count of module resets has one more, HBM keeps its bytes (R527, R689). Its release boots again. A loss of the standby supply leaves nothing but
what the flash holds. The boot ROM starts the active image that passes; training starts the firmware stage, or halts; the
firmware that starts answers; ready follows (R641, R661, R694, R695).
The model's own readings and choices in it: log entries 58, 91. -/
def Obligations.ResetAndBoot : Prop :=
  (∀ s : State, (s.aon.phase = .running ∨ s.aon.phase = .internalReset) →
    ∃ t, exec .modRstAssert s = .next t ∧ t.aon.phase = .resetHeld ∧ t.aon.rstLow = true ∧ t.streams.ctx = [] ∧ t.cores = []
      ∧ t.ctxs = [] ∧ t.mem.hbm = s.mem.hbm ∧ t.persist = { s.committed with moduleResets := s.persist.moduleResets + 1 }
      ∧ t.flash = t.persist ∧ (∀ q ∈ s.streams.ctx, q.1 ∈ t.streams.lost) ∧ t.clotha.dictReady = false)
  ∧ (∀ (s : State) (straps : Straps), s.aon.phase = .resetHeld →
      ∃ t, exec (.modRstRelease straps) s = .next t ∧ t.aon.phase = .running ∧ t.aon.boot = .rom ∧ t.aon.straps = straps
        ∧ t.time.running = true ∧ t.aon.rstLow = false ∧ t.mem = s.mem ∧ t.persist = s.persist ∧ t.flash = s.flash)
  ∧ (∀ s : State, ∃ t, exec .standbySupplyLoss s = .next t ∧ t.aon.phase = .unpowered ∧ t.cores = [] ∧ t.mem = {} ∧ t.streams = {}
      ∧ t.persist = t.flash ∧ (s.aon.pending = none → t.flash = s.flash)
      ∧ (s.aon.pending ≠ none → t.flash = { s.flash with lastShutdown := {} }))
  ∧ (∀ (s : State) (c0 c1 : ImageCheck), s.aon.boot = .rom → s.persist.bootable (s.persist.activeSlot 0) = true →
      s.persist.imageTest (s.persist.activeSlot 0) (if s.persist.activeSlot 0 = 0 then c0 else c1) = none →
      ∃ t, exec (.bootRomCheck c0 c1) s = .next t ∧ t.aon.ligSlot = some (s.persist.activeSlot 0) ∧ t.aon.boot = .hbm ∧ t.aon.hubUp = true
        ∧ t.time.running = true ∧ t.mem = s.mem ∧ t.persist = s.persist ∧ t.flash = s.flash)
  ∧ (∀ (s : State) (ok : Bool), s.aon.boot = .hbm →
      exec (.hbmTrainingDone ok) s = .next { s with aon := { s.aon with boot := if ok then .firmware else .halted } })
  ∧ (∀ (s : State) (c2 c3 : ImageCheck) (j : Bool) (l : List (Nat × PartChoice)) (slot : Nat), s.hbmUp = true → s.clotha.dictReady = false →
      s.aon.activating = none → s.aon.sfSlot = some slot →
      exec (.serviceFirmwareStart c2 c3 j l) s = .next (s.firmwareUp slot))
  ∧ (∀ (s : State) (c2 c3 : ImageCheck) (slot : Nat), s.hbmUp = true → s.clotha.dictReady = false → s.aon.activating = none →
      s.aon.sfSlot = none → s.aon.straps.boot ≠ 2 → s.persist.parts = [] → s.bootOrder.head? = some slot →
      s.persist.bootable slot = true → s.persist.imageTest slot (if slot = 2 then c2 else c3) = none →
      ∃ t, exec (.serviceFirmwareStart c2 c3 true []) s = .next t ∧ t.clotha.dictReady = true ∧ t.svc.sfRunning = true
        ∧ t.aon.sfSlot = some slot ∧ t.persist = s.persist.restartKeys ∧ t.flash = s.flash ∧ t.mem = s.mem)
  ∧ (∀ s : State, s.clotha.dictReady = true → s.aon.boot = .firmware →
      exec .moduleReady s = .next { s with aon := { s.aon with ready := true, boot := .ready }, time := { s.time with ppsOn := true } })
end

