-- ==== Sys2Proof/Laws/Maps.lean ====
section
/-! SUPPORT. Laws of the finite maps, sets and addressed bytes: a read after a write, and the canonical form kept. -/

namespace Sys2Proof.Machine

variable {α : Type}

/-! ### Maps: a read after a write -/

@[simp] theorem kget?_nil (i : Nat) : kget? ([] : KMap α) i = none := rfl
@[simp] theorem kgetD_nil (i : Nat) (d : α) : kgetD [] i d = d := rfl

/-- A key written reads as what was written. -/
@[simp] theorem kget?_kset_self (m : KMap α) (i : Nat) (a : α) : kget? (kset m i a) i = some a := by
  induction m with
  | nil => simp [kset, kget?]
  | cons p m ih =>
    obtain ⟨k, b⟩ := p
    unfold kset
    split
    · simp [kget?]
    · split
      · simp [kget?]
      · rename_i h1 h2
        simp [kget?, ih, Ne.symm h2]

/-- A write leaves every other key alone. -/
theorem kget?_kset_ne (m : KMap α) {i j : Nat} (a : α) (h : j ≠ i) : kget? (kset m i a) j = kget? m j := by
  induction m with
  | nil => simp [kset, kget?, Ne.symm h]
  | cons p m ih =>
    obtain ⟨k, b⟩ := p
    unfold kset
    split
    · simp [kget?, Ne.symm h]
    · split
      · rename_i h1 h2
        subst h2
        simp [kget?, Ne.symm h]
      · simp [kget?, ih]

@[simp] theorem kgetD_kset_self (m : KMap α) (i : Nat) (a d : α) : kgetD (kset m i a) i d = a := by simp [kgetD]
theorem kgetD_kset_ne (m : KMap α) {i j : Nat} (a d : α) (h : j ≠ i) : kgetD (kset m i a) j d = kgetD m j d := by
  simp [kgetD, kget?_kset_ne m a h]

@[simp] theorem kgetD_kmod_self (m : KMap α) (i : Nat) (d : α) (f : α → α) : kgetD (kmod m i d f) i d = f (kgetD m i d) := by
  simp [kmod]
theorem kgetD_kmod_ne (m : KMap α) {i j : Nat} (d e : α) (f : α → α) (h : j ≠ i) :
    kgetD (kmod m i d f) j e = kgetD m j e := kgetD_kset_ne m _ e h

/-- A listed key changed reads as its image; an unlisted one stays unlisted. -/
@[simp] theorem kget?_kmod?_self (m : KMap α) (i : Nat) (f : α → α) : kget? (kmod? m i f) i = (kget? m i).map f := by
  unfold kmod?
  split
  · rename_i h; simp [h]
  · rename_i a h; simp [h]
theorem kget?_kmod?_ne (m : KMap α) {i j : Nat} (f : α → α) (h : j ≠ i) : kget? (kmod? m i f) j = kget? m j := by
  unfold kmod?
  split
  · rfl
  · exact kget?_kset_ne m _ h

/-- A key deleted is unlisted. -/
@[simp] theorem kget?_kdel_self (m : KMap α) (i : Nat) : kget? (kdel m i) i = none := by
  induction m with
  | nil => rfl
  | cons p m ih =>
    obtain ⟨k, b⟩ := p
    by_cases h : k = i
    · simpa [kdel, h] using ih
    · have : kdel ((k, b) :: m) i = (k, b) :: kdel m i := by simp [kdel, h]
      simp [this, kget?, h, ih]

/-- A deletion leaves every other key alone. -/
theorem kget?_kdel_ne (m : KMap α) {i j : Nat} (h : j ≠ i) : kget? (kdel m i) j = kget? m j := by
  induction m with
  | nil => rfl
  | cons p m ih =>
    obtain ⟨k, b⟩ := p
    by_cases hk : k = i
    · subst hk
      have : kdel ((k, b) :: m) k = kdel m k := by simp [kdel]
      simp [this, kget?, ih, Ne.symm h]
    · have : kdel ((k, b) :: m) i = (k, b) :: kdel m i := by simp [kdel, hk]
      simp [this, kget?, ih]

/-! ### Maps: the canonical form -/

/-- A rising list is one whose keys are pairwise rising. -/
theorem krising_iff (m : KMap α) : krising m = true ↔ m.Pairwise (fun p q => p.1 < q.1) := by
  induction m with
  | nil => simp [krising]
  | cons p m ih =>
    obtain ⟨k, a⟩ := p
    cases m with
    | nil => simp [krising]
    | cons q m =>
      obtain ⟨l, b⟩ := q
      simp only [krising, Bool.and_eq_true, decide_eq_true_eq, List.pairwise_cons] at ih ⊢
      constructor
      · rintro ⟨h, hm⟩
        have hm' := ih.mp hm
        refine ⟨fun x hx => ?_, hm'⟩
        rcases List.mem_cons.mp hx with rfl | hx
        · exact h
        · exact Nat.lt_trans h (hm'.1 x hx)
      · rintro ⟨h, hm⟩
        exact ⟨h (l, b) (by simp), ih.mpr hm⟩

/-- Keys of a written map are its own and the one written. -/
theorem mem_kset {m : KMap α} {i : Nat} {a : α} {p : Nat × α} (h : p ∈ kset m i a) : p = (i, a) ∨ p ∈ m := by
  induction m with
  | nil => simpa [kset] using h
  | cons q m ih =>
    obtain ⟨k, b⟩ := q
    unfold kset at h
    split at h
    · simpa using h
    · split at h
      · rcases List.mem_cons.mp h with h | h
        · exact .inl h
        · exact .inr (by simp [h])
      · rcases List.mem_cons.mp h with h | h
        · exact .inr (by simp [h])
        · rcases ih h with h | h
          · exact .inl h
          · exact .inr (by simp [h])

/-- A write keeps the canonical form. -/
theorem krising_kset {m : KMap α} (i : Nat) (a : α) (h : krising m = true) : krising (kset m i a) = true := by
  rw [krising_iff] at h ⊢
  induction m with
  | nil => simp [kset]
  | cons q m ih =>
    obtain ⟨k, b⟩ := q
    have hp := List.pairwise_cons.mp h
    unfold kset
    split
    · rename_i hik
      refine List.pairwise_cons.mpr ⟨fun x hx => ?_, h⟩
      rcases List.mem_cons.mp hx with rfl | hx
      · exact hik
      · exact Nat.lt_trans hik (hp.1 x hx)
    · split
      · rename_i h1 h2
        subst h2
        exact List.pairwise_cons.mpr ⟨hp.1, hp.2⟩
      · rename_i h1 h2
        refine List.pairwise_cons.mpr ⟨fun x hx => ?_, ih hp.2⟩
        rcases mem_kset hx with rfl | hx
        · show k < i
          omega
        · exact hp.1 x hx

/-- A selection of entries keeps the canonical form. -/
theorem krising_filter {m : KMap α} (f : Nat × α → Bool) (h : krising m = true) : krising (m.filter f) = true := by
  rw [krising_iff] at h ⊢
  exact h.filter _

/-- A deletion keeps the canonical form. -/
theorem krising_kdel {m : KMap α} (i : Nat) (h : krising m = true) : krising (kdel m i) = true := krising_filter _ h

/-! ### Addressed bytes -/

/-- A byte written reads as what was written. -/
@[simp] theorem rdByte_wrByte_self (m : Mem) (a : Nat) (b : Byte) : rdByte (wrByte m a b) a = b := by
  unfold rdByte wrByte
  split
  · rename_i h; simp [kgetD, h]
  · simp

/-- A write leaves every other byte alone. -/
theorem rdByte_wrByte_ne (m : Mem) {a c : Nat} (b : Byte) (h : c ≠ a) : rdByte (wrByte m a b) c = rdByte m c := by
  unfold rdByte wrByte kgetD
  split
  · rw [kget?_kdel_ne m h]
  · rw [kget?_kset_ne m b h]

/-- Bytes written leave every byte outside them alone. -/
theorem rdByte_wrBytes_out (m : Mem) (a c : Nat) (bs : List Byte) (h : c < a ∨ a + bs.length ≤ c) :
    rdByte (wrBytes m a bs) c = rdByte m c := by
  induction bs generalizing m a with
  | nil => rfl
  | cons b bs ih =>
    simp only [List.length_cons] at h
    rw [wrBytes, ih (wrByte m a b) (a + 1) (by omega), rdByte_wrByte_ne m b (by omega)]

/-- Bytes written read as what was written. -/
theorem rdByte_wrBytes_in (m : Mem) (a i : Nat) (bs : List Byte) (h : i < bs.length) :
    rdByte (wrBytes m a bs) (a + i) = bs[i] := by
  induction bs generalizing m a i with
  | nil => simp at h
  | cons b bs ih =>
    rw [wrBytes]
    cases i with
    | zero =>
      rw [rdByte_wrBytes_out (wrByte m a b) (a + 1) (a + 0) bs (by omega)]
      simp
    | succ i =>
      have := ih (wrByte m a b) (a + 1) i (by simpa using h)
      rw [show a + (i + 1) = a + 1 + i by omega, this]
      simp

/-- A string of bytes read back whole. -/
theorem rdBytes_wrBytes (m : Mem) (a : Nat) (bs : List Byte) : rdBytes (wrBytes m a bs) a bs.length = bs := by
  induction bs generalizing m a with
  | nil => rfl
  | cons b bs ih =>
    have h0 := rdByte_wrBytes_in m a 0 (b :: bs) (by simp)
    simp only [Nat.add_zero, List.getElem_cons_zero] at h0
    simp only [List.length_cons, rdBytes, h0]
    rw [wrBytes, ih]

/-- Memory's canonical form, kept by every operation on it. -/
theorem wf_wrByte {m : Mem} (a : Nat) (b : Byte) (h : Memory.wf m = true) : Memory.wf (wrByte m a b) = true := by
  simp only [Memory.wf, memSparse, Bool.and_eq_true, List.all_eq_true, decide_eq_true_eq] at h ⊢
  unfold wrByte
  split
  · exact ⟨krising_kdel a h.1, fun p hp => h.2 p (List.mem_filter.mp hp).1⟩
  · rename_i hb
    refine ⟨krising_kset a b h.1, fun p hp => ?_⟩
    rcases mem_kset hp with rfl | hp
    · exact hb
    · exact h.2 p hp
theorem wf_wrBytes {m : Mem} (a : Nat) (bs : List Byte) (h : Memory.wf m = true) : Memory.wf (wrBytes m a bs) = true := by
  induction bs generalizing m a with
  | nil => exact h
  | cons b bs ih => exact ih (a + 1) (wf_wrByte a b h)
theorem wf_memDrop {m : Mem} (a n : Nat) (h : Memory.wf m = true) : Memory.wf (memDrop m a n) = true := by
  simp only [Memory.wf, memSparse, Bool.and_eq_true, List.all_eq_true, decide_eq_true_eq] at h ⊢
  exact ⟨krising_filter _ h.1, fun p hp => h.2 p (List.mem_filter.mp hp).1⟩
theorem wf_memRemap {m : Mem} (a n : Nat) (f : Nat → Byte → Byte) (h : Memory.wf m = true) :
    Memory.wf (memRemap m a n f) = true := by
  simp only [Memory.wf, memSparse, Bool.and_eq_true, List.all_eq_true] at h ⊢
  refine ⟨krising_filter _ ?_, fun p hp => (List.mem_filter.mp hp).2⟩
  rw [krising_iff, List.pairwise_map]
  have hf (p : Nat × Byte) : (if a ≤ p.1 ∧ p.1 < a + n then (p.1, f p.1 p.2) else p).1 = p.1 := by split <;> rfl
  simpa only [hf] using (krising_iff m).mp h.1
@[simp] theorem wf_empty : Memory.wf [] = true := rfl

end Sys2Proof.Machine
end

