-- ==== Sys2Proof/Laws/State.lean ====
section
/-! SUPPORT. What each shared update of the state leaves alone, field by field, and what it does to the part it changes. -/

namespace Sys2Proof.Machine

/-! ### Fields that an update leaves alone -/

/-- `modCore` changes `cores` alone. -/
@[simp] theorem State.modCore_pending (s : State) (c : Nat) (f : Core → Core) : (s.modCore c f).pending = s.pending := rfl
@[simp] theorem State.modCore_draws (s : State) (c : Nat) (f : Core → Core) : (s.modCore c f).draws = s.draws := rfl
@[simp] theorem State.modCore_aon (s : State) (c : Nat) (f : Core → Core) : (s.modCore c f).aon = s.aon := rfl
@[simp] theorem State.modCore_time (s : State) (c : Nat) (f : Core → Core) : (s.modCore c f).time = s.time := rfl
@[simp] theorem State.modCore_persist (s : State) (c : Nat) (f : Core → Core) : (s.modCore c f).persist = s.persist := rfl
@[simp] theorem State.modCore_flash (s : State) (c : Nat) (f : Core → Core) : (s.modCore c f).flash = s.flash := rfl
@[simp] theorem State.modCore_streams (s : State) (c : Nat) (f : Core → Core) : (s.modCore c f).streams = s.streams := rfl
@[simp] theorem State.modCore_ctxs (s : State) (c : Nat) (f : Core → Core) : (s.modCore c f).ctxs = s.ctxs := rfl
@[simp] theorem State.modCore_mem (s : State) (c : Nat) (f : Core → Core) : (s.modCore c f).mem = s.mem := rfl
@[simp] theorem State.modCore_recov (s : State) (c : Nat) (f : Core → Core) : (s.modCore c f).recov = s.recov := rfl
@[simp] theorem State.modCore_clotha (s : State) (c : Nat) (f : Core → Core) : (s.modCore c f).clotha = s.clotha := rfl
@[simp] theorem State.modCore_net (s : State) (c : Nat) (f : Core → Core) : (s.modCore c f).net = s.net := rfl
@[simp] theorem State.modCore_links (s : State) (c : Nat) (f : Core → Core) : (s.modCore c f).links = s.links := rfl
@[simp] theorem State.modCore_svc (s : State) (c : Nat) (f : Core → Core) : (s.modCore c f).svc = s.svc := rfl

/-- `modCtx` changes `ctxs` alone. -/
@[simp] theorem State.modCtx_pending (s : State) (i : Nat) (f : Ctx → Ctx) : (s.modCtx i f).pending = s.pending := rfl
@[simp] theorem State.modCtx_draws (s : State) (i : Nat) (f : Ctx → Ctx) : (s.modCtx i f).draws = s.draws := rfl
@[simp] theorem State.modCtx_aon (s : State) (i : Nat) (f : Ctx → Ctx) : (s.modCtx i f).aon = s.aon := rfl
@[simp] theorem State.modCtx_time (s : State) (i : Nat) (f : Ctx → Ctx) : (s.modCtx i f).time = s.time := rfl
@[simp] theorem State.modCtx_persist (s : State) (i : Nat) (f : Ctx → Ctx) : (s.modCtx i f).persist = s.persist := rfl
@[simp] theorem State.modCtx_flash (s : State) (i : Nat) (f : Ctx → Ctx) : (s.modCtx i f).flash = s.flash := rfl
@[simp] theorem State.modCtx_streams (s : State) (i : Nat) (f : Ctx → Ctx) : (s.modCtx i f).streams = s.streams := rfl
@[simp] theorem State.modCtx_cores (s : State) (i : Nat) (f : Ctx → Ctx) : (s.modCtx i f).cores = s.cores := rfl
@[simp] theorem State.modCtx_mem (s : State) (i : Nat) (f : Ctx → Ctx) : (s.modCtx i f).mem = s.mem := rfl
@[simp] theorem State.modCtx_recov (s : State) (i : Nat) (f : Ctx → Ctx) : (s.modCtx i f).recov = s.recov := rfl
@[simp] theorem State.modCtx_clotha (s : State) (i : Nat) (f : Ctx → Ctx) : (s.modCtx i f).clotha = s.clotha := rfl
@[simp] theorem State.modCtx_net (s : State) (i : Nat) (f : Ctx → Ctx) : (s.modCtx i f).net = s.net := rfl
@[simp] theorem State.modCtx_links (s : State) (i : Nat) (f : Ctx → Ctx) : (s.modCtx i f).links = s.links := rfl
@[simp] theorem State.modCtx_svc (s : State) (i : Nat) (f : Ctx → Ctx) : (s.modCtx i f).svc = s.svc := rfl

/-- `modStream` changes `streams` alone. -/
@[simp] theorem State.modStream_pending (s : State) (i : Nat) (f : StreamCtx → StreamCtx) : (s.modStream i f).pending = s.pending := rfl
@[simp] theorem State.modStream_draws (s : State) (i : Nat) (f : StreamCtx → StreamCtx) : (s.modStream i f).draws = s.draws := rfl
@[simp] theorem State.modStream_aon (s : State) (i : Nat) (f : StreamCtx → StreamCtx) : (s.modStream i f).aon = s.aon := rfl
@[simp] theorem State.modStream_time (s : State) (i : Nat) (f : StreamCtx → StreamCtx) : (s.modStream i f).time = s.time := rfl
@[simp] theorem State.modStream_persist (s : State) (i : Nat) (f : StreamCtx → StreamCtx) : (s.modStream i f).persist = s.persist := rfl
@[simp] theorem State.modStream_flash (s : State) (i : Nat) (f : StreamCtx → StreamCtx) : (s.modStream i f).flash = s.flash := rfl
@[simp] theorem State.modStream_cores (s : State) (i : Nat) (f : StreamCtx → StreamCtx) : (s.modStream i f).cores = s.cores := rfl
@[simp] theorem State.modStream_ctxs (s : State) (i : Nat) (f : StreamCtx → StreamCtx) : (s.modStream i f).ctxs = s.ctxs := rfl
@[simp] theorem State.modStream_mem (s : State) (i : Nat) (f : StreamCtx → StreamCtx) : (s.modStream i f).mem = s.mem := rfl
@[simp] theorem State.modStream_recov (s : State) (i : Nat) (f : StreamCtx → StreamCtx) : (s.modStream i f).recov = s.recov := rfl
@[simp] theorem State.modStream_clotha (s : State) (i : Nat) (f : StreamCtx → StreamCtx) : (s.modStream i f).clotha = s.clotha := rfl
@[simp] theorem State.modStream_net (s : State) (i : Nat) (f : StreamCtx → StreamCtx) : (s.modStream i f).net = s.net := rfl
@[simp] theorem State.modStream_links (s : State) (i : Nat) (f : StreamCtx → StreamCtx) : (s.modStream i f).links = s.links := rfl
@[simp] theorem State.modStream_svc (s : State) (i : Nat) (f : StreamCtx → StreamCtx) : (s.modStream i f).svc = s.svc := rfl

/-- `modStats` changes `streams` alone. -/
@[simp] theorem State.modStats_pending (s : State) (i : Nat) (f : StreamStats → StreamStats) : (s.modStats i f).pending = s.pending := rfl
@[simp] theorem State.modStats_draws (s : State) (i : Nat) (f : StreamStats → StreamStats) : (s.modStats i f).draws = s.draws := rfl
@[simp] theorem State.modStats_aon (s : State) (i : Nat) (f : StreamStats → StreamStats) : (s.modStats i f).aon = s.aon := rfl
@[simp] theorem State.modStats_time (s : State) (i : Nat) (f : StreamStats → StreamStats) : (s.modStats i f).time = s.time := rfl
@[simp] theorem State.modStats_persist (s : State) (i : Nat) (f : StreamStats → StreamStats) : (s.modStats i f).persist = s.persist := rfl
@[simp] theorem State.modStats_flash (s : State) (i : Nat) (f : StreamStats → StreamStats) : (s.modStats i f).flash = s.flash := rfl
@[simp] theorem State.modStats_cores (s : State) (i : Nat) (f : StreamStats → StreamStats) : (s.modStats i f).cores = s.cores := rfl
@[simp] theorem State.modStats_ctxs (s : State) (i : Nat) (f : StreamStats → StreamStats) : (s.modStats i f).ctxs = s.ctxs := rfl
@[simp] theorem State.modStats_mem (s : State) (i : Nat) (f : StreamStats → StreamStats) : (s.modStats i f).mem = s.mem := rfl
@[simp] theorem State.modStats_recov (s : State) (i : Nat) (f : StreamStats → StreamStats) : (s.modStats i f).recov = s.recov := rfl
@[simp] theorem State.modStats_clotha (s : State) (i : Nat) (f : StreamStats → StreamStats) : (s.modStats i f).clotha = s.clotha := rfl
@[simp] theorem State.modStats_net (s : State) (i : Nat) (f : StreamStats → StreamStats) : (s.modStats i f).net = s.net := rfl
@[simp] theorem State.modStats_links (s : State) (i : Nat) (f : StreamStats → StreamStats) : (s.modStats i f).links = s.links := rfl
@[simp] theorem State.modStats_svc (s : State) (i : Nat) (f : StreamStats → StreamStats) : (s.modStats i f).svc = s.svc := rfl

/-- `modEngine` changes `cores` alone. -/
@[simp] theorem State.modEngine_pending (s : State) (c e : Nat) (f : Engine → Engine) : (s.modEngine c e f).pending = s.pending := rfl
@[simp] theorem State.modEngine_draws (s : State) (c e : Nat) (f : Engine → Engine) : (s.modEngine c e f).draws = s.draws := rfl
@[simp] theorem State.modEngine_aon (s : State) (c e : Nat) (f : Engine → Engine) : (s.modEngine c e f).aon = s.aon := rfl
@[simp] theorem State.modEngine_time (s : State) (c e : Nat) (f : Engine → Engine) : (s.modEngine c e f).time = s.time := rfl
@[simp] theorem State.modEngine_persist (s : State) (c e : Nat) (f : Engine → Engine) : (s.modEngine c e f).persist = s.persist := rfl
@[simp] theorem State.modEngine_flash (s : State) (c e : Nat) (f : Engine → Engine) : (s.modEngine c e f).flash = s.flash := rfl
@[simp] theorem State.modEngine_streams (s : State) (c e : Nat) (f : Engine → Engine) : (s.modEngine c e f).streams = s.streams := rfl
@[simp] theorem State.modEngine_ctxs (s : State) (c e : Nat) (f : Engine → Engine) : (s.modEngine c e f).ctxs = s.ctxs := rfl
@[simp] theorem State.modEngine_mem (s : State) (c e : Nat) (f : Engine → Engine) : (s.modEngine c e f).mem = s.mem := rfl
@[simp] theorem State.modEngine_recov (s : State) (c e : Nat) (f : Engine → Engine) : (s.modEngine c e f).recov = s.recov := rfl
@[simp] theorem State.modEngine_clotha (s : State) (c e : Nat) (f : Engine → Engine) : (s.modEngine c e f).clotha = s.clotha := rfl
@[simp] theorem State.modEngine_net (s : State) (c e : Nat) (f : Engine → Engine) : (s.modEngine c e f).net = s.net := rfl
@[simp] theorem State.modEngine_links (s : State) (c e : Nat) (f : Engine → Engine) : (s.modEngine c e f).links = s.links := rfl
@[simp] theorem State.modEngine_svc (s : State) (c e : Nat) (f : Engine → Engine) : (s.modEngine c e f).svc = s.svc := rfl

/-- `modPort` changes `net` alone. -/
@[simp] theorem State.modPort_pending (s : State) (p : Nat) (f : Port → Port) : (s.modPort p f).pending = s.pending := rfl
@[simp] theorem State.modPort_draws (s : State) (p : Nat) (f : Port → Port) : (s.modPort p f).draws = s.draws := rfl
@[simp] theorem State.modPort_aon (s : State) (p : Nat) (f : Port → Port) : (s.modPort p f).aon = s.aon := rfl
@[simp] theorem State.modPort_time (s : State) (p : Nat) (f : Port → Port) : (s.modPort p f).time = s.time := rfl
@[simp] theorem State.modPort_persist (s : State) (p : Nat) (f : Port → Port) : (s.modPort p f).persist = s.persist := rfl
@[simp] theorem State.modPort_flash (s : State) (p : Nat) (f : Port → Port) : (s.modPort p f).flash = s.flash := rfl
@[simp] theorem State.modPort_streams (s : State) (p : Nat) (f : Port → Port) : (s.modPort p f).streams = s.streams := rfl
@[simp] theorem State.modPort_cores (s : State) (p : Nat) (f : Port → Port) : (s.modPort p f).cores = s.cores := rfl
@[simp] theorem State.modPort_ctxs (s : State) (p : Nat) (f : Port → Port) : (s.modPort p f).ctxs = s.ctxs := rfl
@[simp] theorem State.modPort_mem (s : State) (p : Nat) (f : Port → Port) : (s.modPort p f).mem = s.mem := rfl
@[simp] theorem State.modPort_recov (s : State) (p : Nat) (f : Port → Port) : (s.modPort p f).recov = s.recov := rfl
@[simp] theorem State.modPort_clotha (s : State) (p : Nat) (f : Port → Port) : (s.modPort p f).clotha = s.clotha := rfl
@[simp] theorem State.modPort_links (s : State) (p : Nat) (f : Port → Port) : (s.modPort p f).links = s.links := rfl
@[simp] theorem State.modPort_svc (s : State) (p : Nat) (f : Port → Port) : (s.modPort p f).svc = s.svc := rfl

/-- `modLink` changes `links` alone. -/
@[simp] theorem State.modLink_pending (s : State) (l : Nat) (f : Link → Link) : (s.modLink l f).pending = s.pending := rfl
@[simp] theorem State.modLink_draws (s : State) (l : Nat) (f : Link → Link) : (s.modLink l f).draws = s.draws := rfl
@[simp] theorem State.modLink_aon (s : State) (l : Nat) (f : Link → Link) : (s.modLink l f).aon = s.aon := rfl
@[simp] theorem State.modLink_time (s : State) (l : Nat) (f : Link → Link) : (s.modLink l f).time = s.time := rfl
@[simp] theorem State.modLink_persist (s : State) (l : Nat) (f : Link → Link) : (s.modLink l f).persist = s.persist := rfl
@[simp] theorem State.modLink_flash (s : State) (l : Nat) (f : Link → Link) : (s.modLink l f).flash = s.flash := rfl
@[simp] theorem State.modLink_streams (s : State) (l : Nat) (f : Link → Link) : (s.modLink l f).streams = s.streams := rfl
@[simp] theorem State.modLink_cores (s : State) (l : Nat) (f : Link → Link) : (s.modLink l f).cores = s.cores := rfl
@[simp] theorem State.modLink_ctxs (s : State) (l : Nat) (f : Link → Link) : (s.modLink l f).ctxs = s.ctxs := rfl
@[simp] theorem State.modLink_mem (s : State) (l : Nat) (f : Link → Link) : (s.modLink l f).mem = s.mem := rfl
@[simp] theorem State.modLink_recov (s : State) (l : Nat) (f : Link → Link) : (s.modLink l f).recov = s.recov := rfl
@[simp] theorem State.modLink_clotha (s : State) (l : Nat) (f : Link → Link) : (s.modLink l f).clotha = s.clotha := rfl
@[simp] theorem State.modLink_net (s : State) (l : Nat) (f : Link → Link) : (s.modLink l f).net = s.net := rfl
@[simp] theorem State.modLink_svc (s : State) (l : Nat) (f : Link → Link) : (s.modLink l f).svc = s.svc := rfl

/-- `modModel` changes `svc` alone. -/
@[simp] theorem State.modModel_pending (s : State) (i : Nat) (f : ModelSlot → ModelSlot) : (s.modModel i f).pending = s.pending := rfl
@[simp] theorem State.modModel_draws (s : State) (i : Nat) (f : ModelSlot → ModelSlot) : (s.modModel i f).draws = s.draws := rfl
@[simp] theorem State.modModel_aon (s : State) (i : Nat) (f : ModelSlot → ModelSlot) : (s.modModel i f).aon = s.aon := rfl
@[simp] theorem State.modModel_time (s : State) (i : Nat) (f : ModelSlot → ModelSlot) : (s.modModel i f).time = s.time := rfl
@[simp] theorem State.modModel_persist (s : State) (i : Nat) (f : ModelSlot → ModelSlot) : (s.modModel i f).persist = s.persist := rfl
@[simp] theorem State.modModel_flash (s : State) (i : Nat) (f : ModelSlot → ModelSlot) : (s.modModel i f).flash = s.flash := rfl
@[simp] theorem State.modModel_streams (s : State) (i : Nat) (f : ModelSlot → ModelSlot) : (s.modModel i f).streams = s.streams := rfl
@[simp] theorem State.modModel_cores (s : State) (i : Nat) (f : ModelSlot → ModelSlot) : (s.modModel i f).cores = s.cores := rfl
@[simp] theorem State.modModel_ctxs (s : State) (i : Nat) (f : ModelSlot → ModelSlot) : (s.modModel i f).ctxs = s.ctxs := rfl
@[simp] theorem State.modModel_mem (s : State) (i : Nat) (f : ModelSlot → ModelSlot) : (s.modModel i f).mem = s.mem := rfl
@[simp] theorem State.modModel_recov (s : State) (i : Nat) (f : ModelSlot → ModelSlot) : (s.modModel i f).recov = s.recov := rfl
@[simp] theorem State.modModel_clotha (s : State) (i : Nat) (f : ModelSlot → ModelSlot) : (s.modModel i f).clotha = s.clotha := rfl
@[simp] theorem State.modModel_net (s : State) (i : Nat) (f : ModelSlot → ModelSlot) : (s.modModel i f).net = s.net := rfl
@[simp] theorem State.modModel_links (s : State) (i : Nat) (f : ModelSlot → ModelSlot) : (s.modModel i f).links = s.links := rfl

/-- `send` changes `net` alone. -/
@[simp] theorem State.send_pending (s : State) (x : TxItem) : (s.send x).pending = s.pending := rfl
@[simp] theorem State.send_draws (s : State) (x : TxItem) : (s.send x).draws = s.draws := rfl
@[simp] theorem State.send_aon (s : State) (x : TxItem) : (s.send x).aon = s.aon := rfl
@[simp] theorem State.send_time (s : State) (x : TxItem) : (s.send x).time = s.time := rfl
@[simp] theorem State.send_persist (s : State) (x : TxItem) : (s.send x).persist = s.persist := rfl
@[simp] theorem State.send_flash (s : State) (x : TxItem) : (s.send x).flash = s.flash := rfl
@[simp] theorem State.send_streams (s : State) (x : TxItem) : (s.send x).streams = s.streams := rfl
@[simp] theorem State.send_cores (s : State) (x : TxItem) : (s.send x).cores = s.cores := rfl
@[simp] theorem State.send_ctxs (s : State) (x : TxItem) : (s.send x).ctxs = s.ctxs := rfl
@[simp] theorem State.send_mem (s : State) (x : TxItem) : (s.send x).mem = s.mem := rfl
@[simp] theorem State.send_recov (s : State) (x : TxItem) : (s.send x).recov = s.recov := rfl
@[simp] theorem State.send_clotha (s : State) (x : TxItem) : (s.send x).clotha = s.clotha := rfl
@[simp] theorem State.send_links (s : State) (x : TxItem) : (s.send x).links = s.links := rfl
@[simp] theorem State.send_svc (s : State) (x : TxItem) : (s.send x).svc = s.svc := rfl

/-- `logEvent` changes `recov` alone. -/
@[simp] theorem State.logEvent_pending (s : State) (a b c d : Nat) (l : List (Nat × Int)) : (s.logEvent a b c d l).pending = s.pending := rfl
@[simp] theorem State.logEvent_draws (s : State) (a b c d : Nat) (l : List (Nat × Int)) : (s.logEvent a b c d l).draws = s.draws := rfl
@[simp] theorem State.logEvent_aon (s : State) (a b c d : Nat) (l : List (Nat × Int)) : (s.logEvent a b c d l).aon = s.aon := rfl
@[simp] theorem State.logEvent_time (s : State) (a b c d : Nat) (l : List (Nat × Int)) : (s.logEvent a b c d l).time = s.time := rfl
@[simp] theorem State.logEvent_persist (s : State) (a b c d : Nat) (l : List (Nat × Int)) : (s.logEvent a b c d l).persist = s.persist := rfl
@[simp] theorem State.logEvent_flash (s : State) (a b c d : Nat) (l : List (Nat × Int)) : (s.logEvent a b c d l).flash = s.flash := rfl
@[simp] theorem State.logEvent_streams (s : State) (a b c d : Nat) (l : List (Nat × Int)) : (s.logEvent a b c d l).streams = s.streams := rfl
@[simp] theorem State.logEvent_cores (s : State) (a b c d : Nat) (l : List (Nat × Int)) : (s.logEvent a b c d l).cores = s.cores := rfl
@[simp] theorem State.logEvent_ctxs (s : State) (a b c d : Nat) (l : List (Nat × Int)) : (s.logEvent a b c d l).ctxs = s.ctxs := rfl
@[simp] theorem State.logEvent_mem (s : State) (a b c d : Nat) (l : List (Nat × Int)) : (s.logEvent a b c d l).mem = s.mem := rfl
@[simp] theorem State.logEvent_clotha (s : State) (a b c d : Nat) (l : List (Nat × Int)) : (s.logEvent a b c d l).clotha = s.clotha := rfl
@[simp] theorem State.logEvent_net (s : State) (a b c d : Nat) (l : List (Nat × Int)) : (s.logEvent a b c d l).net = s.net := rfl
@[simp] theorem State.logEvent_links (s : State) (a b c d : Nat) (l : List (Nat × Int)) : (s.logEvent a b c d l).links = s.links := rfl
@[simp] theorem State.logEvent_svc (s : State) (a b c d : Nat) (l : List (Nat × Int)) : (s.logEvent a b c d l).svc = s.svc := rfl

/-- `logFw` changes `recov` alone. -/
@[simp] theorem State.logFw_pending (s : State) (a b : Nat) (l : List (Nat × Int)) : (s.logFw a b l).pending = s.pending := rfl
@[simp] theorem State.logFw_draws (s : State) (a b : Nat) (l : List (Nat × Int)) : (s.logFw a b l).draws = s.draws := rfl
@[simp] theorem State.logFw_aon (s : State) (a b : Nat) (l : List (Nat × Int)) : (s.logFw a b l).aon = s.aon := rfl
@[simp] theorem State.logFw_time (s : State) (a b : Nat) (l : List (Nat × Int)) : (s.logFw a b l).time = s.time := rfl
@[simp] theorem State.logFw_persist (s : State) (a b : Nat) (l : List (Nat × Int)) : (s.logFw a b l).persist = s.persist := rfl
@[simp] theorem State.logFw_flash (s : State) (a b : Nat) (l : List (Nat × Int)) : (s.logFw a b l).flash = s.flash := rfl
@[simp] theorem State.logFw_streams (s : State) (a b : Nat) (l : List (Nat × Int)) : (s.logFw a b l).streams = s.streams := rfl
@[simp] theorem State.logFw_cores (s : State) (a b : Nat) (l : List (Nat × Int)) : (s.logFw a b l).cores = s.cores := rfl
@[simp] theorem State.logFw_ctxs (s : State) (a b : Nat) (l : List (Nat × Int)) : (s.logFw a b l).ctxs = s.ctxs := rfl
@[simp] theorem State.logFw_mem (s : State) (a b : Nat) (l : List (Nat × Int)) : (s.logFw a b l).mem = s.mem := rfl
@[simp] theorem State.logFw_clotha (s : State) (a b : Nat) (l : List (Nat × Int)) : (s.logFw a b l).clotha = s.clotha := rfl
@[simp] theorem State.logFw_net (s : State) (a b : Nat) (l : List (Nat × Int)) : (s.logFw a b l).net = s.net := rfl
@[simp] theorem State.logFw_links (s : State) (a b : Nat) (l : List (Nat × Int)) : (s.logFw a b l).links = s.links := rfl
@[simp] theorem State.logFw_svc (s : State) (a b : Nat) (l : List (Nat × Int)) : (s.logFw a b l).svc = s.svc := rfl

/-- `alertSet` changes `aon` alone. -/
@[simp] theorem State.alertSet_pending (s : State) (i : Nat) : (s.alertSet i).pending = s.pending := rfl
@[simp] theorem State.alertSet_draws (s : State) (i : Nat) : (s.alertSet i).draws = s.draws := rfl
@[simp] theorem State.alertSet_time (s : State) (i : Nat) : (s.alertSet i).time = s.time := rfl
@[simp] theorem State.alertSet_persist (s : State) (i : Nat) : (s.alertSet i).persist = s.persist := rfl
@[simp] theorem State.alertSet_flash (s : State) (i : Nat) : (s.alertSet i).flash = s.flash := rfl
@[simp] theorem State.alertSet_streams (s : State) (i : Nat) : (s.alertSet i).streams = s.streams := rfl
@[simp] theorem State.alertSet_cores (s : State) (i : Nat) : (s.alertSet i).cores = s.cores := rfl
@[simp] theorem State.alertSet_ctxs (s : State) (i : Nat) : (s.alertSet i).ctxs = s.ctxs := rfl
@[simp] theorem State.alertSet_mem (s : State) (i : Nat) : (s.alertSet i).mem = s.mem := rfl
@[simp] theorem State.alertSet_recov (s : State) (i : Nat) : (s.alertSet i).recov = s.recov := rfl
@[simp] theorem State.alertSet_clotha (s : State) (i : Nat) : (s.alertSet i).clotha = s.clotha := rfl
@[simp] theorem State.alertSet_net (s : State) (i : Nat) : (s.alertSet i).net = s.net := rfl
@[simp] theorem State.alertSet_links (s : State) (i : Nat) : (s.alertSet i).links = s.links := rfl
@[simp] theorem State.alertSet_svc (s : State) (i : Nat) : (s.alertSet i).svc = s.svc := rfl

/-- `hbmWrite` changes `mem` alone. -/
@[simp] theorem State.hbmWrite_pending (s : State) (a : Nat) (bs : List Byte) (p : Bool) : (s.hbmWrite a bs p).pending = s.pending := rfl
@[simp] theorem State.hbmWrite_draws (s : State) (a : Nat) (bs : List Byte) (p : Bool) : (s.hbmWrite a bs p).draws = s.draws := rfl
@[simp] theorem State.hbmWrite_aon (s : State) (a : Nat) (bs : List Byte) (p : Bool) : (s.hbmWrite a bs p).aon = s.aon := rfl
@[simp] theorem State.hbmWrite_time (s : State) (a : Nat) (bs : List Byte) (p : Bool) : (s.hbmWrite a bs p).time = s.time := rfl
@[simp] theorem State.hbmWrite_persist (s : State) (a : Nat) (bs : List Byte) (p : Bool) : (s.hbmWrite a bs p).persist = s.persist := rfl
@[simp] theorem State.hbmWrite_flash (s : State) (a : Nat) (bs : List Byte) (p : Bool) : (s.hbmWrite a bs p).flash = s.flash := rfl
@[simp] theorem State.hbmWrite_streams (s : State) (a : Nat) (bs : List Byte) (p : Bool) : (s.hbmWrite a bs p).streams = s.streams := rfl
@[simp] theorem State.hbmWrite_cores (s : State) (a : Nat) (bs : List Byte) (p : Bool) : (s.hbmWrite a bs p).cores = s.cores := rfl
@[simp] theorem State.hbmWrite_ctxs (s : State) (a : Nat) (bs : List Byte) (p : Bool) : (s.hbmWrite a bs p).ctxs = s.ctxs := rfl
@[simp] theorem State.hbmWrite_recov (s : State) (a : Nat) (bs : List Byte) (p : Bool) : (s.hbmWrite a bs p).recov = s.recov := rfl
@[simp] theorem State.hbmWrite_clotha (s : State) (a : Nat) (bs : List Byte) (p : Bool) : (s.hbmWrite a bs p).clotha = s.clotha := rfl
@[simp] theorem State.hbmWrite_net (s : State) (a : Nat) (bs : List Byte) (p : Bool) : (s.hbmWrite a bs p).net = s.net := rfl
@[simp] theorem State.hbmWrite_links (s : State) (a : Nat) (bs : List Byte) (p : Bool) : (s.hbmWrite a bs p).links = s.links := rfl
@[simp] theorem State.hbmWrite_svc (s : State) (a : Nat) (bs : List Byte) (p : Bool) : (s.hbmWrite a bs p).svc = s.svc := rfl

/-- `markCause` changes `streams` alone. -/
@[simp] theorem State.markCause_pending (s : State) (n : Nat) (p : Nat → StreamCtx → Bool) : (s.markCause n p).pending = s.pending := rfl
@[simp] theorem State.markCause_draws (s : State) (n : Nat) (p : Nat → StreamCtx → Bool) : (s.markCause n p).draws = s.draws := rfl
@[simp] theorem State.markCause_aon (s : State) (n : Nat) (p : Nat → StreamCtx → Bool) : (s.markCause n p).aon = s.aon := rfl
@[simp] theorem State.markCause_time (s : State) (n : Nat) (p : Nat → StreamCtx → Bool) : (s.markCause n p).time = s.time := rfl
@[simp] theorem State.markCause_persist (s : State) (n : Nat) (p : Nat → StreamCtx → Bool) : (s.markCause n p).persist = s.persist := rfl
@[simp] theorem State.markCause_flash (s : State) (n : Nat) (p : Nat → StreamCtx → Bool) : (s.markCause n p).flash = s.flash := rfl
@[simp] theorem State.markCause_cores (s : State) (n : Nat) (p : Nat → StreamCtx → Bool) : (s.markCause n p).cores = s.cores := rfl
@[simp] theorem State.markCause_ctxs (s : State) (n : Nat) (p : Nat → StreamCtx → Bool) : (s.markCause n p).ctxs = s.ctxs := rfl
@[simp] theorem State.markCause_mem (s : State) (n : Nat) (p : Nat → StreamCtx → Bool) : (s.markCause n p).mem = s.mem := rfl
@[simp] theorem State.markCause_recov (s : State) (n : Nat) (p : Nat → StreamCtx → Bool) : (s.markCause n p).recov = s.recov := rfl
@[simp] theorem State.markCause_clotha (s : State) (n : Nat) (p : Nat → StreamCtx → Bool) : (s.markCause n p).clotha = s.clotha := rfl
@[simp] theorem State.markCause_net (s : State) (n : Nat) (p : Nat → StreamCtx → Bool) : (s.markCause n p).net = s.net := rfl
@[simp] theorem State.markCause_links (s : State) (n : Nat) (p : Nat → StreamCtx → Bool) : (s.markCause n p).links = s.links := rfl
@[simp] theorem State.markCause_svc (s : State) (n : Nat) (p : Nat → StreamCtx → Bool) : (s.markCause n p).svc = s.svc := rfl

/-- `commitPersist` changes `clotha` alone. -/
@[simp] theorem State.commitPersist_pending (s : State)  : (s.commitPersist).pending = s.pending := rfl
@[simp] theorem State.commitPersist_draws (s : State)  : (s.commitPersist).draws = s.draws := rfl
@[simp] theorem State.commitPersist_aon (s : State)  : (s.commitPersist).aon = s.aon := rfl
@[simp] theorem State.commitPersist_time (s : State)  : (s.commitPersist).time = s.time := rfl
@[simp] theorem State.commitPersist_persist (s : State)  : (s.commitPersist).persist = s.persist := rfl
@[simp] theorem State.commitPersist_flash (s : State)  : (s.commitPersist).flash = s.flash := rfl
@[simp] theorem State.commitPersist_streams (s : State)  : (s.commitPersist).streams = s.streams := rfl
@[simp] theorem State.commitPersist_cores (s : State)  : (s.commitPersist).cores = s.cores := rfl
@[simp] theorem State.commitPersist_ctxs (s : State)  : (s.commitPersist).ctxs = s.ctxs := rfl
@[simp] theorem State.commitPersist_mem (s : State)  : (s.commitPersist).mem = s.mem := rfl
@[simp] theorem State.commitPersist_recov (s : State)  : (s.commitPersist).recov = s.recov := rfl
@[simp] theorem State.commitPersist_net (s : State)  : (s.commitPersist).net = s.net := rfl
@[simp] theorem State.commitPersist_links (s : State)  : (s.commitPersist).links = s.links := rfl
@[simp] theorem State.commitPersist_svc (s : State)  : (s.commitPersist).svc = s.svc := rfl

/-- `countPort` changes `net` alone. -/
@[simp] theorem State.countPort_pending (s : State) (port i : Nat) : (s.countPort port i).pending = s.pending := rfl
@[simp] theorem State.countPort_draws (s : State) (port i : Nat) : (s.countPort port i).draws = s.draws := rfl
@[simp] theorem State.countPort_aon (s : State) (port i : Nat) : (s.countPort port i).aon = s.aon := rfl
@[simp] theorem State.countPort_time (s : State) (port i : Nat) : (s.countPort port i).time = s.time := rfl
@[simp] theorem State.countPort_persist (s : State) (port i : Nat) : (s.countPort port i).persist = s.persist := rfl
@[simp] theorem State.countPort_flash (s : State) (port i : Nat) : (s.countPort port i).flash = s.flash := rfl
@[simp] theorem State.countPort_streams (s : State) (port i : Nat) : (s.countPort port i).streams = s.streams := rfl
@[simp] theorem State.countPort_cores (s : State) (port i : Nat) : (s.countPort port i).cores = s.cores := rfl
@[simp] theorem State.countPort_ctxs (s : State) (port i : Nat) : (s.countPort port i).ctxs = s.ctxs := rfl
@[simp] theorem State.countPort_mem (s : State) (port i : Nat) : (s.countPort port i).mem = s.mem := rfl
@[simp] theorem State.countPort_recov (s : State) (port i : Nat) : (s.countPort port i).recov = s.recov := rfl
@[simp] theorem State.countPort_clotha (s : State) (port i : Nat) : (s.countPort port i).clotha = s.clotha := rfl
@[simp] theorem State.countPort_links (s : State) (port i : Nat) : (s.countPort port i).links = s.links := rfl
@[simp] theorem State.countPort_svc (s : State) (port i : Nat) : (s.countPort port i).svc = s.svc := rfl

/-- What is read of the parts that `modCore` leaves alone. -/
@[simp] theorem State.ctx?_modCore (s : State) (c : Nat) (f : Core → Core) (u : Nat) : (s.modCore c f).ctx? u = s.ctx? u := rfl
@[simp] theorem State.stream?_modCore (s : State) (c : Nat) (f : Core → Core) (u : Nat) : (s.modCore c f).stream? u = s.stream? u := rfl
@[simp] theorem State.port_modCore (s : State) (c : Nat) (f : Core → Core) (u : Nat) : (s.modCore c f).port u = s.port u := rfl
@[simp] theorem State.link_modCore (s : State) (c : Nat) (f : Core → Core) (u : Nat) : (s.modCore c f).link u = s.link u := rfl
@[simp] theorem State.model?_modCore (s : State) (c : Nat) (f : Core → Core) (u : Nat) : (s.modCore c f).model? u = s.model? u := rfl
@[simp] theorem State.fw_modCore (s : State) (c : Nat) (f : Core → Core)  : (s.modCore c f).fw  = s.fw  := rfl
@[simp] theorem State.hbmUp_modCore (s : State) (c : Nat) (f : Core → Core)  : (s.modCore c f).hbmUp  = s.hbmUp  := rfl
@[simp] theorem State.linkEnabled_modCore (s : State) (c : Nat) (f : Core → Core) (u : Nat) : (s.modCore c f).linkEnabled u = s.linkEnabled u := rfl

/-- What is read of the parts that `modCtx` leaves alone. -/
@[simp] theorem State.core_modCtx (s : State) (i : Nat) (f : Ctx → Ctx) (u : Nat) : (s.modCtx i f).core u = s.core u := rfl
@[simp] theorem State.engine_modCtx (s : State) (i : Nat) (f : Ctx → Ctx) (u v : Nat) : (s.modCtx i f).engine u v = s.engine u v := rfl
@[simp] theorem State.chan_modCtx (s : State) (i : Nat) (f : Ctx → Ctx) (u v : Nat) : (s.modCtx i f).chan u v = s.chan u v := rfl
@[simp] theorem State.recovering_modCtx (s : State) (i : Nat) (f : Ctx → Ctx) (u : Nat) : (s.modCtx i f).recovering u = s.recovering u := rfl
@[simp] theorem State.fenced_modCtx (s : State) (i : Nat) (f : Ctx → Ctx) (u : Nat) : (s.modCtx i f).fenced u = s.fenced u := rfl
@[simp] theorem State.stream?_modCtx (s : State) (i : Nat) (f : Ctx → Ctx) (u : Nat) : (s.modCtx i f).stream? u = s.stream? u := rfl
@[simp] theorem State.port_modCtx (s : State) (i : Nat) (f : Ctx → Ctx) (u : Nat) : (s.modCtx i f).port u = s.port u := rfl
@[simp] theorem State.link_modCtx (s : State) (i : Nat) (f : Ctx → Ctx) (u : Nat) : (s.modCtx i f).link u = s.link u := rfl
@[simp] theorem State.model?_modCtx (s : State) (i : Nat) (f : Ctx → Ctx) (u : Nat) : (s.modCtx i f).model? u = s.model? u := rfl
@[simp] theorem State.fw_modCtx (s : State) (i : Nat) (f : Ctx → Ctx)  : (s.modCtx i f).fw  = s.fw  := rfl
@[simp] theorem State.hbmUp_modCtx (s : State) (i : Nat) (f : Ctx → Ctx)  : (s.modCtx i f).hbmUp  = s.hbmUp  := rfl
@[simp] theorem State.linkEnabled_modCtx (s : State) (i : Nat) (f : Ctx → Ctx) (u : Nat) : (s.modCtx i f).linkEnabled u = s.linkEnabled u := rfl

/-- What is read of the parts that `modStream` leaves alone. -/
@[simp] theorem State.core_modStream (s : State) (i : Nat) (f : StreamCtx → StreamCtx) (u : Nat) : (s.modStream i f).core u = s.core u := rfl
@[simp] theorem State.engine_modStream (s : State) (i : Nat) (f : StreamCtx → StreamCtx) (u v : Nat) : (s.modStream i f).engine u v = s.engine u v := rfl
@[simp] theorem State.chan_modStream (s : State) (i : Nat) (f : StreamCtx → StreamCtx) (u v : Nat) : (s.modStream i f).chan u v = s.chan u v := rfl
@[simp] theorem State.recovering_modStream (s : State) (i : Nat) (f : StreamCtx → StreamCtx) (u : Nat) : (s.modStream i f).recovering u = s.recovering u := rfl
@[simp] theorem State.fenced_modStream (s : State) (i : Nat) (f : StreamCtx → StreamCtx) (u : Nat) : (s.modStream i f).fenced u = s.fenced u := rfl
@[simp] theorem State.ctx?_modStream (s : State) (i : Nat) (f : StreamCtx → StreamCtx) (u : Nat) : (s.modStream i f).ctx? u = s.ctx? u := rfl
@[simp] theorem State.port_modStream (s : State) (i : Nat) (f : StreamCtx → StreamCtx) (u : Nat) : (s.modStream i f).port u = s.port u := rfl
@[simp] theorem State.link_modStream (s : State) (i : Nat) (f : StreamCtx → StreamCtx) (u : Nat) : (s.modStream i f).link u = s.link u := rfl
@[simp] theorem State.model?_modStream (s : State) (i : Nat) (f : StreamCtx → StreamCtx) (u : Nat) : (s.modStream i f).model? u = s.model? u := rfl
@[simp] theorem State.fw_modStream (s : State) (i : Nat) (f : StreamCtx → StreamCtx)  : (s.modStream i f).fw  = s.fw  := rfl
@[simp] theorem State.hbmUp_modStream (s : State) (i : Nat) (f : StreamCtx → StreamCtx)  : (s.modStream i f).hbmUp  = s.hbmUp  := rfl
@[simp] theorem State.linkEnabled_modStream (s : State) (i : Nat) (f : StreamCtx → StreamCtx) (u : Nat) : (s.modStream i f).linkEnabled u = s.linkEnabled u := rfl

/-- What is read of the parts that `modStats` leaves alone. -/
@[simp] theorem State.core_modStats (s : State) (i : Nat) (f : StreamStats → StreamStats) (u : Nat) : (s.modStats i f).core u = s.core u := rfl
@[simp] theorem State.engine_modStats (s : State) (i : Nat) (f : StreamStats → StreamStats) (u v : Nat) : (s.modStats i f).engine u v = s.engine u v := rfl
@[simp] theorem State.chan_modStats (s : State) (i : Nat) (f : StreamStats → StreamStats) (u v : Nat) : (s.modStats i f).chan u v = s.chan u v := rfl
@[simp] theorem State.recovering_modStats (s : State) (i : Nat) (f : StreamStats → StreamStats) (u : Nat) : (s.modStats i f).recovering u = s.recovering u := rfl
@[simp] theorem State.fenced_modStats (s : State) (i : Nat) (f : StreamStats → StreamStats) (u : Nat) : (s.modStats i f).fenced u = s.fenced u := rfl
@[simp] theorem State.ctx?_modStats (s : State) (i : Nat) (f : StreamStats → StreamStats) (u : Nat) : (s.modStats i f).ctx? u = s.ctx? u := rfl
@[simp] theorem State.port_modStats (s : State) (i : Nat) (f : StreamStats → StreamStats) (u : Nat) : (s.modStats i f).port u = s.port u := rfl
@[simp] theorem State.link_modStats (s : State) (i : Nat) (f : StreamStats → StreamStats) (u : Nat) : (s.modStats i f).link u = s.link u := rfl
@[simp] theorem State.model?_modStats (s : State) (i : Nat) (f : StreamStats → StreamStats) (u : Nat) : (s.modStats i f).model? u = s.model? u := rfl
@[simp] theorem State.fw_modStats (s : State) (i : Nat) (f : StreamStats → StreamStats)  : (s.modStats i f).fw  = s.fw  := rfl
@[simp] theorem State.hbmUp_modStats (s : State) (i : Nat) (f : StreamStats → StreamStats)  : (s.modStats i f).hbmUp  = s.hbmUp  := rfl
@[simp] theorem State.linkEnabled_modStats (s : State) (i : Nat) (f : StreamStats → StreamStats) (u : Nat) : (s.modStats i f).linkEnabled u = s.linkEnabled u := rfl

/-- What is read of the parts that `modEngine` leaves alone. -/
@[simp] theorem State.ctx?_modEngine (s : State) (c e : Nat) (f : Engine → Engine) (u : Nat) : (s.modEngine c e f).ctx? u = s.ctx? u := rfl
@[simp] theorem State.stream?_modEngine (s : State) (c e : Nat) (f : Engine → Engine) (u : Nat) : (s.modEngine c e f).stream? u = s.stream? u := rfl
@[simp] theorem State.port_modEngine (s : State) (c e : Nat) (f : Engine → Engine) (u : Nat) : (s.modEngine c e f).port u = s.port u := rfl
@[simp] theorem State.link_modEngine (s : State) (c e : Nat) (f : Engine → Engine) (u : Nat) : (s.modEngine c e f).link u = s.link u := rfl
@[simp] theorem State.model?_modEngine (s : State) (c e : Nat) (f : Engine → Engine) (u : Nat) : (s.modEngine c e f).model? u = s.model? u := rfl
@[simp] theorem State.fw_modEngine (s : State) (c e : Nat) (f : Engine → Engine)  : (s.modEngine c e f).fw  = s.fw  := rfl
@[simp] theorem State.hbmUp_modEngine (s : State) (c e : Nat) (f : Engine → Engine)  : (s.modEngine c e f).hbmUp  = s.hbmUp  := rfl
@[simp] theorem State.linkEnabled_modEngine (s : State) (c e : Nat) (f : Engine → Engine) (u : Nat) : (s.modEngine c e f).linkEnabled u = s.linkEnabled u := rfl

/-- What is read of the parts that `modPort` leaves alone. -/
@[simp] theorem State.core_modPort (s : State) (p : Nat) (f : Port → Port) (u : Nat) : (s.modPort p f).core u = s.core u := rfl
@[simp] theorem State.engine_modPort (s : State) (p : Nat) (f : Port → Port) (u v : Nat) : (s.modPort p f).engine u v = s.engine u v := rfl
@[simp] theorem State.chan_modPort (s : State) (p : Nat) (f : Port → Port) (u v : Nat) : (s.modPort p f).chan u v = s.chan u v := rfl
@[simp] theorem State.recovering_modPort (s : State) (p : Nat) (f : Port → Port) (u : Nat) : (s.modPort p f).recovering u = s.recovering u := rfl
@[simp] theorem State.fenced_modPort (s : State) (p : Nat) (f : Port → Port) (u : Nat) : (s.modPort p f).fenced u = s.fenced u := rfl
@[simp] theorem State.ctx?_modPort (s : State) (p : Nat) (f : Port → Port) (u : Nat) : (s.modPort p f).ctx? u = s.ctx? u := rfl
@[simp] theorem State.stream?_modPort (s : State) (p : Nat) (f : Port → Port) (u : Nat) : (s.modPort p f).stream? u = s.stream? u := rfl
@[simp] theorem State.link_modPort (s : State) (p : Nat) (f : Port → Port) (u : Nat) : (s.modPort p f).link u = s.link u := rfl
@[simp] theorem State.model?_modPort (s : State) (p : Nat) (f : Port → Port) (u : Nat) : (s.modPort p f).model? u = s.model? u := rfl
@[simp] theorem State.fw_modPort (s : State) (p : Nat) (f : Port → Port)  : (s.modPort p f).fw  = s.fw  := rfl
@[simp] theorem State.hbmUp_modPort (s : State) (p : Nat) (f : Port → Port)  : (s.modPort p f).hbmUp  = s.hbmUp  := rfl
@[simp] theorem State.linkEnabled_modPort (s : State) (p : Nat) (f : Port → Port) (u : Nat) : (s.modPort p f).linkEnabled u = s.linkEnabled u := rfl

/-- What is read of the parts that `modLink` leaves alone. -/
@[simp] theorem State.core_modLink (s : State) (l : Nat) (f : Link → Link) (u : Nat) : (s.modLink l f).core u = s.core u := rfl
@[simp] theorem State.engine_modLink (s : State) (l : Nat) (f : Link → Link) (u v : Nat) : (s.modLink l f).engine u v = s.engine u v := rfl
@[simp] theorem State.chan_modLink (s : State) (l : Nat) (f : Link → Link) (u v : Nat) : (s.modLink l f).chan u v = s.chan u v := rfl
@[simp] theorem State.recovering_modLink (s : State) (l : Nat) (f : Link → Link) (u : Nat) : (s.modLink l f).recovering u = s.recovering u := rfl
@[simp] theorem State.fenced_modLink (s : State) (l : Nat) (f : Link → Link) (u : Nat) : (s.modLink l f).fenced u = s.fenced u := rfl
@[simp] theorem State.ctx?_modLink (s : State) (l : Nat) (f : Link → Link) (u : Nat) : (s.modLink l f).ctx? u = s.ctx? u := rfl
@[simp] theorem State.stream?_modLink (s : State) (l : Nat) (f : Link → Link) (u : Nat) : (s.modLink l f).stream? u = s.stream? u := rfl
@[simp] theorem State.port_modLink (s : State) (l : Nat) (f : Link → Link) (u : Nat) : (s.modLink l f).port u = s.port u := rfl
@[simp] theorem State.model?_modLink (s : State) (l : Nat) (f : Link → Link) (u : Nat) : (s.modLink l f).model? u = s.model? u := rfl
@[simp] theorem State.fw_modLink (s : State) (l : Nat) (f : Link → Link)  : (s.modLink l f).fw  = s.fw  := rfl
@[simp] theorem State.hbmUp_modLink (s : State) (l : Nat) (f : Link → Link)  : (s.modLink l f).hbmUp  = s.hbmUp  := rfl
@[simp] theorem State.linkEnabled_modLink (s : State) (l : Nat) (f : Link → Link) (u : Nat) : (s.modLink l f).linkEnabled u = s.linkEnabled u := rfl

/-- What is read of the parts that `modModel` leaves alone. -/
@[simp] theorem State.core_modModel (s : State) (i : Nat) (f : ModelSlot → ModelSlot) (u : Nat) : (s.modModel i f).core u = s.core u := rfl
@[simp] theorem State.engine_modModel (s : State) (i : Nat) (f : ModelSlot → ModelSlot) (u v : Nat) : (s.modModel i f).engine u v = s.engine u v := rfl
@[simp] theorem State.chan_modModel (s : State) (i : Nat) (f : ModelSlot → ModelSlot) (u v : Nat) : (s.modModel i f).chan u v = s.chan u v := rfl
@[simp] theorem State.recovering_modModel (s : State) (i : Nat) (f : ModelSlot → ModelSlot) (u : Nat) : (s.modModel i f).recovering u = s.recovering u := rfl
@[simp] theorem State.fenced_modModel (s : State) (i : Nat) (f : ModelSlot → ModelSlot) (u : Nat) : (s.modModel i f).fenced u = s.fenced u := rfl
@[simp] theorem State.ctx?_modModel (s : State) (i : Nat) (f : ModelSlot → ModelSlot) (u : Nat) : (s.modModel i f).ctx? u = s.ctx? u := rfl
@[simp] theorem State.stream?_modModel (s : State) (i : Nat) (f : ModelSlot → ModelSlot) (u : Nat) : (s.modModel i f).stream? u = s.stream? u := rfl
@[simp] theorem State.port_modModel (s : State) (i : Nat) (f : ModelSlot → ModelSlot) (u : Nat) : (s.modModel i f).port u = s.port u := rfl
@[simp] theorem State.link_modModel (s : State) (i : Nat) (f : ModelSlot → ModelSlot) (u : Nat) : (s.modModel i f).link u = s.link u := rfl
@[simp] theorem State.hbmUp_modModel (s : State) (i : Nat) (f : ModelSlot → ModelSlot)  : (s.modModel i f).hbmUp  = s.hbmUp  := rfl
@[simp] theorem State.linkEnabled_modModel (s : State) (i : Nat) (f : ModelSlot → ModelSlot) (u : Nat) : (s.modModel i f).linkEnabled u = s.linkEnabled u := rfl

/-- What is read of the parts that `send` leaves alone. -/
@[simp] theorem State.core_send (s : State) (x : TxItem) (u : Nat) : (s.send x).core u = s.core u := rfl
@[simp] theorem State.engine_send (s : State) (x : TxItem) (u v : Nat) : (s.send x).engine u v = s.engine u v := rfl
@[simp] theorem State.chan_send (s : State) (x : TxItem) (u v : Nat) : (s.send x).chan u v = s.chan u v := rfl
@[simp] theorem State.recovering_send (s : State) (x : TxItem) (u : Nat) : (s.send x).recovering u = s.recovering u := rfl
@[simp] theorem State.fenced_send (s : State) (x : TxItem) (u : Nat) : (s.send x).fenced u = s.fenced u := rfl
@[simp] theorem State.ctx?_send (s : State) (x : TxItem) (u : Nat) : (s.send x).ctx? u = s.ctx? u := rfl
@[simp] theorem State.stream?_send (s : State) (x : TxItem) (u : Nat) : (s.send x).stream? u = s.stream? u := rfl
@[simp] theorem State.link_send (s : State) (x : TxItem) (u : Nat) : (s.send x).link u = s.link u := rfl
@[simp] theorem State.model?_send (s : State) (x : TxItem) (u : Nat) : (s.send x).model? u = s.model? u := rfl
@[simp] theorem State.fw_send (s : State) (x : TxItem)  : (s.send x).fw  = s.fw  := rfl
@[simp] theorem State.hbmUp_send (s : State) (x : TxItem)  : (s.send x).hbmUp  = s.hbmUp  := rfl
@[simp] theorem State.linkEnabled_send (s : State) (x : TxItem) (u : Nat) : (s.send x).linkEnabled u = s.linkEnabled u := rfl

/-- What is read of the parts that `logEvent` leaves alone. -/
@[simp] theorem State.core_logEvent (s : State) (a b c d : Nat) (l : List (Nat × Int)) (u : Nat) : (s.logEvent a b c d l).core u = s.core u := rfl
@[simp] theorem State.engine_logEvent (s : State) (a b c d : Nat) (l : List (Nat × Int)) (u v : Nat) : (s.logEvent a b c d l).engine u v = s.engine u v := rfl
@[simp] theorem State.chan_logEvent (s : State) (a b c d : Nat) (l : List (Nat × Int)) (u v : Nat) : (s.logEvent a b c d l).chan u v = s.chan u v := rfl
@[simp] theorem State.recovering_logEvent (s : State) (a b c d : Nat) (l : List (Nat × Int)) (u : Nat) : (s.logEvent a b c d l).recovering u = s.recovering u := rfl
@[simp] theorem State.fenced_logEvent (s : State) (a b c d : Nat) (l : List (Nat × Int)) (u : Nat) : (s.logEvent a b c d l).fenced u = s.fenced u := rfl
@[simp] theorem State.ctx?_logEvent (s : State) (a b c d : Nat) (l : List (Nat × Int)) (u : Nat) : (s.logEvent a b c d l).ctx? u = s.ctx? u := rfl
@[simp] theorem State.stream?_logEvent (s : State) (a b c d : Nat) (l : List (Nat × Int)) (u : Nat) : (s.logEvent a b c d l).stream? u = s.stream? u := rfl
@[simp] theorem State.port_logEvent (s : State) (a b c d : Nat) (l : List (Nat × Int)) (u : Nat) : (s.logEvent a b c d l).port u = s.port u := rfl
@[simp] theorem State.link_logEvent (s : State) (a b c d : Nat) (l : List (Nat × Int)) (u : Nat) : (s.logEvent a b c d l).link u = s.link u := rfl
@[simp] theorem State.model?_logEvent (s : State) (a b c d : Nat) (l : List (Nat × Int)) (u : Nat) : (s.logEvent a b c d l).model? u = s.model? u := rfl
@[simp] theorem State.fw_logEvent (s : State) (a b c d : Nat) (l : List (Nat × Int))  : (s.logEvent a b c d l).fw  = s.fw  := rfl
@[simp] theorem State.hbmUp_logEvent (s : State) (a b c d : Nat) (l : List (Nat × Int))  : (s.logEvent a b c d l).hbmUp  = s.hbmUp  := rfl
@[simp] theorem State.linkEnabled_logEvent (s : State) (a b c d : Nat) (l : List (Nat × Int)) (u : Nat) : (s.logEvent a b c d l).linkEnabled u = s.linkEnabled u := rfl

/-- What is read of the parts that `logFw` leaves alone. -/
@[simp] theorem State.core_logFw (s : State) (a b : Nat) (l : List (Nat × Int)) (u : Nat) : (s.logFw a b l).core u = s.core u := rfl
@[simp] theorem State.engine_logFw (s : State) (a b : Nat) (l : List (Nat × Int)) (u v : Nat) : (s.logFw a b l).engine u v = s.engine u v := rfl
@[simp] theorem State.chan_logFw (s : State) (a b : Nat) (l : List (Nat × Int)) (u v : Nat) : (s.logFw a b l).chan u v = s.chan u v := rfl
@[simp] theorem State.recovering_logFw (s : State) (a b : Nat) (l : List (Nat × Int)) (u : Nat) : (s.logFw a b l).recovering u = s.recovering u := rfl
@[simp] theorem State.fenced_logFw (s : State) (a b : Nat) (l : List (Nat × Int)) (u : Nat) : (s.logFw a b l).fenced u = s.fenced u := rfl
@[simp] theorem State.ctx?_logFw (s : State) (a b : Nat) (l : List (Nat × Int)) (u : Nat) : (s.logFw a b l).ctx? u = s.ctx? u := rfl
@[simp] theorem State.stream?_logFw (s : State) (a b : Nat) (l : List (Nat × Int)) (u : Nat) : (s.logFw a b l).stream? u = s.stream? u := rfl
@[simp] theorem State.port_logFw (s : State) (a b : Nat) (l : List (Nat × Int)) (u : Nat) : (s.logFw a b l).port u = s.port u := rfl
@[simp] theorem State.link_logFw (s : State) (a b : Nat) (l : List (Nat × Int)) (u : Nat) : (s.logFw a b l).link u = s.link u := rfl
@[simp] theorem State.model?_logFw (s : State) (a b : Nat) (l : List (Nat × Int)) (u : Nat) : (s.logFw a b l).model? u = s.model? u := rfl
@[simp] theorem State.fw_logFw (s : State) (a b : Nat) (l : List (Nat × Int))  : (s.logFw a b l).fw  = s.fw  := rfl
@[simp] theorem State.hbmUp_logFw (s : State) (a b : Nat) (l : List (Nat × Int))  : (s.logFw a b l).hbmUp  = s.hbmUp  := rfl
@[simp] theorem State.linkEnabled_logFw (s : State) (a b : Nat) (l : List (Nat × Int)) (u : Nat) : (s.logFw a b l).linkEnabled u = s.linkEnabled u := rfl

/-- What is read of the parts that `alertSet` leaves alone. -/
@[simp] theorem State.core_alertSet (s : State) (i : Nat) (u : Nat) : (s.alertSet i).core u = s.core u := rfl
@[simp] theorem State.engine_alertSet (s : State) (i : Nat) (u v : Nat) : (s.alertSet i).engine u v = s.engine u v := rfl
@[simp] theorem State.chan_alertSet (s : State) (i : Nat) (u v : Nat) : (s.alertSet i).chan u v = s.chan u v := rfl
@[simp] theorem State.fenced_alertSet (s : State) (i : Nat) (u : Nat) : (s.alertSet i).fenced u = s.fenced u := rfl
@[simp] theorem State.ctx?_alertSet (s : State) (i : Nat) (u : Nat) : (s.alertSet i).ctx? u = s.ctx? u := rfl
@[simp] theorem State.stream?_alertSet (s : State) (i : Nat) (u : Nat) : (s.alertSet i).stream? u = s.stream? u := rfl
@[simp] theorem State.port_alertSet (s : State) (i : Nat) (u : Nat) : (s.alertSet i).port u = s.port u := rfl
@[simp] theorem State.link_alertSet (s : State) (i : Nat) (u : Nat) : (s.alertSet i).link u = s.link u := rfl
@[simp] theorem State.model?_alertSet (s : State) (i : Nat) (u : Nat) : (s.alertSet i).model? u = s.model? u := rfl
@[simp] theorem State.fw_alertSet (s : State) (i : Nat)  : (s.alertSet i).fw  = s.fw  := rfl
@[simp] theorem State.linkEnabled_alertSet (s : State) (i : Nat) (u : Nat) : (s.alertSet i).linkEnabled u = s.linkEnabled u := rfl

/-- What is read of the parts that `hbmWrite` leaves alone. -/
@[simp] theorem State.core_hbmWrite (s : State) (a : Nat) (bs : List Byte) (p : Bool) (u : Nat) : (s.hbmWrite a bs p).core u = s.core u := rfl
@[simp] theorem State.engine_hbmWrite (s : State) (a : Nat) (bs : List Byte) (p : Bool) (u v : Nat) : (s.hbmWrite a bs p).engine u v = s.engine u v := rfl
@[simp] theorem State.chan_hbmWrite (s : State) (a : Nat) (bs : List Byte) (p : Bool) (u v : Nat) : (s.hbmWrite a bs p).chan u v = s.chan u v := rfl
@[simp] theorem State.recovering_hbmWrite (s : State) (a : Nat) (bs : List Byte) (p : Bool) (u : Nat) : (s.hbmWrite a bs p).recovering u = s.recovering u := rfl
@[simp] theorem State.fenced_hbmWrite (s : State) (a : Nat) (bs : List Byte) (p : Bool) (u : Nat) : (s.hbmWrite a bs p).fenced u = s.fenced u := rfl
@[simp] theorem State.ctx?_hbmWrite (s : State) (a : Nat) (bs : List Byte) (p : Bool) (u : Nat) : (s.hbmWrite a bs p).ctx? u = s.ctx? u := rfl
@[simp] theorem State.stream?_hbmWrite (s : State) (a : Nat) (bs : List Byte) (p : Bool) (u : Nat) : (s.hbmWrite a bs p).stream? u = s.stream? u := rfl
@[simp] theorem State.port_hbmWrite (s : State) (a : Nat) (bs : List Byte) (p : Bool) (u : Nat) : (s.hbmWrite a bs p).port u = s.port u := rfl
@[simp] theorem State.link_hbmWrite (s : State) (a : Nat) (bs : List Byte) (p : Bool) (u : Nat) : (s.hbmWrite a bs p).link u = s.link u := rfl
@[simp] theorem State.model?_hbmWrite (s : State) (a : Nat) (bs : List Byte) (p : Bool) (u : Nat) : (s.hbmWrite a bs p).model? u = s.model? u := rfl
@[simp] theorem State.fw_hbmWrite (s : State) (a : Nat) (bs : List Byte) (p : Bool)  : (s.hbmWrite a bs p).fw  = s.fw  := rfl
@[simp] theorem State.hbmUp_hbmWrite (s : State) (a : Nat) (bs : List Byte) (p : Bool)  : (s.hbmWrite a bs p).hbmUp  = s.hbmUp  := rfl
@[simp] theorem State.linkEnabled_hbmWrite (s : State) (a : Nat) (bs : List Byte) (p : Bool) (u : Nat) : (s.hbmWrite a bs p).linkEnabled u = s.linkEnabled u := rfl

/-- What is read of the parts that `markCause` leaves alone. -/
@[simp] theorem State.core_markCause (s : State) (n : Nat) (p : Nat → StreamCtx → Bool) (u : Nat) : (s.markCause n p).core u = s.core u := rfl
@[simp] theorem State.engine_markCause (s : State) (n : Nat) (p : Nat → StreamCtx → Bool) (u v : Nat) : (s.markCause n p).engine u v = s.engine u v := rfl
@[simp] theorem State.chan_markCause (s : State) (n : Nat) (p : Nat → StreamCtx → Bool) (u v : Nat) : (s.markCause n p).chan u v = s.chan u v := rfl
@[simp] theorem State.recovering_markCause (s : State) (n : Nat) (p : Nat → StreamCtx → Bool) (u : Nat) : (s.markCause n p).recovering u = s.recovering u := rfl
@[simp] theorem State.fenced_markCause (s : State) (n : Nat) (p : Nat → StreamCtx → Bool) (u : Nat) : (s.markCause n p).fenced u = s.fenced u := rfl
@[simp] theorem State.ctx?_markCause (s : State) (n : Nat) (p : Nat → StreamCtx → Bool) (u : Nat) : (s.markCause n p).ctx? u = s.ctx? u := rfl
@[simp] theorem State.port_markCause (s : State) (n : Nat) (p : Nat → StreamCtx → Bool) (u : Nat) : (s.markCause n p).port u = s.port u := rfl
@[simp] theorem State.link_markCause (s : State) (n : Nat) (p : Nat → StreamCtx → Bool) (u : Nat) : (s.markCause n p).link u = s.link u := rfl
@[simp] theorem State.model?_markCause (s : State) (n : Nat) (p : Nat → StreamCtx → Bool) (u : Nat) : (s.markCause n p).model? u = s.model? u := rfl
@[simp] theorem State.fw_markCause (s : State) (n : Nat) (p : Nat → StreamCtx → Bool)  : (s.markCause n p).fw  = s.fw  := rfl
@[simp] theorem State.hbmUp_markCause (s : State) (n : Nat) (p : Nat → StreamCtx → Bool)  : (s.markCause n p).hbmUp  = s.hbmUp  := rfl
@[simp] theorem State.linkEnabled_markCause (s : State) (n : Nat) (p : Nat → StreamCtx → Bool) (u : Nat) : (s.markCause n p).linkEnabled u = s.linkEnabled u := rfl

/-- What is read of the parts that `commitPersist` leaves alone. -/
@[simp] theorem State.core_commitPersist (s : State)  (u : Nat) : (s.commitPersist).core u = s.core u := rfl
@[simp] theorem State.engine_commitPersist (s : State)  (u v : Nat) : (s.commitPersist).engine u v = s.engine u v := rfl
@[simp] theorem State.chan_commitPersist (s : State)  (u v : Nat) : (s.commitPersist).chan u v = s.chan u v := rfl
@[simp] theorem State.recovering_commitPersist (s : State)  (u : Nat) : (s.commitPersist).recovering u = s.recovering u := rfl
@[simp] theorem State.fenced_commitPersist (s : State)  (u : Nat) : (s.commitPersist).fenced u = s.fenced u := rfl
@[simp] theorem State.ctx?_commitPersist (s : State)  (u : Nat) : (s.commitPersist).ctx? u = s.ctx? u := rfl
@[simp] theorem State.stream?_commitPersist (s : State)  (u : Nat) : (s.commitPersist).stream? u = s.stream? u := rfl
@[simp] theorem State.port_commitPersist (s : State)  (u : Nat) : (s.commitPersist).port u = s.port u := rfl
@[simp] theorem State.link_commitPersist (s : State)  (u : Nat) : (s.commitPersist).link u = s.link u := rfl
@[simp] theorem State.model?_commitPersist (s : State)  (u : Nat) : (s.commitPersist).model? u = s.model? u := rfl
@[simp] theorem State.fw_commitPersist (s : State)   : (s.commitPersist).fw  = s.fw  := rfl
@[simp] theorem State.hbmUp_commitPersist (s : State)   : (s.commitPersist).hbmUp  = s.hbmUp  := rfl
@[simp] theorem State.linkEnabled_commitPersist (s : State)  (u : Nat) : (s.commitPersist).linkEnabled u = s.linkEnabled u := rfl

/-- What is read of the parts that `countPort` leaves alone. -/
@[simp] theorem State.core_countPort (s : State) (port i : Nat) (u : Nat) : (s.countPort port i).core u = s.core u := rfl
@[simp] theorem State.engine_countPort (s : State) (port i : Nat) (u v : Nat) : (s.countPort port i).engine u v = s.engine u v := rfl
@[simp] theorem State.chan_countPort (s : State) (port i : Nat) (u v : Nat) : (s.countPort port i).chan u v = s.chan u v := rfl
@[simp] theorem State.recovering_countPort (s : State) (port i : Nat) (u : Nat) : (s.countPort port i).recovering u = s.recovering u := rfl
@[simp] theorem State.fenced_countPort (s : State) (port i : Nat) (u : Nat) : (s.countPort port i).fenced u = s.fenced u := rfl
@[simp] theorem State.ctx?_countPort (s : State) (port i : Nat) (u : Nat) : (s.countPort port i).ctx? u = s.ctx? u := rfl
@[simp] theorem State.stream?_countPort (s : State) (port i : Nat) (u : Nat) : (s.countPort port i).stream? u = s.stream? u := rfl
@[simp] theorem State.link_countPort (s : State) (port i : Nat) (u : Nat) : (s.countPort port i).link u = s.link u := rfl
@[simp] theorem State.model?_countPort (s : State) (port i : Nat) (u : Nat) : (s.countPort port i).model? u = s.model? u := rfl
@[simp] theorem State.fw_countPort (s : State) (port i : Nat)  : (s.countPort port i).fw  = s.fw  := rfl
@[simp] theorem State.hbmUp_countPort (s : State) (port i : Nat)  : (s.countPort port i).hbmUp  = s.hbmUp  := rfl
@[simp] theorem State.linkEnabled_countPort (s : State) (port i : Nat) (u : Nat) : (s.countPort port i).linkEnabled u = s.linkEnabled u := rfl

/-- What is read of the parts that `draw` leaves alone. -/
@[simp] theorem State.core_draw (s : State)  (u : Nat) : (s.draw.2).core u = s.core u := rfl
@[simp] theorem State.engine_draw (s : State)  (u v : Nat) : (s.draw.2).engine u v = s.engine u v := rfl
@[simp] theorem State.chan_draw (s : State)  (u v : Nat) : (s.draw.2).chan u v = s.chan u v := rfl
@[simp] theorem State.recovering_draw (s : State)  (u : Nat) : (s.draw.2).recovering u = s.recovering u := rfl
@[simp] theorem State.fenced_draw (s : State)  (u : Nat) : (s.draw.2).fenced u = s.fenced u := rfl
@[simp] theorem State.ctx?_draw (s : State)  (u : Nat) : (s.draw.2).ctx? u = s.ctx? u := rfl
@[simp] theorem State.stream?_draw (s : State)  (u : Nat) : (s.draw.2).stream? u = s.stream? u := rfl
@[simp] theorem State.port_draw (s : State)  (u : Nat) : (s.draw.2).port u = s.port u := rfl
@[simp] theorem State.link_draw (s : State)  (u : Nat) : (s.draw.2).link u = s.link u := rfl
@[simp] theorem State.model?_draw (s : State)  (u : Nat) : (s.draw.2).model? u = s.model? u := rfl
@[simp] theorem State.fw_draw (s : State)   : (s.draw.2).fw  = s.fw  := rfl
@[simp] theorem State.hbmUp_draw (s : State)   : (s.draw.2).hbmUp  = s.hbmUp  := rfl
@[simp] theorem State.linkEnabled_draw (s : State)  (u : Nat) : (s.draw.2).linkEnabled u = s.linkEnabled u := rfl

/-- `draw` counts the draws. -/
@[simp] theorem State.draw_pending (s : State) : s.draw.2.pending = s.pending := rfl
@[simp] theorem State.draw_aon (s : State) : s.draw.2.aon = s.aon := rfl
@[simp] theorem State.draw_time (s : State) : s.draw.2.time = s.time := rfl
@[simp] theorem State.draw_persist (s : State) : s.draw.2.persist = s.persist := rfl
@[simp] theorem State.draw_flash (s : State) : s.draw.2.flash = s.flash := rfl
@[simp] theorem State.draw_streams (s : State) : s.draw.2.streams = s.streams := rfl
@[simp] theorem State.draw_cores (s : State) : s.draw.2.cores = s.cores := rfl
@[simp] theorem State.draw_ctxs (s : State) : s.draw.2.ctxs = s.ctxs := rfl
@[simp] theorem State.draw_mem (s : State) : s.draw.2.mem = s.mem := rfl
@[simp] theorem State.draw_recov (s : State) : s.draw.2.recov = s.recov := rfl
@[simp] theorem State.draw_clotha (s : State) : s.draw.2.clotha = s.clotha := rfl
@[simp] theorem State.draw_net (s : State) : s.draw.2.net = s.net := rfl
@[simp] theorem State.draw_links (s : State) : s.draw.2.links = s.links := rfl
@[simp] theorem State.draw_svc (s : State) : s.draw.2.svc = s.svc := rfl
@[simp] theorem State.draw_draws (s : State) : s.draw.2.draws = s.draws + 1 := rfl

/-! ### Parts that an update changes -/

@[simp] theorem State.core_modCore_self (s : State) (c : Nat) (f : Core → Core) : (s.modCore c f).core c = f (s.core c) := by
  simp [State.core, State.modCore]
theorem State.core_modCore_ne (s : State) {c d : Nat} (f : Core → Core) (h : d ≠ c) : (s.modCore c f).core d = s.core d :=
  kgetD_kmod_ne s.cores {} {} f h
@[simp] theorem State.port_modPort_self (s : State) (p : Nat) (f : Port → Port) : (s.modPort p f).port p = f (s.port p) := by
  simp [State.port, State.modPort]
theorem State.port_modPort_ne (s : State) {p q : Nat} (f : Port → Port) (h : q ≠ p) : (s.modPort p f).port q = s.port q :=
  kgetD_kmod_ne s.net.ports {} {} f h
@[simp] theorem State.link_modLink_self (s : State) (l : Nat) (f : Link → Link) : (s.modLink l f).link l = f (s.link l) := by
  simp [State.link, State.modLink]
theorem State.link_modLink_ne (s : State) {l m : Nat} (f : Link → Link) (h : m ≠ l) : (s.modLink l f).link m = s.link m :=
  kgetD_kmod_ne s.links {} {} f h
@[simp] theorem State.ctx?_modCtx_self (s : State) (i : Nat) (f : Ctx → Ctx) : (s.modCtx i f).ctx? i = (s.ctx? i).map f := by
  simp [State.ctx?, State.modCtx]
theorem State.ctx?_modCtx_ne (s : State) {i j : Nat} (f : Ctx → Ctx) (h : j ≠ i) : (s.modCtx i f).ctx? j = s.ctx? j :=
  kget?_kmod?_ne s.ctxs f h
@[simp] theorem State.stream?_modStream_self (s : State) (i : Nat) (f : StreamCtx → StreamCtx) :
    (s.modStream i f).stream? i = (s.stream? i).map f := by
  simp [State.stream?, State.modStream]
theorem State.stream?_modStream_ne (s : State) {i j : Nat} (f : StreamCtx → StreamCtx) (h : j ≠ i) :
    (s.modStream i f).stream? j = s.stream? j := kget?_kmod?_ne s.streams.ctx f h
@[simp] theorem State.model?_modModel_self (s : State) (i : Nat) (f : ModelSlot → ModelSlot) :
    (s.modModel i f).model? i = (s.model? i).map f := by
  simp [State.model?, State.modModel]
@[simp] theorem Core.engine_modEngine_self (k : Core) (e : Nat) (f : Engine → Engine) :
    (k.modEngine e f).engine e = f (k.engine e) := by
  simp [Core.engine, Core.modEngine]
@[simp] theorem State.engine_modEngine_self (s : State) (c e : Nat) (f : Engine → Engine) :
    (s.modEngine c e f).engine c e = f (s.engine c e) := by
  simp [State.engine, State.modEngine]

/-- A frame sent stands first in the list of what has left the module. -/
@[simp] theorem State.send_tx (s : State) (x : TxItem) : (s.send x).net.tx = x :: s.net.tx := rfl
@[simp] theorem State.send_port (s : State) (x : TxItem) (p : Nat) : (s.send x).port p = s.port p := rfl

/-- The parts read of a state whose other parts have changed. -/
@[simp] theorem State.now_eq (s : State) : s.now = s.time.now := rfl
theorem State.core_congr {s t : State} (h : s.cores = t.cores) (c : Nat) : s.core c = t.core c := by simp [State.core, h]
theorem State.port_congr {s t : State} (h : s.net = t.net) (p : Nat) : s.port p = t.port p := by simp [State.port, h]
theorem State.link_congr {s t : State} (h : s.links = t.links) (l : Nat) : s.link l = t.link l := by simp [State.link, h]

/-- HBM after a write: its canonical form is kept, a byte outside the write is as it was, a byte inside is the byte written. -/
theorem State.hbmWrite_wf (s : State) (a : Nat) (bs : List Byte) (p : Bool) (h : Memory.wf s.mem.hbm = true) :
    Memory.wf (s.hbmWrite a bs p).mem.hbm = true := wf_wrBytes a bs h
theorem State.hbmWrite_out (s : State) (a c : Nat) (bs : List Byte) (p : Bool) (h : c < a ∨ a + bs.length ≤ c) :
    rdByte (s.hbmWrite a bs p).mem.hbm c = rdByte s.mem.hbm c := rdByte_wrBytes_out s.mem.hbm a c bs h
theorem State.hbmWrite_read (s : State) (a : Nat) (bs : List Byte) (p : Bool) :
    (s.hbmWrite a bs p).hbmRead a bs.length = bs := rdBytes_wrBytes s.mem.hbm a bs

/-- A new key keeps HBM's canonical form. -/
theorem MemSys.dropExtent_wf (m : MemSys) (die ext : Nat) (h : Memory.wf m.hbm = true) :
    Memory.wf (m.dropExtent die ext).hbm = true := wf_memRemap _ _ _ h

end Sys2Proof.Machine
end

