-- ==== Sys2Proof/Laws/Frames.lean ====
section
/-! SUPPORT. What each operation of the machine leaves alone: one lemma for each, which names every part of the state that the
operation never changes. -/

set_option linter.unusedSimpArgs false
set_option linter.unusedTactic false
set_option linter.unreachableTactic false

namespace Sys2Proof.Machine

/-! ### Folds and choices -/

theorem foldl_proj {α β : Type} (g : State → α) (f : State → β → State) (h : ∀ t x, g (f t x) = g t) (l : List β) (s : State) :
    g (l.foldl f s) = g s := by
  induction l generalizing s with
  | nil => rfl
  | cons a l ih => rw [List.foldl_cons, ih, h]
theorem foldl_fst {α β γ : Type} (g : State → α) (f : State × γ → β → State × γ) (h : ∀ t x, g (f t x).1 = g t.1) (l : List β)
    (q : State × γ) : g (l.foldl f q).1 = g q.1 := by
  induction l generalizing q with
  | nil => rfl
  | cons a l ih => rw [List.foldl_cons, ih, h]
theorem foldl_run {α β : Type} (g : State → α) (f : VeRun → β → VeRun) (h : ∀ t x, g (f t x).s = g t.s) (l : List β) (m : VeRun) :
    g (l.foldl f m).s = g m.s := by
  induction l generalizing m with
  | nil => rfl
  | cons a l ih => rw [List.foldl_cons, ih, h]
theorem State.ite_frame (c : Prop) [Decidable c] (a b : State) :
    (if c then a else b).pending = (if c then a.pending else b.pending)
    ∧ (if c then a else b).draws = (if c then a.draws else b.draws)
    ∧ (if c then a else b).aon = (if c then a.aon else b.aon)
    ∧ (if c then a else b).time = (if c then a.time else b.time)
    ∧ (if c then a else b).persist = (if c then a.persist else b.persist)
    ∧ (if c then a else b).flash = (if c then a.flash else b.flash)
    ∧ (if c then a else b).streams = (if c then a.streams else b.streams)
    ∧ (if c then a else b).cores = (if c then a.cores else b.cores)
    ∧ (if c then a else b).ctxs = (if c then a.ctxs else b.ctxs)
    ∧ (if c then a else b).mem = (if c then a.mem else b.mem)
    ∧ (if c then a else b).recov = (if c then a.recov else b.recov)
    ∧ (if c then a else b).clotha = (if c then a.clotha else b.clotha)
    ∧ (if c then a else b).net = (if c then a.net else b.net)
    ∧ (if c then a else b).links = (if c then a.links else b.links)
    ∧ (if c then a else b).svc = (if c then a.svc else b.svc) := by
  split <;> simp

/-! ### Operations, in the order of the machine's files -/

theorem State.modCore_frame (s : State) (c : Nat) (f : Core → Core) : (State.modCore s c f).pending = s.pending ∧
    (State.modCore s c f).draws = s.draws ∧ (State.modCore s c f).aon = s.aon ∧ (State.modCore s c f).time = s.time ∧
    (State.modCore s c f).persist = s.persist ∧ (State.modCore s c f).flash = s.flash ∧ (State.modCore s c f).streams =
    s.streams ∧ (State.modCore s c f).ctxs = s.ctxs ∧ (State.modCore s c f).mem = s.mem ∧ (State.modCore s c f).recov = s.recov
    ∧ (State.modCore s c f).clotha = s.clotha ∧ (State.modCore s c f).net = s.net ∧ (State.modCore s c f).links = s.links ∧
    (State.modCore s c f).svc = s.svc := by
  unfold State.modCore
  refine ⟨?_, ?_, ?_, ?_, ?_, ?_, ?_, ?_, ?_, ?_, ?_, ?_, ?_, ?_⟩ <;> (repeat' first
    | with_reducible rfl | simp only [State.ite_frame, ite_self] | (intro _ _)
    | with_reducible refine (foldl_proj _ _ ?_ _ _).trans ?_ | with_reducible refine (foldl_fst _ _ ?_ _ _).trans ?_
    | with_reducible refine (foldl_run _ _ ?_ _ _).trans ?_ | split)
@[simp] theorem State.modCores_frame (s : State) (f : Nat → Core → Core) : (State.modCores s f).pending = s.pending ∧
    (State.modCores s f).draws = s.draws ∧ (State.modCores s f).aon = s.aon ∧ (State.modCores s f).time = s.time ∧
    (State.modCores s f).persist = s.persist ∧ (State.modCores s f).flash = s.flash ∧ (State.modCores s f).streams = s.streams
    ∧ (State.modCores s f).ctxs = s.ctxs ∧ (State.modCores s f).mem = s.mem ∧ (State.modCores s f).recov = s.recov ∧
    (State.modCores s f).clotha = s.clotha ∧ (State.modCores s f).net = s.net ∧ (State.modCores s f).links = s.links ∧
    (State.modCores s f).svc = s.svc := by
  unfold State.modCores
  refine ⟨?_, ?_, ?_, ?_, ?_, ?_, ?_, ?_, ?_, ?_, ?_, ?_, ?_, ?_⟩ <;> (repeat' first
    | with_reducible rfl | simp only [State.ite_frame, ite_self, State.modCore_frame] | (intro _ _)
    | with_reducible refine (foldl_proj _ _ ?_ _ _).trans ?_ | with_reducible refine (foldl_fst _ _ ?_ _ _).trans ?_
    | with_reducible refine (foldl_run _ _ ?_ _ _).trans ?_ | split)
theorem State.modCtx_frame (s : State) (i : Nat) (f : Ctx → Ctx) : (State.modCtx s i f).pending = s.pending ∧ (State.modCtx s i
    f).draws = s.draws ∧ (State.modCtx s i f).aon = s.aon ∧ (State.modCtx s i f).time = s.time ∧ (State.modCtx s i f).persist =
    s.persist ∧ (State.modCtx s i f).flash = s.flash ∧ (State.modCtx s i f).streams = s.streams ∧ (State.modCtx s i f).cores =
    s.cores ∧ (State.modCtx s i f).mem = s.mem ∧ (State.modCtx s i f).recov = s.recov ∧ (State.modCtx s i f).clotha = s.clotha
    ∧ (State.modCtx s i f).net = s.net ∧ (State.modCtx s i f).links = s.links ∧ (State.modCtx s i f).svc = s.svc := by
  unfold State.modCtx
  refine ⟨?_, ?_, ?_, ?_, ?_, ?_, ?_, ?_, ?_, ?_, ?_, ?_, ?_, ?_⟩ <;> (repeat' first
    | with_reducible rfl | simp only [State.ite_frame, ite_self] | (intro _ _)
    | with_reducible refine (foldl_proj _ _ ?_ _ _).trans ?_ | with_reducible refine (foldl_fst _ _ ?_ _ _).trans ?_
    | with_reducible refine (foldl_run _ _ ?_ _ _).trans ?_ | split)
theorem State.modStream_frame (s : State) (i : Nat) (f : StreamCtx → StreamCtx) : (State.modStream s i f).pending = s.pending ∧
    (State.modStream s i f).draws = s.draws ∧ (State.modStream s i f).aon = s.aon ∧ (State.modStream s i f).time = s.time ∧
    (State.modStream s i f).persist = s.persist ∧ (State.modStream s i f).flash = s.flash ∧ (State.modStream s i f).cores =
    s.cores ∧ (State.modStream s i f).ctxs = s.ctxs ∧ (State.modStream s i f).mem = s.mem ∧ (State.modStream s i f).recov =
    s.recov ∧ (State.modStream s i f).clotha = s.clotha ∧ (State.modStream s i f).net = s.net ∧ (State.modStream s i f).links =
    s.links ∧ (State.modStream s i f).svc = s.svc := by
  unfold State.modStream
  refine ⟨?_, ?_, ?_, ?_, ?_, ?_, ?_, ?_, ?_, ?_, ?_, ?_, ?_, ?_⟩ <;> (repeat' first
    | with_reducible rfl | simp only [State.ite_frame, ite_self] | (intro _ _)
    | with_reducible refine (foldl_proj _ _ ?_ _ _).trans ?_ | with_reducible refine (foldl_fst _ _ ?_ _ _).trans ?_
    | with_reducible refine (foldl_run _ _ ?_ _ _).trans ?_ | split)
theorem State.modStats_frame (s : State) (i : Nat) (f : StreamStats → StreamStats) : (State.modStats s i f).pending = s.pending
    ∧ (State.modStats s i f).draws = s.draws ∧ (State.modStats s i f).aon = s.aon ∧ (State.modStats s i f).time = s.time ∧
    (State.modStats s i f).persist = s.persist ∧ (State.modStats s i f).flash = s.flash ∧ (State.modStats s i f).cores =
    s.cores ∧ (State.modStats s i f).ctxs = s.ctxs ∧ (State.modStats s i f).mem = s.mem ∧ (State.modStats s i f).recov =
    s.recov ∧ (State.modStats s i f).clotha = s.clotha ∧ (State.modStats s i f).net = s.net ∧ (State.modStats s i f).links =
    s.links ∧ (State.modStats s i f).svc = s.svc := by
  unfold State.modStats
  refine ⟨?_, ?_, ?_, ?_, ?_, ?_, ?_, ?_, ?_, ?_, ?_, ?_, ?_, ?_⟩ <;> (repeat' first
    | with_reducible rfl | simp only [State.ite_frame, ite_self] | (intro _ _)
    | with_reducible refine (foldl_proj _ _ ?_ _ _).trans ?_ | with_reducible refine (foldl_fst _ _ ?_ _ _).trans ?_
    | with_reducible refine (foldl_run _ _ ?_ _ _).trans ?_ | split)
theorem State.modEngine_frame (s : State) (c : Nat) (e : Nat) (f : Engine → Engine) : (State.modEngine s c e f).pending =
    s.pending ∧ (State.modEngine s c e f).draws = s.draws ∧ (State.modEngine s c e f).aon = s.aon ∧ (State.modEngine s c e
    f).time = s.time ∧ (State.modEngine s c e f).persist = s.persist ∧ (State.modEngine s c e f).flash = s.flash ∧
    (State.modEngine s c e f).streams = s.streams ∧ (State.modEngine s c e f).ctxs = s.ctxs ∧ (State.modEngine s c e f).mem =
    s.mem ∧ (State.modEngine s c e f).recov = s.recov ∧ (State.modEngine s c e f).clotha = s.clotha ∧ (State.modEngine s c e
    f).net = s.net ∧ (State.modEngine s c e f).links = s.links ∧ (State.modEngine s c e f).svc = s.svc := by
  unfold State.modEngine
  refine ⟨?_, ?_, ?_, ?_, ?_, ?_, ?_, ?_, ?_, ?_, ?_, ?_, ?_, ?_⟩ <;> (repeat' first
    | with_reducible rfl | simp only [State.ite_frame, ite_self, State.modCore_frame] | (intro _ _)
    | with_reducible refine (foldl_proj _ _ ?_ _ _).trans ?_ | with_reducible refine (foldl_fst _ _ ?_ _ _).trans ?_
    | with_reducible refine (foldl_run _ _ ?_ _ _).trans ?_ | split)
theorem State.modPort_frame (s : State) (p : Nat) (f : Port → Port) : (State.modPort s p f).pending = s.pending ∧
    (State.modPort s p f).draws = s.draws ∧ (State.modPort s p f).aon = s.aon ∧ (State.modPort s p f).time = s.time ∧
    (State.modPort s p f).persist = s.persist ∧ (State.modPort s p f).flash = s.flash ∧ (State.modPort s p f).streams =
    s.streams ∧ (State.modPort s p f).cores = s.cores ∧ (State.modPort s p f).ctxs = s.ctxs ∧ (State.modPort s p f).mem = s.mem
    ∧ (State.modPort s p f).recov = s.recov ∧ (State.modPort s p f).clotha = s.clotha ∧ (State.modPort s p f).links = s.links ∧
    (State.modPort s p f).svc = s.svc := by
  unfold State.modPort
  refine ⟨?_, ?_, ?_, ?_, ?_, ?_, ?_, ?_, ?_, ?_, ?_, ?_, ?_, ?_⟩ <;> (repeat' first
    | with_reducible rfl | simp only [State.ite_frame, ite_self] | (intro _ _)
    | with_reducible refine (foldl_proj _ _ ?_ _ _).trans ?_ | with_reducible refine (foldl_fst _ _ ?_ _ _).trans ?_
    | with_reducible refine (foldl_run _ _ ?_ _ _).trans ?_ | split)
theorem State.modLink_frame (s : State) (l : Nat) (f : Link → Link) : (State.modLink s l f).pending = s.pending ∧
    (State.modLink s l f).draws = s.draws ∧ (State.modLink s l f).aon = s.aon ∧ (State.modLink s l f).time = s.time ∧
    (State.modLink s l f).persist = s.persist ∧ (State.modLink s l f).flash = s.flash ∧ (State.modLink s l f).streams =
    s.streams ∧ (State.modLink s l f).cores = s.cores ∧ (State.modLink s l f).ctxs = s.ctxs ∧ (State.modLink s l f).mem = s.mem
    ∧ (State.modLink s l f).recov = s.recov ∧ (State.modLink s l f).clotha = s.clotha ∧ (State.modLink s l f).net = s.net ∧
    (State.modLink s l f).svc = s.svc := by
  unfold State.modLink
  refine ⟨?_, ?_, ?_, ?_, ?_, ?_, ?_, ?_, ?_, ?_, ?_, ?_, ?_, ?_⟩ <;> (repeat' first
    | with_reducible rfl | simp only [State.ite_frame, ite_self] | (intro _ _)
    | with_reducible refine (foldl_proj _ _ ?_ _ _).trans ?_ | with_reducible refine (foldl_fst _ _ ?_ _ _).trans ?_
    | with_reducible refine (foldl_run _ _ ?_ _ _).trans ?_ | split)
theorem State.modModel_frame (s : State) (i : Nat) (f : ModelSlot → ModelSlot) : (State.modModel s i f).pending = s.pending ∧
    (State.modModel s i f).draws = s.draws ∧ (State.modModel s i f).aon = s.aon ∧ (State.modModel s i f).time = s.time ∧
    (State.modModel s i f).persist = s.persist ∧ (State.modModel s i f).flash = s.flash ∧ (State.modModel s i f).streams =
    s.streams ∧ (State.modModel s i f).cores = s.cores ∧ (State.modModel s i f).ctxs = s.ctxs ∧ (State.modModel s i f).mem =
    s.mem ∧ (State.modModel s i f).recov = s.recov ∧ (State.modModel s i f).clotha = s.clotha ∧ (State.modModel s i f).net =
    s.net ∧ (State.modModel s i f).links = s.links := by
  unfold State.modModel
  refine ⟨?_, ?_, ?_, ?_, ?_, ?_, ?_, ?_, ?_, ?_, ?_, ?_, ?_, ?_⟩ <;> (repeat' first
    | with_reducible rfl | simp only [State.ite_frame, ite_self] | (intro _ _)
    | with_reducible refine (foldl_proj _ _ ?_ _ _).trans ?_ | with_reducible refine (foldl_fst _ _ ?_ _ _).trans ?_
    | with_reducible refine (foldl_run _ _ ?_ _ _).trans ?_ | split)
theorem State.send_frame (s : State) (x : TxItem) : (State.send s x).pending = s.pending ∧ (State.send s x).draws = s.draws ∧
    (State.send s x).aon = s.aon ∧ (State.send s x).time = s.time ∧ (State.send s x).persist = s.persist ∧ (State.send s
    x).flash = s.flash ∧ (State.send s x).streams = s.streams ∧ (State.send s x).cores = s.cores ∧ (State.send s x).ctxs =
    s.ctxs ∧ (State.send s x).mem = s.mem ∧ (State.send s x).recov = s.recov ∧ (State.send s x).clotha = s.clotha ∧ (State.send
    s x).links = s.links ∧ (State.send s x).svc = s.svc := by
  unfold State.send
  refine ⟨?_, ?_, ?_, ?_, ?_, ?_, ?_, ?_, ?_, ?_, ?_, ?_, ?_, ?_⟩ <;> (repeat' first
    | with_reducible rfl | simp only [State.ite_frame, ite_self] | (intro _ _)
    | with_reducible refine (foldl_proj _ _ ?_ _ _).trans ?_ | with_reducible refine (foldl_fst _ _ ?_ _ _).trans ?_
    | with_reducible refine (foldl_run _ _ ?_ _ _).trans ?_ | split)
theorem State.logEvent_frame (s : State) (event : Nat) (code : Nat) (kind : Nat) (index : Nat) (detail : List (Nat × Int)) :
    (State.logEvent s event code kind index detail).pending = s.pending ∧ (State.logEvent s event code kind index detail).draws
    = s.draws ∧ (State.logEvent s event code kind index detail).aon = s.aon ∧ (State.logEvent s event code kind index
    detail).time = s.time ∧ (State.logEvent s event code kind index detail).persist = s.persist ∧ (State.logEvent s event code
    kind index detail).flash = s.flash ∧ (State.logEvent s event code kind index detail).streams = s.streams ∧ (State.logEvent
    s event code kind index detail).cores = s.cores ∧ (State.logEvent s event code kind index detail).ctxs = s.ctxs ∧
    (State.logEvent s event code kind index detail).mem = s.mem ∧ (State.logEvent s event code kind index detail).clotha =
    s.clotha ∧ (State.logEvent s event code kind index detail).net = s.net ∧ (State.logEvent s event code kind index
    detail).links = s.links ∧ (State.logEvent s event code kind index detail).svc = s.svc := by
  unfold State.logEvent
  refine ⟨?_, ?_, ?_, ?_, ?_, ?_, ?_, ?_, ?_, ?_, ?_, ?_, ?_, ?_⟩ <;> (repeat' first
    | with_reducible rfl | simp only [State.ite_frame, ite_self] | (intro _ _)
    | with_reducible refine (foldl_proj _ _ ?_ _ _).trans ?_ | with_reducible refine (foldl_fst _ _ ?_ _ _).trans ?_
    | with_reducible refine (foldl_run _ _ ?_ _ _).trans ?_ | split)
theorem State.logFw_frame (s : State) (event : Nat) (code : Nat) (detail : List (Nat × Int)) : (State.logFw s event code
    detail).pending = s.pending ∧ (State.logFw s event code detail).draws = s.draws ∧ (State.logFw s event code detail).aon =
    s.aon ∧ (State.logFw s event code detail).time = s.time ∧ (State.logFw s event code detail).persist = s.persist ∧
    (State.logFw s event code detail).flash = s.flash ∧ (State.logFw s event code detail).streams = s.streams ∧ (State.logFw s
    event code detail).cores = s.cores ∧ (State.logFw s event code detail).ctxs = s.ctxs ∧ (State.logFw s event code
    detail).mem = s.mem ∧ (State.logFw s event code detail).clotha = s.clotha ∧ (State.logFw s event code detail).net = s.net ∧
    (State.logFw s event code detail).links = s.links ∧ (State.logFw s event code detail).svc = s.svc := by
  unfold State.logFw
  refine ⟨?_, ?_, ?_, ?_, ?_, ?_, ?_, ?_, ?_, ?_, ?_, ?_, ?_, ?_⟩ <;> (repeat' first
    | with_reducible rfl | simp only [State.ite_frame, ite_self, State.logEvent_frame] | (intro _ _)
    | with_reducible refine (foldl_proj _ _ ?_ _ _).trans ?_ | with_reducible refine (foldl_fst _ _ ?_ _ _).trans ?_
    | with_reducible refine (foldl_run _ _ ?_ _ _).trans ?_ | split)
theorem State.alertSet_frame (s : State) (i : Nat) : (State.alertSet s i).pending = s.pending ∧ (State.alertSet s i).draws =
    s.draws ∧ (State.alertSet s i).time = s.time ∧ (State.alertSet s i).persist = s.persist ∧ (State.alertSet s i).flash =
    s.flash ∧ (State.alertSet s i).streams = s.streams ∧ (State.alertSet s i).cores = s.cores ∧ (State.alertSet s i).ctxs =
    s.ctxs ∧ (State.alertSet s i).mem = s.mem ∧ (State.alertSet s i).recov = s.recov ∧ (State.alertSet s i).clotha = s.clotha ∧
    (State.alertSet s i).net = s.net ∧ (State.alertSet s i).links = s.links ∧ (State.alertSet s i).svc = s.svc := by
  unfold State.alertSet
  refine ⟨?_, ?_, ?_, ?_, ?_, ?_, ?_, ?_, ?_, ?_, ?_, ?_, ?_, ?_⟩ <;> (repeat' first
    | with_reducible rfl | simp only [State.ite_frame, ite_self] | (intro _ _)
    | with_reducible refine (foldl_proj _ _ ?_ _ _).trans ?_ | with_reducible refine (foldl_fst _ _ ?_ _ _).trans ?_
    | with_reducible refine (foldl_run _ _ ?_ _ _).trans ?_ | split)
theorem State.draw_frame (s : State) : (State.draw s).2.pending = s.pending ∧ (State.draw s).2.aon = s.aon ∧ (State.draw
    s).2.time = s.time ∧ (State.draw s).2.persist = s.persist ∧ (State.draw s).2.flash = s.flash ∧ (State.draw s).2.streams =
    s.streams ∧ (State.draw s).2.cores = s.cores ∧ (State.draw s).2.ctxs = s.ctxs ∧ (State.draw s).2.mem = s.mem ∧ (State.draw
    s).2.recov = s.recov ∧ (State.draw s).2.clotha = s.clotha ∧ (State.draw s).2.net = s.net ∧ (State.draw s).2.links = s.links
    ∧ (State.draw s).2.svc = s.svc := by
  unfold State.draw
  refine ⟨?_, ?_, ?_, ?_, ?_, ?_, ?_, ?_, ?_, ?_, ?_, ?_, ?_, ?_⟩ <;> (repeat' first
    | with_reducible rfl | simp only [State.ite_frame, ite_self] | (intro _ _)
    | with_reducible refine (foldl_proj _ _ ?_ _ _).trans ?_ | with_reducible refine (foldl_fst _ _ ?_ _ _).trans ?_
    | with_reducible refine (foldl_run _ _ ?_ _ _).trans ?_ | split)
@[simp] theorem State.install_frame (s : State) (l : List Grant) : (State.install s l).pending = s.pending ∧ (State.install s
    l).draws = s.draws ∧ (State.install s l).aon = s.aon ∧ (State.install s l).time = s.time ∧ (State.install s l).persist =
    s.persist ∧ (State.install s l).flash = s.flash ∧ (State.install s l).streams = s.streams ∧ (State.install s l).cores =
    s.cores ∧ (State.install s l).ctxs = s.ctxs ∧ (State.install s l).mem = s.mem ∧ (State.install s l).recov = s.recov ∧
    (State.install s l).clotha = s.clotha ∧ (State.install s l).net = s.net ∧ (State.install s l).links = s.links := by
  unfold State.install
  refine ⟨?_, ?_, ?_, ?_, ?_, ?_, ?_, ?_, ?_, ?_, ?_, ?_, ?_, ?_⟩ <;> (repeat' first
    | with_reducible rfl | simp only [State.ite_frame, ite_self] | (intro _ _)
    | with_reducible refine (foldl_proj _ _ ?_ _ _).trans ?_ | with_reducible refine (foldl_fst _ _ ?_ _ _).trans ?_
    | with_reducible refine (foldl_run _ _ ?_ _ _).trans ?_ | split)
@[simp] theorem State.uninstall_frame (s : State) (p : Grant → Bool) : (State.uninstall s p).pending = s.pending ∧
    (State.uninstall s p).draws = s.draws ∧ (State.uninstall s p).aon = s.aon ∧ (State.uninstall s p).time = s.time ∧
    (State.uninstall s p).persist = s.persist ∧ (State.uninstall s p).flash = s.flash ∧ (State.uninstall s p).streams =
    s.streams ∧ (State.uninstall s p).cores = s.cores ∧ (State.uninstall s p).ctxs = s.ctxs ∧ (State.uninstall s p).mem = s.mem
    ∧ (State.uninstall s p).recov = s.recov ∧ (State.uninstall s p).clotha = s.clotha ∧ (State.uninstall s p).net = s.net ∧
    (State.uninstall s p).links = s.links := by
  unfold State.uninstall
  refine ⟨?_, ?_, ?_, ?_, ?_, ?_, ?_, ?_, ?_, ?_, ?_, ?_, ?_, ?_⟩ <;> (repeat' first
    | with_reducible rfl | simp only [State.ite_frame, ite_self] | (intro _ _)
    | with_reducible refine (foldl_proj _ _ ?_ _ _).trans ?_ | with_reducible refine (foldl_fst _ _ ?_ _ _).trans ?_
    | with_reducible refine (foldl_run _ _ ?_ _ _).trans ?_ | split)
theorem State.hbmWrite_frame (s : State) (a : Nat) (bs : List Byte) (poison : Bool) : (State.hbmWrite s a bs poison).pending =
    s.pending ∧ (State.hbmWrite s a bs poison).draws = s.draws ∧ (State.hbmWrite s a bs poison).aon = s.aon ∧ (State.hbmWrite s
    a bs poison).time = s.time ∧ (State.hbmWrite s a bs poison).persist = s.persist ∧ (State.hbmWrite s a bs poison).flash =
    s.flash ∧ (State.hbmWrite s a bs poison).streams = s.streams ∧ (State.hbmWrite s a bs poison).cores = s.cores ∧
    (State.hbmWrite s a bs poison).ctxs = s.ctxs ∧ (State.hbmWrite s a bs poison).recov = s.recov ∧ (State.hbmWrite s a bs
    poison).clotha = s.clotha ∧ (State.hbmWrite s a bs poison).net = s.net ∧ (State.hbmWrite s a bs poison).links = s.links ∧
    (State.hbmWrite s a bs poison).svc = s.svc := by
  unfold State.hbmWrite
  refine ⟨?_, ?_, ?_, ?_, ?_, ?_, ?_, ?_, ?_, ?_, ?_, ?_, ?_, ?_⟩ <;> (repeat' first
    | with_reducible rfl | simp only [State.ite_frame, ite_self] | (intro _ _)
    | with_reducible refine (foldl_proj _ _ ?_ _ _).trans ?_ | with_reducible refine (foldl_fst _ _ ?_ _ _).trans ?_
    | with_reducible refine (foldl_run _ _ ?_ _ _).trans ?_ | split)
@[simp] theorem State.progress_frame (s : State) (core : Nat) (unit : Nat) : (State.progress s core unit).pending = s.pending ∧
    (State.progress s core unit).draws = s.draws ∧ (State.progress s core unit).aon = s.aon ∧ (State.progress s core unit).time
    = s.time ∧ (State.progress s core unit).persist = s.persist ∧ (State.progress s core unit).flash = s.flash ∧
    (State.progress s core unit).streams = s.streams ∧ (State.progress s core unit).ctxs = s.ctxs ∧ (State.progress s core
    unit).mem = s.mem ∧ (State.progress s core unit).recov = s.recov ∧ (State.progress s core unit).clotha = s.clotha ∧
    (State.progress s core unit).net = s.net ∧ (State.progress s core unit).links = s.links ∧ (State.progress s core unit).svc
    = s.svc := by
  unfold State.progress
  refine ⟨?_, ?_, ?_, ?_, ?_, ?_, ?_, ?_, ?_, ?_, ?_, ?_, ?_, ?_⟩ <;> (repeat' first
    | with_reducible rfl | simp only [State.ite_frame, ite_self, State.modCore_frame] | (intro _ _)
    | with_reducible refine (foldl_proj _ _ ?_ _ _).trans ?_ | with_reducible refine (foldl_fst _ _ ?_ _ _).trans ?_
    | with_reducible refine (foldl_run _ _ ?_ _ _).trans ?_ | split)
theorem State.markCause_frame (s : State) (n : Nat) (p : Nat → StreamCtx → Bool) : (State.markCause s n p).pending = s.pending
    ∧ (State.markCause s n p).draws = s.draws ∧ (State.markCause s n p).aon = s.aon ∧ (State.markCause s n p).time = s.time ∧
    (State.markCause s n p).persist = s.persist ∧ (State.markCause s n p).flash = s.flash ∧ (State.markCause s n p).cores =
    s.cores ∧ (State.markCause s n p).ctxs = s.ctxs ∧ (State.markCause s n p).mem = s.mem ∧ (State.markCause s n p).recov =
    s.recov ∧ (State.markCause s n p).clotha = s.clotha ∧ (State.markCause s n p).net = s.net ∧ (State.markCause s n p).links =
    s.links ∧ (State.markCause s n p).svc = s.svc := by
  unfold State.markCause
  refine ⟨?_, ?_, ?_, ?_, ?_, ?_, ?_, ?_, ?_, ?_, ?_, ?_, ?_, ?_⟩ <;> (repeat' first
    | with_reducible rfl | simp only [State.ite_frame, ite_self] | (intro _ _)
    | with_reducible refine (foldl_proj _ _ ?_ _ _).trans ?_ | with_reducible refine (foldl_fst _ _ ?_ _ _).trans ?_
    | with_reducible refine (foldl_run _ _ ?_ _ _).trans ?_ | split)
theorem State.commitPersist_frame (s : State) : (State.commitPersist s).pending = s.pending ∧ (State.commitPersist s).draws =
    s.draws ∧ (State.commitPersist s).aon = s.aon ∧ (State.commitPersist s).time = s.time ∧ (State.commitPersist s).persist =
    s.persist ∧ (State.commitPersist s).flash = s.flash ∧ (State.commitPersist s).streams = s.streams ∧ (State.commitPersist
    s).cores = s.cores ∧ (State.commitPersist s).ctxs = s.ctxs ∧ (State.commitPersist s).mem = s.mem ∧ (State.commitPersist
    s).recov = s.recov ∧ (State.commitPersist s).net = s.net ∧ (State.commitPersist s).links = s.links ∧ (State.commitPersist
    s).svc = s.svc := by
  unfold State.commitPersist
  refine ⟨?_, ?_, ?_, ?_, ?_, ?_, ?_, ?_, ?_, ?_, ?_, ?_, ?_, ?_⟩ <;> (repeat' first
    | with_reducible rfl | simp only [State.ite_frame, ite_self] | (intro _ _)
    | with_reducible refine (foldl_proj _ _ ?_ _ _).trans ?_ | with_reducible refine (foldl_fst _ _ ?_ _ _).trans ?_
    | with_reducible refine (foldl_run _ _ ?_ _ _).trans ?_ | split)
@[simp] theorem State.boreFinds_frame (s : State) (core : Nat) (ranges : List (HandleEntry × Nat × Nat)) (errs : BoreErrs) :
    (State.boreFinds s core ranges errs).pending = s.pending ∧ (State.boreFinds s core ranges errs).draws = s.draws ∧
    (State.boreFinds s core ranges errs).aon = s.aon ∧ (State.boreFinds s core ranges errs).time = s.time ∧ (State.boreFinds s
    core ranges errs).persist = s.persist ∧ (State.boreFinds s core ranges errs).flash = s.flash ∧ (State.boreFinds s core
    ranges errs).streams = s.streams ∧ (State.boreFinds s core ranges errs).ctxs = s.ctxs ∧ (State.boreFinds s core ranges
    errs).mem = s.mem ∧ (State.boreFinds s core ranges errs).recov = s.recov ∧ (State.boreFinds s core ranges errs).clotha =
    s.clotha ∧ (State.boreFinds s core ranges errs).net = s.net ∧ (State.boreFinds s core ranges errs).links = s.links ∧
    (State.boreFinds s core ranges errs).svc = s.svc := by
  unfold State.boreFinds
  refine ⟨?_, ?_, ?_, ?_, ?_, ?_, ?_, ?_, ?_, ?_, ?_, ?_, ?_, ?_⟩ <;> (repeat' first
    | with_reducible rfl | simp only [State.ite_frame, ite_self, State.modCore_frame] | (intro _ _)
    | with_reducible refine (foldl_proj _ _ ?_ _ _).trans ?_ | with_reducible refine (foldl_fst _ _ ?_ _ _).trans ?_
    | with_reducible refine (foldl_run _ _ ?_ _ _).trans ?_ | split)
@[simp] theorem State.bufWrite_frame (s : State) (core : Nat) (h : HandleEntry) (o : Nat) (bs : List Byte) (poison : Bool) :
    (State.bufWrite s core h o bs poison).pending = s.pending ∧ (State.bufWrite s core h o bs poison).draws = s.draws ∧
    (State.bufWrite s core h o bs poison).aon = s.aon ∧ (State.bufWrite s core h o bs poison).time = s.time ∧ (State.bufWrite s
    core h o bs poison).persist = s.persist ∧ (State.bufWrite s core h o bs poison).flash = s.flash ∧ (State.bufWrite s core h
    o bs poison).streams = s.streams ∧ (State.bufWrite s core h o bs poison).ctxs = s.ctxs ∧ (State.bufWrite s core h o bs
    poison).mem = s.mem ∧ (State.bufWrite s core h o bs poison).recov = s.recov ∧ (State.bufWrite s core h o bs poison).clotha
    = s.clotha ∧ (State.bufWrite s core h o bs poison).net = s.net ∧ (State.bufWrite s core h o bs poison).links = s.links ∧
    (State.bufWrite s core h o bs poison).svc = s.svc := by
  unfold State.bufWrite
  refine ⟨?_, ?_, ?_, ?_, ?_, ?_, ?_, ?_, ?_, ?_, ?_, ?_, ?_, ?_⟩ <;> (repeat' first
    | with_reducible rfl | simp only [State.ite_frame, ite_self, State.modCore_frame] | (intro _ _)
    | with_reducible refine (foldl_proj _ _ ?_ _ _).trans ?_ | with_reducible refine (foldl_fst _ _ ?_ _ _).trans ?_
    | with_reducible refine (foldl_run _ _ ?_ _ _).trans ?_ | split)
@[simp] theorem State.modHandle_frame (s : State) (core : Nat) (i : Nat) (f : HandleEntry → HandleEntry) : (State.modHandle s
    core i f).pending = s.pending ∧ (State.modHandle s core i f).draws = s.draws ∧ (State.modHandle s core i f).aon = s.aon ∧
    (State.modHandle s core i f).time = s.time ∧ (State.modHandle s core i f).persist = s.persist ∧ (State.modHandle s core i
    f).flash = s.flash ∧ (State.modHandle s core i f).streams = s.streams ∧ (State.modHandle s core i f).ctxs = s.ctxs ∧
    (State.modHandle s core i f).mem = s.mem ∧ (State.modHandle s core i f).recov = s.recov ∧ (State.modHandle s core i
    f).clotha = s.clotha ∧ (State.modHandle s core i f).net = s.net ∧ (State.modHandle s core i f).links = s.links ∧
    (State.modHandle s core i f).svc = s.svc := by
  unfold State.modHandle
  refine ⟨?_, ?_, ?_, ?_, ?_, ?_, ?_, ?_, ?_, ?_, ?_, ?_, ?_, ?_⟩ <;> (repeat' first
    | with_reducible rfl | simp only [State.ite_frame, ite_self, State.modCore_frame] | (intro _ _)
    | with_reducible refine (foldl_proj _ _ ?_ _ _).trans ?_ | with_reducible refine (foldl_fst _ _ ?_ _ _).trans ?_
    | with_reducible refine (foldl_run _ _ ?_ _ _).trans ?_ | split)
@[simp] theorem State.drainSlot_frame (s : State) (core : Nat) (i : Nat) (slot : Nat) : (State.drainSlot s core i slot).pending
    = s.pending ∧ (State.drainSlot s core i slot).draws = s.draws ∧ (State.drainSlot s core i slot).aon = s.aon ∧
    (State.drainSlot s core i slot).time = s.time ∧ (State.drainSlot s core i slot).persist = s.persist ∧ (State.drainSlot s
    core i slot).flash = s.flash ∧ (State.drainSlot s core i slot).streams = s.streams ∧ (State.drainSlot s core i slot).ctxs =
    s.ctxs ∧ (State.drainSlot s core i slot).mem = s.mem ∧ (State.drainSlot s core i slot).recov = s.recov ∧ (State.drainSlot s
    core i slot).clotha = s.clotha ∧ (State.drainSlot s core i slot).net = s.net ∧ (State.drainSlot s core i slot).links =
    s.links ∧ (State.drainSlot s core i slot).svc = s.svc := by
  unfold State.drainSlot
  refine ⟨?_, ?_, ?_, ?_, ?_, ?_, ?_, ?_, ?_, ?_, ?_, ?_, ?_, ?_⟩ <;> (repeat' first
    | with_reducible rfl | simp only [State.ite_frame, ite_self, State.modHandle_frame, State.modCore_frame] | (intro _ _)
    | with_reducible refine (foldl_proj _ _ ?_ _ _).trans ?_ | with_reducible refine (foldl_fst _ _ ?_ _ _).trans ?_
    | with_reducible refine (foldl_run _ _ ?_ _ _).trans ?_ | split)
@[simp] theorem State.fillSlot_frame (s : State) (core : Nat) (i : Nat) (slot : Nat) : (State.fillSlot s core i slot).pending =
    s.pending ∧ (State.fillSlot s core i slot).draws = s.draws ∧ (State.fillSlot s core i slot).aon = s.aon ∧ (State.fillSlot s
    core i slot).time = s.time ∧ (State.fillSlot s core i slot).persist = s.persist ∧ (State.fillSlot s core i slot).flash =
    s.flash ∧ (State.fillSlot s core i slot).streams = s.streams ∧ (State.fillSlot s core i slot).ctxs = s.ctxs ∧
    (State.fillSlot s core i slot).mem = s.mem ∧ (State.fillSlot s core i slot).recov = s.recov ∧ (State.fillSlot s core i
    slot).clotha = s.clotha ∧ (State.fillSlot s core i slot).net = s.net ∧ (State.fillSlot s core i slot).links = s.links ∧
    (State.fillSlot s core i slot).svc = s.svc := by
  unfold State.fillSlot
  refine ⟨?_, ?_, ?_, ?_, ?_, ?_, ?_, ?_, ?_, ?_, ?_, ?_, ?_, ?_⟩ <;> (repeat' first
    | with_reducible rfl | simp only [State.ite_frame, ite_self, State.modHandle_frame, State.modCore_frame] | (intro _ _)
    | with_reducible refine (foldl_proj _ _ ?_ _ _).trans ?_ | with_reducible refine (foldl_fst _ _ ?_ _ _).trans ?_
    | with_reducible refine (foldl_run _ _ ?_ _ _).trans ?_ | split)
@[simp] theorem State.poolTake_frame (s : State) (core : Nat) (i : Nat) (slot : Nat) : (State.poolTake s core i slot).pending =
    s.pending ∧ (State.poolTake s core i slot).draws = s.draws ∧ (State.poolTake s core i slot).aon = s.aon ∧ (State.poolTake s
    core i slot).time = s.time ∧ (State.poolTake s core i slot).persist = s.persist ∧ (State.poolTake s core i slot).flash =
    s.flash ∧ (State.poolTake s core i slot).streams = s.streams ∧ (State.poolTake s core i slot).ctxs = s.ctxs ∧
    (State.poolTake s core i slot).mem = s.mem ∧ (State.poolTake s core i slot).recov = s.recov ∧ (State.poolTake s core i
    slot).clotha = s.clotha ∧ (State.poolTake s core i slot).net = s.net ∧ (State.poolTake s core i slot).links = s.links ∧
    (State.poolTake s core i slot).svc = s.svc := by
  unfold State.poolTake
  refine ⟨?_, ?_, ?_, ?_, ?_, ?_, ?_, ?_, ?_, ?_, ?_, ?_, ?_, ?_⟩ <;> (repeat' first
    | with_reducible rfl | simp only [State.ite_frame, ite_self, State.modCore_frame] | (intro _ _)
    | with_reducible refine (foldl_proj _ _ ?_ _ _).trans ?_ | with_reducible refine (foldl_fst _ _ ?_ _ _).trans ?_
    | with_reducible refine (foldl_run _ _ ?_ _ _).trans ?_ | split)
@[simp] theorem State.progressBy_frame (s : State) (core : Nat) (unit : Nat) (n : Nat) : (State.progressBy s core unit
    n).pending = s.pending ∧ (State.progressBy s core unit n).draws = s.draws ∧ (State.progressBy s core unit n).aon = s.aon ∧
    (State.progressBy s core unit n).time = s.time ∧ (State.progressBy s core unit n).persist = s.persist ∧ (State.progressBy s
    core unit n).flash = s.flash ∧ (State.progressBy s core unit n).streams = s.streams ∧ (State.progressBy s core unit n).ctxs
    = s.ctxs ∧ (State.progressBy s core unit n).mem = s.mem ∧ (State.progressBy s core unit n).recov = s.recov ∧
    (State.progressBy s core unit n).clotha = s.clotha ∧ (State.progressBy s core unit n).net = s.net ∧ (State.progressBy s
    core unit n).links = s.links ∧ (State.progressBy s core unit n).svc = s.svc := by
  unfold State.progressBy
  refine ⟨?_, ?_, ?_, ?_, ?_, ?_, ?_, ?_, ?_, ?_, ?_, ?_, ?_, ?_⟩ <;> (repeat' first
    | with_reducible rfl | simp only [State.ite_frame, ite_self, State.modCore_frame] | (intro _ _)
    | with_reducible refine (foldl_proj _ _ ?_ _ _).trans ?_ | with_reducible refine (foldl_fst _ _ ?_ _ _).trans ?_
    | with_reducible refine (foldl_run _ _ ?_ _ _).trans ?_ | split)
@[simp] theorem State.takeTag_frame (s : State) (core : Nat) (unit : Nat) : (State.takeTag s core unit).1.pending = s.pending ∧
    (State.takeTag s core unit).1.draws = s.draws ∧ (State.takeTag s core unit).1.aon = s.aon ∧ (State.takeTag s core
    unit).1.time = s.time ∧ (State.takeTag s core unit).1.persist = s.persist ∧ (State.takeTag s core unit).1.flash = s.flash ∧
    (State.takeTag s core unit).1.streams = s.streams ∧ (State.takeTag s core unit).1.ctxs = s.ctxs ∧ (State.takeTag s core
    unit).1.mem = s.mem ∧ (State.takeTag s core unit).1.recov = s.recov ∧ (State.takeTag s core unit).1.clotha = s.clotha ∧
    (State.takeTag s core unit).1.net = s.net ∧ (State.takeTag s core unit).1.links = s.links ∧ (State.takeTag s core
    unit).1.svc = s.svc := by
  unfold State.takeTag
  refine ⟨?_, ?_, ?_, ?_, ?_, ?_, ?_, ?_, ?_, ?_, ?_, ?_, ?_, ?_⟩ <;> (repeat' first
    | with_reducible rfl | simp only [State.ite_frame, ite_self, State.modCore_frame] | (intro _ _)
    | with_reducible refine (foldl_proj _ _ ?_ _ _).trans ?_ | with_reducible refine (foldl_fst _ _ ?_ _ _).trans ?_
    | with_reducible refine (foldl_run _ _ ?_ _ _).trans ?_ | split)
@[simp] theorem State.freeTags_frame (s : State) (core : Nat) (n : Nat) : (State.freeTags s core n).pending = s.pending ∧
    (State.freeTags s core n).draws = s.draws ∧ (State.freeTags s core n).aon = s.aon ∧ (State.freeTags s core n).time = s.time
    ∧ (State.freeTags s core n).persist = s.persist ∧ (State.freeTags s core n).flash = s.flash ∧ (State.freeTags s core
    n).streams = s.streams ∧ (State.freeTags s core n).ctxs = s.ctxs ∧ (State.freeTags s core n).mem = s.mem ∧ (State.freeTags
    s core n).recov = s.recov ∧ (State.freeTags s core n).clotha = s.clotha ∧ (State.freeTags s core n).net = s.net ∧
    (State.freeTags s core n).links = s.links ∧ (State.freeTags s core n).svc = s.svc := by
  unfold State.freeTags
  refine ⟨?_, ?_, ?_, ?_, ?_, ?_, ?_, ?_, ?_, ?_, ?_, ?_, ?_, ?_⟩ <;> (repeat' first
    | with_reducible rfl | simp only [State.ite_frame, ite_self, State.modCore_frame] | (intro _ _)
    | with_reducible refine (foldl_proj _ _ ?_ _ _).trans ?_ | with_reducible refine (foldl_fst _ _ ?_ _ _).trans ?_
    | with_reducible refine (foldl_run _ _ ?_ _ _).trans ?_ | split)
@[simp] theorem State.writeRecord_frame (s : State) (ctxId : Nat) (r : Completion) : (State.writeRecord s ctxId r).pending =
    s.pending ∧ (State.writeRecord s ctxId r).draws = s.draws ∧ (State.writeRecord s ctxId r).aon = s.aon ∧ (State.writeRecord
    s ctxId r).time = s.time ∧ (State.writeRecord s ctxId r).persist = s.persist ∧ (State.writeRecord s ctxId r).flash =
    s.flash ∧ (State.writeRecord s ctxId r).streams = s.streams ∧ (State.writeRecord s ctxId r).cores = s.cores ∧
    (State.writeRecord s ctxId r).recov = s.recov ∧ (State.writeRecord s ctxId r).clotha = s.clotha ∧ (State.writeRecord s
    ctxId r).net = s.net ∧ (State.writeRecord s ctxId r).links = s.links ∧ (State.writeRecord s ctxId r).svc = s.svc := by
  unfold State.writeRecord
  refine ⟨?_, ?_, ?_, ?_, ?_, ?_, ?_, ?_, ?_, ?_, ?_, ?_, ?_⟩ <;> (repeat' first
    | with_reducible rfl | simp only [State.ite_frame, ite_self, State.modCtx_frame, State.hbmWrite_frame] | (intro _ _)
    | with_reducible refine (foldl_proj _ _ ?_ _ _).trans ?_ | with_reducible refine (foldl_fst _ _ ?_ _ _).trans ?_
    | with_reducible refine (foldl_run _ _ ?_ _ _).trans ?_ | split)
@[simp] theorem State.semSend_frame (s : State) (core : Nat) (idx : Nat) (op : SemOp) : (State.semSend s core idx op).pending =
    s.pending ∧ (State.semSend s core idx op).draws = s.draws ∧ (State.semSend s core idx op).aon = s.aon ∧ (State.semSend s
    core idx op).time = s.time ∧ (State.semSend s core idx op).persist = s.persist ∧ (State.semSend s core idx op).flash =
    s.flash ∧ (State.semSend s core idx op).streams = s.streams ∧ (State.semSend s core idx op).ctxs = s.ctxs ∧ (State.semSend
    s core idx op).mem = s.mem ∧ (State.semSend s core idx op).recov = s.recov ∧ (State.semSend s core idx op).clotha =
    s.clotha ∧ (State.semSend s core idx op).net = s.net ∧ (State.semSend s core idx op).links = s.links ∧ (State.semSend s
    core idx op).svc = s.svc := by
  unfold State.semSend
  refine ⟨?_, ?_, ?_, ?_, ?_, ?_, ?_, ?_, ?_, ?_, ?_, ?_, ?_, ?_⟩ <;> (repeat' first
    | with_reducible rfl | simp only [State.ite_frame, ite_self, State.modCore_frame] | (intro _ _)
    | with_reducible refine (foldl_proj _ _ ?_ _ _).trans ?_ | with_reducible refine (foldl_fst _ _ ?_ _ _).trans ?_
    | with_reducible refine (foldl_run _ _ ?_ _ _).trans ?_ | split)
@[simp] theorem State.semSignal_frame (s : State) (ctxId : Nat) (part : Nat) (x : Nat) : (State.semSignal s ctxId part
    x).pending = s.pending ∧ (State.semSignal s ctxId part x).draws = s.draws ∧ (State.semSignal s ctxId part x).aon = s.aon ∧
    (State.semSignal s ctxId part x).time = s.time ∧ (State.semSignal s ctxId part x).persist = s.persist ∧ (State.semSignal s
    ctxId part x).flash = s.flash ∧ (State.semSignal s ctxId part x).streams = s.streams ∧ (State.semSignal s ctxId part
    x).ctxs = s.ctxs ∧ (State.semSignal s ctxId part x).mem = s.mem ∧ (State.semSignal s ctxId part x).recov = s.recov ∧
    (State.semSignal s ctxId part x).clotha = s.clotha ∧ (State.semSignal s ctxId part x).net = s.net ∧ (State.semSignal s
    ctxId part x).links = s.links ∧ (State.semSignal s ctxId part x).svc = s.svc := by
  unfold State.semSignal
  refine ⟨?_, ?_, ?_, ?_, ?_, ?_, ?_, ?_, ?_, ?_, ?_, ?_, ?_, ?_⟩ <;> (repeat' first
    | with_reducible rfl | simp only [State.ite_frame, ite_self, State.semSend_frame] | (intro _ _)
    | with_reducible refine (foldl_proj _ _ ?_ _ _).trans ?_ | with_reducible refine (foldl_fst _ _ ?_ _ _).trans ?_
    | with_reducible refine (foldl_run _ _ ?_ _ _).trans ?_ | split)
@[simp] theorem State.semsetSignal_frame (s : State) (ctxId : Nat) (i : Nat) : (State.semsetSignal s ctxId i).pending =
    s.pending ∧ (State.semsetSignal s ctxId i).draws = s.draws ∧ (State.semsetSignal s ctxId i).aon = s.aon ∧
    (State.semsetSignal s ctxId i).time = s.time ∧ (State.semsetSignal s ctxId i).persist = s.persist ∧ (State.semsetSignal s
    ctxId i).flash = s.flash ∧ (State.semsetSignal s ctxId i).streams = s.streams ∧ (State.semsetSignal s ctxId i).ctxs =
    s.ctxs ∧ (State.semsetSignal s ctxId i).mem = s.mem ∧ (State.semsetSignal s ctxId i).recov = s.recov ∧ (State.semsetSignal
    s ctxId i).clotha = s.clotha ∧ (State.semsetSignal s ctxId i).net = s.net ∧ (State.semsetSignal s ctxId i).links = s.links
    ∧ (State.semsetSignal s ctxId i).svc = s.svc := by
  unfold State.semsetSignal
  refine ⟨?_, ?_, ?_, ?_, ?_, ?_, ?_, ?_, ?_, ?_, ?_, ?_, ?_, ?_⟩ <;> (repeat' first
    | with_reducible rfl | simp only [State.ite_frame, ite_self, State.semSignal_frame] | (intro _ _)
    | with_reducible refine (foldl_proj _ _ ?_ _ _).trans ?_ | with_reducible refine (foldl_fst _ _ ?_ _ _).trans ?_
    | with_reducible refine (foldl_run _ _ ?_ _ _).trans ?_ | split)
@[simp] theorem State.semWaitSend_frame (s : State) (ctxId : Nat) (ct : Ctx) (x : Nat) : (State.semWaitSend s ctxId ct
    x).pending = s.pending ∧ (State.semWaitSend s ctxId ct x).draws = s.draws ∧ (State.semWaitSend s ctxId ct x).aon = s.aon ∧
    (State.semWaitSend s ctxId ct x).time = s.time ∧ (State.semWaitSend s ctxId ct x).persist = s.persist ∧ (State.semWaitSend
    s ctxId ct x).flash = s.flash ∧ (State.semWaitSend s ctxId ct x).streams = s.streams ∧ (State.semWaitSend s ctxId ct x).mem
    = s.mem ∧ (State.semWaitSend s ctxId ct x).recov = s.recov ∧ (State.semWaitSend s ctxId ct x).clotha = s.clotha ∧
    (State.semWaitSend s ctxId ct x).net = s.net ∧ (State.semWaitSend s ctxId ct x).links = s.links ∧ (State.semWaitSend s
    ctxId ct x).svc = s.svc := by
  unfold State.semWaitSend
  refine ⟨?_, ?_, ?_, ?_, ?_, ?_, ?_, ?_, ?_, ?_, ?_, ?_, ?_⟩ <;> (repeat' first
    | with_reducible rfl | simp only [State.ite_frame, ite_self, State.modCore_frame, State.modCtx_frame] | (intro _ _)
    | with_reducible refine (foldl_proj _ _ ?_ _ _).trans ?_ | with_reducible refine (foldl_fst _ _ ?_ _ _).trans ?_
    | with_reducible refine (foldl_run _ _ ?_ _ _).trans ?_ | split)
@[simp] theorem State.dropWaits_frame (s : State) (ctxId : Nat) : (State.dropWaits s ctxId).pending = s.pending ∧
    (State.dropWaits s ctxId).draws = s.draws ∧ (State.dropWaits s ctxId).aon = s.aon ∧ (State.dropWaits s ctxId).time = s.time
    ∧ (State.dropWaits s ctxId).persist = s.persist ∧ (State.dropWaits s ctxId).flash = s.flash ∧ (State.dropWaits s
    ctxId).streams = s.streams ∧ (State.dropWaits s ctxId).mem = s.mem ∧ (State.dropWaits s ctxId).recov = s.recov ∧
    (State.dropWaits s ctxId).clotha = s.clotha ∧ (State.dropWaits s ctxId).net = s.net ∧ (State.dropWaits s ctxId).links =
    s.links ∧ (State.dropWaits s ctxId).svc = s.svc := by
  unfold State.dropWaits
  refine ⟨?_, ?_, ?_, ?_, ?_, ?_, ?_, ?_, ?_, ?_, ?_, ?_, ?_⟩ <;> (repeat' first
    | with_reducible rfl | simp only [State.ite_frame, ite_self, State.modCtx_frame, State.modCores_frame] | (intro _ _)
    | with_reducible refine (foldl_proj _ _ ?_ _ _).trans ?_ | with_reducible refine (foldl_fst _ _ ?_ _ _).trans ?_
    | with_reducible refine (foldl_run _ _ ?_ _ _).trans ?_ | split)
@[simp] theorem State.modCmd_frame (s : State) (core : Nat) (ctxId : Nat) (seq : Nat) (f : Cmd → Cmd) : (State.modCmd s core
    ctxId seq f).pending = s.pending ∧ (State.modCmd s core ctxId seq f).draws = s.draws ∧ (State.modCmd s core ctxId seq
    f).aon = s.aon ∧ (State.modCmd s core ctxId seq f).time = s.time ∧ (State.modCmd s core ctxId seq f).persist = s.persist ∧
    (State.modCmd s core ctxId seq f).flash = s.flash ∧ (State.modCmd s core ctxId seq f).streams = s.streams ∧ (State.modCmd s
    core ctxId seq f).ctxs = s.ctxs ∧ (State.modCmd s core ctxId seq f).mem = s.mem ∧ (State.modCmd s core ctxId seq f).recov =
    s.recov ∧ (State.modCmd s core ctxId seq f).clotha = s.clotha ∧ (State.modCmd s core ctxId seq f).net = s.net ∧
    (State.modCmd s core ctxId seq f).links = s.links ∧ (State.modCmd s core ctxId seq f).svc = s.svc := by
  unfold State.modCmd
  refine ⟨?_, ?_, ?_, ?_, ?_, ?_, ?_, ?_, ?_, ?_, ?_, ?_, ?_, ?_⟩ <;> (repeat' first
    | with_reducible rfl | simp only [State.ite_frame, ite_self, State.modCore_frame] | (intro _ _)
    | with_reducible refine (foldl_proj _ _ ?_ _ _).trans ?_ | with_reducible refine (foldl_fst _ _ ?_ _ _).trans ?_
    | with_reducible refine (foldl_run _ _ ?_ _ _).trans ?_ | split)
@[simp] theorem State.modCmdOf_frame (s : State) (w : WorkItem) (f : Cmd → Cmd) : (State.modCmdOf s w f).pending = s.pending ∧
    (State.modCmdOf s w f).draws = s.draws ∧ (State.modCmdOf s w f).aon = s.aon ∧ (State.modCmdOf s w f).time = s.time ∧
    (State.modCmdOf s w f).persist = s.persist ∧ (State.modCmdOf s w f).flash = s.flash ∧ (State.modCmdOf s w f).streams =
    s.streams ∧ (State.modCmdOf s w f).ctxs = s.ctxs ∧ (State.modCmdOf s w f).mem = s.mem ∧ (State.modCmdOf s w f).recov =
    s.recov ∧ (State.modCmdOf s w f).clotha = s.clotha ∧ (State.modCmdOf s w f).net = s.net ∧ (State.modCmdOf s w f).links =
    s.links ∧ (State.modCmdOf s w f).svc = s.svc := by
  unfold State.modCmdOf
  refine ⟨?_, ?_, ?_, ?_, ?_, ?_, ?_, ?_, ?_, ?_, ?_, ?_, ?_, ?_⟩ <;> (repeat' first
    | with_reducible rfl | simp only [State.ite_frame, ite_self, State.modCmd_frame] | (intro _ _)
    | with_reducible refine (foldl_proj _ _ ?_ _ _).trans ?_ | with_reducible refine (foldl_fst _ _ ?_ _ _).trans ?_
    | with_reducible refine (foldl_run _ _ ?_ _ _).trans ?_ | split)
@[simp] theorem State.regWait_frame (s : State) (ctxId : Nat) : (State.regWait s ctxId).pending = s.pending ∧ (State.regWait s
    ctxId).draws = s.draws ∧ (State.regWait s ctxId).aon = s.aon ∧ (State.regWait s ctxId).time = s.time ∧ (State.regWait s
    ctxId).persist = s.persist ∧ (State.regWait s ctxId).flash = s.flash ∧ (State.regWait s ctxId).streams = s.streams ∧
    (State.regWait s ctxId).mem = s.mem ∧ (State.regWait s ctxId).recov = s.recov ∧ (State.regWait s ctxId).clotha = s.clotha ∧
    (State.regWait s ctxId).net = s.net ∧ (State.regWait s ctxId).links = s.links ∧ (State.regWait s ctxId).svc = s.svc := by
  unfold State.regWait
  refine ⟨?_, ?_, ?_, ?_, ?_, ?_, ?_, ?_, ?_, ?_, ?_, ?_, ?_⟩ <;> (repeat' first
    | with_reducible rfl | simp only [State.ite_frame, ite_self, State.semWaitSend_frame] | (intro _ _)
    | with_reducible refine (foldl_proj _ _ ?_ _ _).trans ?_ | with_reducible refine (foldl_fst _ _ ?_ _ _).trans ?_
    | with_reducible refine (foldl_run _ _ ?_ _ _).trans ?_ | split)
@[simp] theorem State.raiseVtime_frame (s0 : State) (s : State) (core : Nat) : (State.raiseVtime s0 s core).pending = s.pending
    ∧ (State.raiseVtime s0 s core).draws = s.draws ∧ (State.raiseVtime s0 s core).aon = s.aon ∧ (State.raiseVtime s0 s
    core).time = s.time ∧ (State.raiseVtime s0 s core).persist = s.persist ∧ (State.raiseVtime s0 s core).flash = s.flash ∧
    (State.raiseVtime s0 s core).streams = s.streams ∧ (State.raiseVtime s0 s core).ctxs = s.ctxs ∧ (State.raiseVtime s0 s
    core).mem = s.mem ∧ (State.raiseVtime s0 s core).recov = s.recov ∧ (State.raiseVtime s0 s core).clotha = s.clotha ∧
    (State.raiseVtime s0 s core).net = s.net ∧ (State.raiseVtime s0 s core).links = s.links ∧ (State.raiseVtime s0 s core).svc
    = s.svc := by
  unfold State.raiseVtime
  refine ⟨?_, ?_, ?_, ?_, ?_, ?_, ?_, ?_, ?_, ?_, ?_, ?_, ?_, ?_⟩ <;> (repeat' first
    | with_reducible rfl | simp only [State.ite_frame, ite_self, State.modCore_frame] | (intro _ _)
    | with_reducible refine (foldl_proj _ _ ?_ _ _).trans ?_ | with_reducible refine (foldl_fst _ _ ?_ _ _).trans ?_
    | with_reducible refine (foldl_run _ _ ?_ _ _).trans ?_ | split)
@[simp] theorem State.drone_frame (s : State) (core : Nat) : (State.drone s core).pending = s.pending ∧ (State.drone s
    core).draws = s.draws ∧ (State.drone s core).aon = s.aon ∧ (State.drone s core).time = s.time ∧ (State.drone s
    core).persist = s.persist ∧ (State.drone s core).flash = s.flash ∧ (State.drone s core).streams = s.streams ∧ (State.drone
    s core).ctxs = s.ctxs ∧ (State.drone s core).mem = s.mem ∧ (State.drone s core).recov = s.recov ∧ (State.drone s
    core).clotha = s.clotha ∧ (State.drone s core).net = s.net ∧ (State.drone s core).links = s.links ∧ (State.drone s
    core).svc = s.svc := by
  unfold State.drone
  refine ⟨?_, ?_, ?_, ?_, ?_, ?_, ?_, ?_, ?_, ?_, ?_, ?_, ?_, ?_⟩ <;> (repeat' first
    | with_reducible rfl | simp only [State.ite_frame, ite_self, State.modCore_frame] | (intro _ _)
    | with_reducible refine (foldl_proj _ _ ?_ _ _).trans ?_ | with_reducible refine (foldl_fst _ _ ?_ _ _).trans ?_
    | with_reducible refine (foldl_run _ _ ?_ _ _).trans ?_ | split)
@[simp] theorem State.noteReady_frame (s : State) (s0 : State) (core : Nat) : (State.noteReady s s0 core).pending = s.pending ∧
    (State.noteReady s s0 core).draws = s.draws ∧ (State.noteReady s s0 core).aon = s.aon ∧ (State.noteReady s s0 core).time =
    s.time ∧ (State.noteReady s s0 core).persist = s.persist ∧ (State.noteReady s s0 core).flash = s.flash ∧ (State.noteReady s
    s0 core).streams = s.streams ∧ (State.noteReady s s0 core).cores = s.cores ∧ (State.noteReady s s0 core).mem = s.mem ∧
    (State.noteReady s s0 core).recov = s.recov ∧ (State.noteReady s s0 core).clotha = s.clotha ∧ (State.noteReady s s0
    core).net = s.net ∧ (State.noteReady s s0 core).links = s.links ∧ (State.noteReady s s0 core).svc = s.svc := by
  unfold State.noteReady
  refine ⟨?_, ?_, ?_, ?_, ?_, ?_, ?_, ?_, ?_, ?_, ?_, ?_, ?_, ?_⟩ <;> (repeat' first
    | with_reducible rfl | simp only [State.ite_frame, ite_self, State.modCtx_frame] | (intro _ _)
    | with_reducible refine (foldl_proj _ _ ?_ _ _).trans ?_ | with_reducible refine (foldl_fst _ _ ?_ _ _).trans ?_
    | with_reducible refine (foldl_run _ _ ?_ _ _).trans ?_ | split)
@[simp] theorem State.noteBlocked_frame (s : State) (s0 : State) (core : Nat) : (State.noteBlocked s s0 core).pending =
    s.pending ∧ (State.noteBlocked s s0 core).draws = s.draws ∧ (State.noteBlocked s s0 core).aon = s.aon ∧ (State.noteBlocked
    s s0 core).time = s.time ∧ (State.noteBlocked s s0 core).persist = s.persist ∧ (State.noteBlocked s s0 core).flash =
    s.flash ∧ (State.noteBlocked s s0 core).streams = s.streams ∧ (State.noteBlocked s s0 core).cores = s.cores ∧
    (State.noteBlocked s s0 core).mem = s.mem ∧ (State.noteBlocked s s0 core).recov = s.recov ∧ (State.noteBlocked s s0
    core).clotha = s.clotha ∧ (State.noteBlocked s s0 core).net = s.net ∧ (State.noteBlocked s s0 core).links = s.links ∧
    (State.noteBlocked s s0 core).svc = s.svc := by
  unfold State.noteBlocked
  refine ⟨?_, ?_, ?_, ?_, ?_, ?_, ?_, ?_, ?_, ?_, ?_, ?_, ?_, ?_⟩ <;> (repeat' first
    | with_reducible rfl | simp only [State.ite_frame, ite_self, State.modCtx_frame] | (intro _ _)
    | with_reducible refine (foldl_proj _ _ ?_ _ _).trans ?_ | with_reducible refine (foldl_fst _ _ ?_ _ _).trans ?_
    | with_reducible refine (foldl_run _ _ ?_ _ _).trans ?_ | split)
@[simp] theorem State.settle_frame (s0 : State) (s : State) (core : Nat) : (State.settle s0 s core).pending = s.pending ∧
    (State.settle s0 s core).draws = s.draws ∧ (State.settle s0 s core).aon = s.aon ∧ (State.settle s0 s core).time = s.time ∧
    (State.settle s0 s core).persist = s.persist ∧ (State.settle s0 s core).flash = s.flash ∧ (State.settle s0 s core).streams
    = s.streams ∧ (State.settle s0 s core).mem = s.mem ∧ (State.settle s0 s core).recov = s.recov ∧ (State.settle s0 s
    core).clotha = s.clotha ∧ (State.settle s0 s core).net = s.net ∧ (State.settle s0 s core).links = s.links ∧ (State.settle
    s0 s core).svc = s.svc := by
  unfold State.settle
  refine ⟨?_, ?_, ?_, ?_, ?_, ?_, ?_, ?_, ?_, ?_, ?_, ?_, ?_⟩ <;> (repeat' first
    | with_reducible rfl
    | simp only [State.ite_frame, ite_self, State.regWait_frame, State.drone_frame, State.raiseVtime_frame,
      State.noteBlocked_frame, State.noteReady_frame] | (intro _ _)
    | with_reducible refine (foldl_proj _ _ ?_ _ _).trans ?_ | with_reducible refine (foldl_fst _ _ ?_ _ _).trans ?_
    | with_reducible refine (foldl_run _ _ ?_ _ _).trans ?_ | split)
@[simp] theorem State.updateSlot_frame (s : State) (addr : Nat) (scale : Word16) (constant : Bool) (a : Frac) :
    (State.updateSlot s addr scale constant a).pending = s.pending ∧ (State.updateSlot s addr scale constant a).draws = s.draws
    ∧ (State.updateSlot s addr scale constant a).aon = s.aon ∧ (State.updateSlot s addr scale constant a).time = s.time ∧
    (State.updateSlot s addr scale constant a).persist = s.persist ∧ (State.updateSlot s addr scale constant a).flash = s.flash
    ∧ (State.updateSlot s addr scale constant a).streams = s.streams ∧ (State.updateSlot s addr scale constant a).cores =
    s.cores ∧ (State.updateSlot s addr scale constant a).ctxs = s.ctxs ∧ (State.updateSlot s addr scale constant a).recov =
    s.recov ∧ (State.updateSlot s addr scale constant a).clotha = s.clotha ∧ (State.updateSlot s addr scale constant a).net =
    s.net ∧ (State.updateSlot s addr scale constant a).links = s.links ∧ (State.updateSlot s addr scale constant a).svc = s.svc
    := by
  unfold State.updateSlot
  refine ⟨?_, ?_, ?_, ?_, ?_, ?_, ?_, ?_, ?_, ?_, ?_, ?_, ?_, ?_⟩ <;> (repeat' first
    | with_reducible rfl | simp only [State.ite_frame, ite_self, State.hbmWrite_frame] | (intro _ _)
    | with_reducible refine (foldl_proj _ _ ?_ _ _).trans ?_ | with_reducible refine (foldl_fst _ _ ?_ _ _).trans ?_
    | with_reducible refine (foldl_run _ _ ?_ _ _).trans ?_ | split)
@[simp] theorem State.bumpSafeguard_frame (s : State) (part : Nat) (i : Nat) : (State.bumpSafeguard s part i).pending =
    s.pending ∧ (State.bumpSafeguard s part i).draws = s.draws ∧ (State.bumpSafeguard s part i).aon = s.aon ∧
    (State.bumpSafeguard s part i).time = s.time ∧ (State.bumpSafeguard s part i).persist = s.persist ∧ (State.bumpSafeguard s
    part i).flash = s.flash ∧ (State.bumpSafeguard s part i).streams = s.streams ∧ (State.bumpSafeguard s part i).cores =
    s.cores ∧ (State.bumpSafeguard s part i).ctxs = s.ctxs ∧ (State.bumpSafeguard s part i).mem = s.mem ∧ (State.bumpSafeguard
    s part i).recov = s.recov ∧ (State.bumpSafeguard s part i).clotha = s.clotha ∧ (State.bumpSafeguard s part i).net = s.net ∧
    (State.bumpSafeguard s part i).links = s.links := by
  unfold State.bumpSafeguard
  refine ⟨?_, ?_, ?_, ?_, ?_, ?_, ?_, ?_, ?_, ?_, ?_, ?_, ?_, ?_⟩ <;> (repeat' first
    | with_reducible rfl | simp only [State.ite_frame, ite_self] | (intro _ _)
    | with_reducible refine (foldl_proj _ _ ?_ _ _).trans ?_ | with_reducible refine (foldl_fst _ _ ?_ _ _).trans ?_
    | with_reducible refine (foldl_run _ _ ?_ _ _).trans ?_ | split)
@[simp] theorem State.latchStage_frame (s : State) (ct : Ctx) (c : Cmd) (st : Nat) : (State.latchStage s ct c st).1.pending =
    s.pending ∧ (State.latchStage s ct c st).1.draws = s.draws ∧ (State.latchStage s ct c st).1.aon = s.aon ∧ (State.latchStage
    s ct c st).1.time = s.time ∧ (State.latchStage s ct c st).1.persist = s.persist ∧ (State.latchStage s ct c st).1.flash =
    s.flash ∧ (State.latchStage s ct c st).1.streams = s.streams ∧ (State.latchStage s ct c st).1.ctxs = s.ctxs ∧
    (State.latchStage s ct c st).1.mem = s.mem ∧ (State.latchStage s ct c st).1.recov = s.recov ∧ (State.latchStage s ct c
    st).1.clotha = s.clotha ∧ (State.latchStage s ct c st).1.net = s.net ∧ (State.latchStage s ct c st).1.links = s.links := by
  unfold State.latchStage
  refine ⟨?_, ?_, ?_, ?_, ?_, ?_, ?_, ?_, ?_, ?_, ?_, ?_, ?_⟩ <;> (repeat' first
    | with_reducible rfl | simp only [State.ite_frame, ite_self, State.bumpSafeguard_frame, State.modCore_frame]
    | (intro _ _) | with_reducible refine (foldl_proj _ _ ?_ _ _).trans ?_
    | with_reducible refine (foldl_fst _ _ ?_ _ _).trans ?_ | with_reducible refine (foldl_run _ _ ?_ _ _).trans ?_ | split)
@[simp] theorem State.latchAll_frame (s : State) (ct : Ctx) (c : Cmd) : (State.latchAll s ct c).1.pending = s.pending ∧
    (State.latchAll s ct c).1.draws = s.draws ∧ (State.latchAll s ct c).1.aon = s.aon ∧ (State.latchAll s ct c).1.time = s.time
    ∧ (State.latchAll s ct c).1.persist = s.persist ∧ (State.latchAll s ct c).1.flash = s.flash ∧ (State.latchAll s ct
    c).1.streams = s.streams ∧ (State.latchAll s ct c).1.ctxs = s.ctxs ∧ (State.latchAll s ct c).1.mem = s.mem ∧
    (State.latchAll s ct c).1.recov = s.recov ∧ (State.latchAll s ct c).1.clotha = s.clotha ∧ (State.latchAll s ct c).1.net =
    s.net ∧ (State.latchAll s ct c).1.links = s.links := by
  unfold State.latchAll
  refine ⟨?_, ?_, ?_, ?_, ?_, ?_, ?_, ?_, ?_, ?_, ?_, ?_, ?_⟩ <;> (repeat' first
    | with_reducible rfl | simp only [State.ite_frame, ite_self, State.latchStage_frame] | (intro _ _)
    | with_reducible refine (foldl_proj _ _ ?_ _ _).trans ?_ | with_reducible refine (foldl_fst _ _ ?_ _ _).trans ?_
    | with_reducible refine (foldl_run _ _ ?_ _ _).trans ?_ | split)
@[simp] theorem State.modChunk_frame (s : State) (stream : Nat) (i : Nat) (f : Chunk → Chunk) : (State.modChunk s stream i
    f).pending = s.pending ∧ (State.modChunk s stream i f).draws = s.draws ∧ (State.modChunk s stream i f).aon = s.aon ∧
    (State.modChunk s stream i f).time = s.time ∧ (State.modChunk s stream i f).persist = s.persist ∧ (State.modChunk s stream
    i f).flash = s.flash ∧ (State.modChunk s stream i f).cores = s.cores ∧ (State.modChunk s stream i f).ctxs = s.ctxs ∧
    (State.modChunk s stream i f).mem = s.mem ∧ (State.modChunk s stream i f).recov = s.recov ∧ (State.modChunk s stream i
    f).clotha = s.clotha ∧ (State.modChunk s stream i f).net = s.net ∧ (State.modChunk s stream i f).links = s.links ∧
    (State.modChunk s stream i f).svc = s.svc := by
  unfold State.modChunk
  refine ⟨?_, ?_, ?_, ?_, ?_, ?_, ?_, ?_, ?_, ?_, ?_, ?_, ?_, ?_⟩ <;> (repeat' first
    | with_reducible rfl | simp only [State.ite_frame, ite_self, State.modStream_frame] | (intro _ _)
    | with_reducible refine (foldl_proj _ _ ?_ _ _).trans ?_ | with_reducible refine (foldl_fst _ _ ?_ _ _).trans ?_
    | with_reducible refine (foldl_run _ _ ?_ _ _).trans ?_ | split)
@[simp] theorem State.enqueueStep_frame (s : State) (core : Nat) (r : ReadyStep) : (State.enqueueStep s core r).pending =
    s.pending ∧ (State.enqueueStep s core r).draws = s.draws ∧ (State.enqueueStep s core r).aon = s.aon ∧ (State.enqueueStep s
    core r).time = s.time ∧ (State.enqueueStep s core r).persist = s.persist ∧ (State.enqueueStep s core r).flash = s.flash ∧
    (State.enqueueStep s core r).streams = s.streams ∧ (State.enqueueStep s core r).ctxs = s.ctxs ∧ (State.enqueueStep s core
    r).mem = s.mem ∧ (State.enqueueStep s core r).recov = s.recov ∧ (State.enqueueStep s core r).clotha = s.clotha ∧
    (State.enqueueStep s core r).net = s.net ∧ (State.enqueueStep s core r).links = s.links ∧ (State.enqueueStep s core r).svc
    = s.svc := by
  unfold State.enqueueStep
  refine ⟨?_, ?_, ?_, ?_, ?_, ?_, ?_, ?_, ?_, ?_, ?_, ?_, ?_, ?_⟩ <;> (repeat' first
    | with_reducible rfl | simp only [State.ite_frame, ite_self, State.modCore_frame] | (intro _ _)
    | with_reducible refine (foldl_proj _ _ ?_ _ _).trans ?_ | with_reducible refine (foldl_fst _ _ ?_ _ _).trans ?_
    | with_reducible refine (foldl_run _ _ ?_ _ _).trans ?_ | split)
@[simp] theorem State.returnSteps_frame (s : State) (core : Nat) (l : List ReadyStep) : (State.returnSteps s core l).pending =
    s.pending ∧ (State.returnSteps s core l).draws = s.draws ∧ (State.returnSteps s core l).aon = s.aon ∧ (State.returnSteps s
    core l).time = s.time ∧ (State.returnSteps s core l).persist = s.persist ∧ (State.returnSteps s core l).flash = s.flash ∧
    (State.returnSteps s core l).ctxs = s.ctxs ∧ (State.returnSteps s core l).mem = s.mem ∧ (State.returnSteps s core l).recov
    = s.recov ∧ (State.returnSteps s core l).clotha = s.clotha ∧ (State.returnSteps s core l).net = s.net ∧ (State.returnSteps
    s core l).links = s.links ∧ (State.returnSteps s core l).svc = s.svc := by
  unfold State.returnSteps
  refine ⟨?_, ?_, ?_, ?_, ?_, ?_, ?_, ?_, ?_, ?_, ?_, ?_, ?_⟩ <;> (repeat' first
    | with_reducible rfl | simp only [State.ite_frame, ite_self, State.modCore_frame, State.modChunk_frame] | (intro _ _)
    | with_reducible refine (foldl_proj _ _ ?_ _ _).trans ?_ | with_reducible refine (foldl_fst _ _ ?_ _ _).trans ?_
    | with_reducible refine (foldl_run _ _ ?_ _ _).trans ?_ | split)
@[simp] theorem State.modJob_frame (s : State) (id : Nat) (f : Job → Job) : (State.modJob s id f).pending = s.pending ∧
    (State.modJob s id f).draws = s.draws ∧ (State.modJob s id f).aon = s.aon ∧ (State.modJob s id f).time = s.time ∧
    (State.modJob s id f).persist = s.persist ∧ (State.modJob s id f).flash = s.flash ∧ (State.modJob s id f).streams =
    s.streams ∧ (State.modJob s id f).cores = s.cores ∧ (State.modJob s id f).ctxs = s.ctxs ∧ (State.modJob s id f).mem = s.mem
    ∧ (State.modJob s id f).recov = s.recov ∧ (State.modJob s id f).clotha = s.clotha ∧ (State.modJob s id f).net = s.net ∧
    (State.modJob s id f).links = s.links := by
  unfold State.modJob
  refine ⟨?_, ?_, ?_, ?_, ?_, ?_, ?_, ?_, ?_, ?_, ?_, ?_, ?_, ?_⟩ <;> (repeat' first
    | with_reducible rfl | simp only [State.ite_frame, ite_self] | (intro _ _)
    | with_reducible refine (foldl_proj _ _ ?_ _ _).trans ?_ | with_reducible refine (foldl_fst _ _ ?_ _ _).trans ?_
    | with_reducible refine (foldl_run _ _ ?_ _ _).trans ?_ | split)
@[simp] theorem State.endJob_frame (s : State) (id : Nat) (state : Nat) (code : Word16) : (State.endJob s id state
    code).pending = s.pending ∧ (State.endJob s id state code).draws = s.draws ∧ (State.endJob s id state code).aon = s.aon ∧
    (State.endJob s id state code).time = s.time ∧ (State.endJob s id state code).persist = s.persist ∧ (State.endJob s id
    state code).flash = s.flash ∧ (State.endJob s id state code).streams = s.streams ∧ (State.endJob s id state code).cores =
    s.cores ∧ (State.endJob s id state code).ctxs = s.ctxs ∧ (State.endJob s id state code).mem = s.mem ∧ (State.endJob s id
    state code).clotha = s.clotha ∧ (State.endJob s id state code).net = s.net ∧ (State.endJob s id state code).links = s.links
    := by
  unfold State.endJob
  refine ⟨?_, ?_, ?_, ?_, ?_, ?_, ?_, ?_, ?_, ?_, ?_, ?_, ?_⟩ <;> (repeat' first
    | with_reducible rfl | simp only [State.ite_frame, ite_self, State.logFw_frame, State.modJob_frame] | (intro _ _)
    | with_reducible refine (foldl_proj _ _ ?_ _ _).trans ?_ | with_reducible refine (foldl_fst _ _ ?_ _ _).trans ?_
    | with_reducible refine (foldl_run _ _ ?_ _ _).trans ?_ | split)
@[simp] theorem State.queueJob_frame (s : State) (id : Nat) (j : Job) : (State.queueJob s id j).pending = s.pending ∧
    (State.queueJob s id j).draws = s.draws ∧ (State.queueJob s id j).aon = s.aon ∧ (State.queueJob s id j).time = s.time ∧
    (State.queueJob s id j).persist = s.persist ∧ (State.queueJob s id j).flash = s.flash ∧ (State.queueJob s id j).streams =
    s.streams ∧ (State.queueJob s id j).ctxs = s.ctxs ∧ (State.queueJob s id j).mem = s.mem ∧ (State.queueJob s id j).recov =
    s.recov ∧ (State.queueJob s id j).clotha = s.clotha ∧ (State.queueJob s id j).net = s.net ∧ (State.queueJob s id j).links =
    s.links ∧ (State.queueJob s id j).svc = s.svc := by
  unfold State.queueJob
  refine ⟨?_, ?_, ?_, ?_, ?_, ?_, ?_, ?_, ?_, ?_, ?_, ?_, ?_, ?_⟩ <;> (repeat' first
    | with_reducible rfl | simp only [State.ite_frame, ite_self, State.enqueueStep_frame] | (intro _ _)
    | with_reducible refine (foldl_proj _ _ ?_ _ _).trans ?_ | with_reducible refine (foldl_fst _ _ ?_ _ _).trans ?_
    | with_reducible refine (foldl_run _ _ ?_ _ _).trans ?_ | split)
@[simp] theorem State.jobStepDone_frame (s : State) (id : Nat) : (State.jobStepDone s id).pending = s.pending ∧
    (State.jobStepDone s id).draws = s.draws ∧ (State.jobStepDone s id).aon = s.aon ∧ (State.jobStepDone s id).time = s.time ∧
    (State.jobStepDone s id).persist = s.persist ∧ (State.jobStepDone s id).flash = s.flash ∧ (State.jobStepDone s id).streams
    = s.streams ∧ (State.jobStepDone s id).ctxs = s.ctxs ∧ (State.jobStepDone s id).mem = s.mem ∧ (State.jobStepDone s
    id).clotha = s.clotha ∧ (State.jobStepDone s id).net = s.net ∧ (State.jobStepDone s id).links = s.links := by
  unfold State.jobStepDone
  refine ⟨?_, ?_, ?_, ?_, ?_, ?_, ?_, ?_, ?_, ?_, ?_, ?_⟩ <;> (repeat' first
    | with_reducible rfl
    | simp only [State.ite_frame, ite_self, State.modJob_frame, State.endJob_frame, State.queueJob_frame] | (intro _ _)
    | with_reducible refine (foldl_proj _ _ ?_ _ _).trans ?_ | with_reducible refine (foldl_fst _ _ ?_ _ _).trans ?_
    | with_reducible refine (foldl_run _ _ ?_ _ _).trans ?_ | split)
@[simp] theorem State.addEvents_frame (s : State) (part : Nat) (l : List Nat) : (State.addEvents s part l).pending = s.pending
    ∧ (State.addEvents s part l).draws = s.draws ∧ (State.addEvents s part l).aon = s.aon ∧ (State.addEvents s part l).time =
    s.time ∧ (State.addEvents s part l).persist = s.persist ∧ (State.addEvents s part l).flash = s.flash ∧ (State.addEvents s
    part l).streams = s.streams ∧ (State.addEvents s part l).cores = s.cores ∧ (State.addEvents s part l).ctxs = s.ctxs ∧
    (State.addEvents s part l).mem = s.mem ∧ (State.addEvents s part l).recov = s.recov ∧ (State.addEvents s part l).clotha =
    s.clotha ∧ (State.addEvents s part l).net = s.net ∧ (State.addEvents s part l).links = s.links := by
  unfold State.addEvents
  refine ⟨?_, ?_, ?_, ?_, ?_, ?_, ?_, ?_, ?_, ?_, ?_, ?_, ?_, ?_⟩ <;> (repeat' first
    | with_reducible rfl | simp only [State.ite_frame, ite_self] | (intro _ _)
    | with_reducible refine (foldl_proj _ _ ?_ _ _).trans ?_ | with_reducible refine (foldl_fst _ _ ?_ _ _).trans ?_
    | with_reducible refine (foldl_run _ _ ?_ _ _).trans ?_ | split)
@[simp] theorem State.publishTensors_frame (s : State) (core : Nat) (part : Nat) (r : Round) : (State.publishTensors s core
    part r).pending = s.pending ∧ (State.publishTensors s core part r).draws = s.draws ∧ (State.publishTensors s core part
    r).aon = s.aon ∧ (State.publishTensors s core part r).time = s.time ∧ (State.publishTensors s core part r).persist =
    s.persist ∧ (State.publishTensors s core part r).flash = s.flash ∧ (State.publishTensors s core part r).streams = s.streams
    ∧ (State.publishTensors s core part r).cores = s.cores ∧ (State.publishTensors s core part r).ctxs = s.ctxs ∧
    (State.publishTensors s core part r).mem = s.mem ∧ (State.publishTensors s core part r).recov = s.recov ∧
    (State.publishTensors s core part r).clotha = s.clotha ∧ (State.publishTensors s core part r).net = s.net ∧
    (State.publishTensors s core part r).links = s.links := by
  unfold State.publishTensors
  refine ⟨?_, ?_, ?_, ?_, ?_, ?_, ?_, ?_, ?_, ?_, ?_, ?_, ?_, ?_⟩ <;> (repeat' first
    | with_reducible rfl | simp only [State.ite_frame, ite_self] | (intro _ _)
    | with_reducible refine (foldl_proj _ _ ?_ _ _).trans ?_ | with_reducible refine (foldl_fst _ _ ?_ _ _).trans ?_
    | with_reducible refine (foldl_run _ _ ?_ _ _).trans ?_ | split)
@[simp] theorem State.kvCount_frame (s : State) (part : Nat) (i : Nat) : (State.kvCount s part i).pending = s.pending ∧
    (State.kvCount s part i).draws = s.draws ∧ (State.kvCount s part i).aon = s.aon ∧ (State.kvCount s part i).time = s.time ∧
    (State.kvCount s part i).persist = s.persist ∧ (State.kvCount s part i).flash = s.flash ∧ (State.kvCount s part i).streams
    = s.streams ∧ (State.kvCount s part i).cores = s.cores ∧ (State.kvCount s part i).ctxs = s.ctxs ∧ (State.kvCount s part
    i).recov = s.recov ∧ (State.kvCount s part i).clotha = s.clotha ∧ (State.kvCount s part i).net = s.net ∧ (State.kvCount s
    part i).links = s.links ∧ (State.kvCount s part i).svc = s.svc := by
  unfold State.kvCount
  refine ⟨?_, ?_, ?_, ?_, ?_, ?_, ?_, ?_, ?_, ?_, ?_, ?_, ?_, ?_⟩ <;> (repeat' first
    | with_reducible rfl | simp only [State.ite_frame, ite_self] | (intro _ _)
    | with_reducible refine (foldl_proj _ _ ?_ _ _).trans ?_ | with_reducible refine (foldl_fst _ _ ?_ _ _).trans ?_
    | with_reducible refine (foldl_run _ _ ?_ _ _).trans ?_ | split)
@[simp] theorem State.prepPoison_frame (s : State) (core : Nat) (r : Round) : (State.prepPoison s core r).pending = s.pending ∧
    (State.prepPoison s core r).draws = s.draws ∧ (State.prepPoison s core r).aon = s.aon ∧ (State.prepPoison s core r).time =
    s.time ∧ (State.prepPoison s core r).persist = s.persist ∧ (State.prepPoison s core r).flash = s.flash ∧ (State.prepPoison
    s core r).ctxs = s.ctxs ∧ (State.prepPoison s core r).mem = s.mem ∧ (State.prepPoison s core r).recov = s.recov ∧
    (State.prepPoison s core r).clotha = s.clotha ∧ (State.prepPoison s core r).net = s.net ∧ (State.prepPoison s core r).links
    = s.links ∧ (State.prepPoison s core r).svc = s.svc := by
  unfold State.prepPoison
  refine ⟨?_, ?_, ?_, ?_, ?_, ?_, ?_, ?_, ?_, ?_, ?_, ?_, ?_⟩ <;> (repeat' first
    | with_reducible rfl | simp only [State.ite_frame, ite_self, State.modChunk_frame, State.modCore_frame] | (intro _ _)
    | with_reducible refine (foldl_proj _ _ ?_ _ _).trans ?_ | with_reducible refine (foldl_fst _ _ ?_ _ _).trans ?_
    | with_reducible refine (foldl_run _ _ ?_ _ _).trans ?_ | split)
@[simp] theorem State.roundLeaves_frame (s : State) (core : Nat) (r : Round) : (State.roundLeaves s core r).pending = s.pending
    ∧ (State.roundLeaves s core r).draws = s.draws ∧ (State.roundLeaves s core r).aon = s.aon ∧ (State.roundLeaves s core
    r).time = s.time ∧ (State.roundLeaves s core r).persist = s.persist ∧ (State.roundLeaves s core r).flash = s.flash ∧
    (State.roundLeaves s core r).clotha = s.clotha ∧ (State.roundLeaves s core r).net = s.net ∧ (State.roundLeaves s core
    r).links = s.links := by
  unfold State.roundLeaves
  refine ⟨?_, ?_, ?_, ?_, ?_, ?_, ?_, ?_, ?_⟩ <;> (repeat' first
    | with_reducible rfl
    | simp only [State.ite_frame, ite_self, State.modCore_frame, State.addEvents_frame, State.modCtx_frame,
      State.jobStepDone_frame, State.updateSlot_frame, State.prepPoison_frame, State.publishTensors_frame,
      State.modChunk_frame] | (intro _ _) | with_reducible refine (foldl_proj _ _ ?_ _ _).trans ?_
    | with_reducible refine (foldl_fst _ _ ?_ _ _).trans ?_ | with_reducible refine (foldl_run _ _ ?_ _ _).trans ?_ | split)
@[simp] theorem State.leaveFlight_frame (s : State) (core : Nat) : (State.leaveFlight s core).pending = s.pending ∧
    (State.leaveFlight s core).draws = s.draws ∧ (State.leaveFlight s core).aon = s.aon ∧ (State.leaveFlight s core).time =
    s.time ∧ (State.leaveFlight s core).persist = s.persist ∧ (State.leaveFlight s core).flash = s.flash ∧ (State.leaveFlight s
    core).clotha = s.clotha ∧ (State.leaveFlight s core).net = s.net ∧ (State.leaveFlight s core).links = s.links := by
  unfold State.leaveFlight
  refine ⟨?_, ?_, ?_, ?_, ?_, ?_, ?_, ?_, ?_⟩ <;> (repeat' first
    | with_reducible rfl | simp only [State.ite_frame, ite_self, State.roundLeaves_frame] | (intro _ _)
    | with_reducible refine (foldl_proj _ _ ?_ _ _).trans ?_ | with_reducible refine (foldl_fst _ _ ?_ _ _).trans ?_
    | with_reducible refine (foldl_run _ _ ?_ _ _).trans ?_ | split)
@[simp] theorem State.orderYield_frame (s : State) (core : Nat) : (State.orderYield s core).pending = s.pending ∧
    (State.orderYield s core).draws = s.draws ∧ (State.orderYield s core).aon = s.aon ∧ (State.orderYield s core).time = s.time
    ∧ (State.orderYield s core).persist = s.persist ∧ (State.orderYield s core).flash = s.flash ∧ (State.orderYield s
    core).streams = s.streams ∧ (State.orderYield s core).ctxs = s.ctxs ∧ (State.orderYield s core).mem = s.mem ∧
    (State.orderYield s core).recov = s.recov ∧ (State.orderYield s core).clotha = s.clotha ∧ (State.orderYield s core).net =
    s.net ∧ (State.orderYield s core).links = s.links ∧ (State.orderYield s core).svc = s.svc := by
  unfold State.orderYield
  refine ⟨?_, ?_, ?_, ?_, ?_, ?_, ?_, ?_, ?_, ?_, ?_, ?_, ?_, ?_⟩ <;> (repeat' first
    | with_reducible rfl | simp only [State.ite_frame, ite_self, State.modCore_frame] | (intro _ _)
    | with_reducible refine (foldl_proj _ _ ?_ _ _).trans ?_ | with_reducible refine (foldl_fst _ _ ?_ _ _).trans ?_
    | with_reducible refine (foldl_run _ _ ?_ _ _).trans ?_ | split)
@[simp] theorem State.markFenced_frame (s : State) (core : Nat) (ctxId : Nat) : (State.markFenced s core ctxId).pending =
    s.pending ∧ (State.markFenced s core ctxId).draws = s.draws ∧ (State.markFenced s core ctxId).aon = s.aon ∧
    (State.markFenced s core ctxId).time = s.time ∧ (State.markFenced s core ctxId).persist = s.persist ∧ (State.markFenced s
    core ctxId).flash = s.flash ∧ (State.markFenced s core ctxId).streams = s.streams ∧ (State.markFenced s core ctxId).ctxs =
    s.ctxs ∧ (State.markFenced s core ctxId).mem = s.mem ∧ (State.markFenced s core ctxId).recov = s.recov ∧ (State.markFenced
    s core ctxId).clotha = s.clotha ∧ (State.markFenced s core ctxId).net = s.net ∧ (State.markFenced s core ctxId).links =
    s.links ∧ (State.markFenced s core ctxId).svc = s.svc := by
  unfold State.markFenced
  refine ⟨?_, ?_, ?_, ?_, ?_, ?_, ?_, ?_, ?_, ?_, ?_, ?_, ?_, ?_⟩ <;> (repeat' first
    | with_reducible rfl | simp only [State.ite_frame, ite_self, State.modCore_frame] | (intro _ _)
    | with_reducible refine (foldl_proj _ _ ?_ _ _).trans ?_ | with_reducible refine (foldl_fst _ _ ?_ _ _).trans ?_
    | with_reducible refine (foldl_run _ _ ?_ _ _).trans ?_ | split)
@[simp] theorem State.dropCredits_frame (s : State) (h : CreditHolder) : (State.dropCredits s h).pending = s.pending ∧
    (State.dropCredits s h).draws = s.draws ∧ (State.dropCredits s h).aon = s.aon ∧ (State.dropCredits s h).time = s.time ∧
    (State.dropCredits s h).persist = s.persist ∧ (State.dropCredits s h).flash = s.flash ∧ (State.dropCredits s h).streams =
    s.streams ∧ (State.dropCredits s h).ctxs = s.ctxs ∧ (State.dropCredits s h).mem = s.mem ∧ (State.dropCredits s h).recov =
    s.recov ∧ (State.dropCredits s h).clotha = s.clotha ∧ (State.dropCredits s h).net = s.net ∧ (State.dropCredits s h).links =
    s.links ∧ (State.dropCredits s h).svc = s.svc := by
  unfold State.dropCredits
  refine ⟨?_, ?_, ?_, ?_, ?_, ?_, ?_, ?_, ?_, ?_, ?_, ?_, ?_, ?_⟩ <;> (repeat' first
    | with_reducible rfl | simp only [State.ite_frame, ite_self, State.modCores_frame] | (intro _ _)
    | with_reducible refine (foldl_proj _ _ ?_ _ _).trans ?_ | with_reducible refine (foldl_fst _ _ ?_ _ _).trans ?_
    | with_reducible refine (foldl_run _ _ ?_ _ _).trans ?_ | split)
@[simp] theorem State.freeChannel_frame (s : State) (core : Nat) (chan : Nat) : (State.freeChannel s core chan).pending =
    s.pending ∧ (State.freeChannel s core chan).draws = s.draws ∧ (State.freeChannel s core chan).aon = s.aon ∧
    (State.freeChannel s core chan).time = s.time ∧ (State.freeChannel s core chan).persist = s.persist ∧ (State.freeChannel s
    core chan).flash = s.flash ∧ (State.freeChannel s core chan).streams = s.streams ∧ (State.freeChannel s core chan).ctxs =
    s.ctxs ∧ (State.freeChannel s core chan).mem = s.mem ∧ (State.freeChannel s core chan).recov = s.recov ∧ (State.freeChannel
    s core chan).clotha = s.clotha ∧ (State.freeChannel s core chan).net = s.net ∧ (State.freeChannel s core chan).links =
    s.links ∧ (State.freeChannel s core chan).svc = s.svc := by
  unfold State.freeChannel
  refine ⟨?_, ?_, ?_, ?_, ?_, ?_, ?_, ?_, ?_, ?_, ?_, ?_, ?_, ?_⟩ <;> (repeat' first
    | with_reducible rfl | simp only [State.ite_frame, ite_self, State.modCore_frame, State.dropCredits_frame]
    | (intro _ _) | with_reducible refine (foldl_proj _ _ ?_ _ _).trans ?_
    | with_reducible refine (foldl_fst _ _ ?_ _ _).trans ?_ | with_reducible refine (foldl_run _ _ ?_ _ _).trans ?_ | split)
@[simp] theorem State.stopChannels_frame (s : State) (core : Nat) (ctxId : Nat) : (State.stopChannels s core ctxId).pending =
    s.pending ∧ (State.stopChannels s core ctxId).draws = s.draws ∧ (State.stopChannels s core ctxId).aon = s.aon ∧
    (State.stopChannels s core ctxId).time = s.time ∧ (State.stopChannels s core ctxId).persist = s.persist ∧
    (State.stopChannels s core ctxId).flash = s.flash ∧ (State.stopChannels s core ctxId).streams = s.streams ∧
    (State.stopChannels s core ctxId).ctxs = s.ctxs ∧ (State.stopChannels s core ctxId).mem = s.mem ∧ (State.stopChannels s
    core ctxId).recov = s.recov ∧ (State.stopChannels s core ctxId).clotha = s.clotha ∧ (State.stopChannels s core ctxId).net =
    s.net ∧ (State.stopChannels s core ctxId).links = s.links ∧ (State.stopChannels s core ctxId).svc = s.svc := by
  unfold State.stopChannels
  refine ⟨?_, ?_, ?_, ?_, ?_, ?_, ?_, ?_, ?_, ?_, ?_, ?_, ?_, ?_⟩ <;> (repeat' first
    | with_reducible rfl | simp only [State.ite_frame, ite_self, State.freeChannel_frame] | (intro _ _)
    | with_reducible refine (foldl_proj _ _ ?_ _ _).trans ?_ | with_reducible refine (foldl_fst _ _ ?_ _ _).trans ?_
    | with_reducible refine (foldl_run _ _ ?_ _ _).trans ?_ | split)
@[simp] theorem State.rejectWith_frame (s : State) (ctxId : Nat) (r : Completion) (n : Nat) (prog : Option Nat) :
    (State.rejectWith s ctxId r n prog).pending = s.pending ∧ (State.rejectWith s ctxId r n prog).draws = s.draws ∧
    (State.rejectWith s ctxId r n prog).aon = s.aon ∧ (State.rejectWith s ctxId r n prog).time = s.time ∧ (State.rejectWith s
    ctxId r n prog).persist = s.persist ∧ (State.rejectWith s ctxId r n prog).flash = s.flash ∧ (State.rejectWith s ctxId r n
    prog).streams = s.streams ∧ (State.rejectWith s ctxId r n prog).clotha = s.clotha ∧ (State.rejectWith s ctxId r n prog).net
    = s.net ∧ (State.rejectWith s ctxId r n prog).links = s.links := by
  unfold State.rejectWith
  refine ⟨?_, ?_, ?_, ?_, ?_, ?_, ?_, ?_, ?_, ?_⟩ <;> (repeat' first
    | with_reducible rfl
    | simp only [State.ite_frame, ite_self, State.writeRecord_frame, State.dropWaits_frame, State.modCtx_frame,
      State.modJob_frame, State.logEvent_frame] | (intro _ _) | with_reducible refine (foldl_proj _ _ ?_ _ _).trans ?_
    | with_reducible refine (foldl_fst _ _ ?_ _ _).trans ?_ | with_reducible refine (foldl_run _ _ ?_ _ _).trans ?_ | split)
@[simp] theorem State.reject_frame (s : State) (ctxId : Nat) (seq : Nat) (n : Nat) (code : Word16) (prog : Option Nat) :
    (State.reject s ctxId seq n code prog).pending = s.pending ∧ (State.reject s ctxId seq n code prog).draws = s.draws ∧
    (State.reject s ctxId seq n code prog).aon = s.aon ∧ (State.reject s ctxId seq n code prog).time = s.time ∧ (State.reject s
    ctxId seq n code prog).persist = s.persist ∧ (State.reject s ctxId seq n code prog).flash = s.flash ∧ (State.reject s ctxId
    seq n code prog).streams = s.streams ∧ (State.reject s ctxId seq n code prog).clotha = s.clotha ∧ (State.reject s ctxId seq
    n code prog).net = s.net ∧ (State.reject s ctxId seq n code prog).links = s.links := by
  unfold State.reject
  refine ⟨?_, ?_, ?_, ?_, ?_, ?_, ?_, ?_, ?_, ?_⟩ <;> (repeat' first
    | with_reducible rfl | simp only [State.ite_frame, ite_self, State.rejectWith_frame] | (intro _ _)
    | with_reducible refine (foldl_proj _ _ ?_ _ _).trans ?_ | with_reducible refine (foldl_fst _ _ ?_ _ _).trans ?_
    | with_reducible refine (foldl_run _ _ ?_ _ _).trans ?_ | split)
@[simp] theorem State.purgeItems_frame (s : State) (p : WorkItem → Bool) : (State.purgeItems s p).pending = s.pending ∧
    (State.purgeItems s p).draws = s.draws ∧ (State.purgeItems s p).aon = s.aon ∧ (State.purgeItems s p).time = s.time ∧
    (State.purgeItems s p).persist = s.persist ∧ (State.purgeItems s p).flash = s.flash ∧ (State.purgeItems s p).streams =
    s.streams ∧ (State.purgeItems s p).ctxs = s.ctxs ∧ (State.purgeItems s p).mem = s.mem ∧ (State.purgeItems s p).recov =
    s.recov ∧ (State.purgeItems s p).clotha = s.clotha ∧ (State.purgeItems s p).net = s.net ∧ (State.purgeItems s p).links =
    s.links ∧ (State.purgeItems s p).svc = s.svc := by
  unfold State.purgeItems
  refine ⟨?_, ?_, ?_, ?_, ?_, ?_, ?_, ?_, ?_, ?_, ?_, ?_, ?_, ?_⟩ <;> (repeat' first
    | with_reducible rfl | simp only [State.ite_frame, ite_self, State.modCores_frame] | (intro _ _)
    | with_reducible refine (foldl_proj _ _ ?_ _ _).trans ?_ | with_reducible refine (foldl_fst _ _ ?_ _ _).trans ?_
    | with_reducible refine (foldl_run _ _ ?_ _ _).trans ?_ | split)
@[simp] theorem State.charge_frame (s : State) (ct : Ctx) (cls : Nat) (cycles : Nat) : (State.charge s ct cls cycles).pending =
    s.pending ∧ (State.charge s ct cls cycles).draws = s.draws ∧ (State.charge s ct cls cycles).aon = s.aon ∧ (State.charge s
    ct cls cycles).time = s.time ∧ (State.charge s ct cls cycles).persist = s.persist ∧ (State.charge s ct cls cycles).flash =
    s.flash ∧ (State.charge s ct cls cycles).streams = s.streams ∧ (State.charge s ct cls cycles).ctxs = s.ctxs ∧ (State.charge
    s ct cls cycles).mem = s.mem ∧ (State.charge s ct cls cycles).recov = s.recov ∧ (State.charge s ct cls cycles).clotha =
    s.clotha ∧ (State.charge s ct cls cycles).net = s.net ∧ (State.charge s ct cls cycles).links = s.links := by
  unfold State.charge
  refine ⟨?_, ?_, ?_, ?_, ?_, ?_, ?_, ?_, ?_, ?_, ?_, ?_, ?_⟩ <;> (repeat' first
    | with_reducible rfl | simp only [State.ite_frame, ite_self, State.modCore_frame] | (intro _ _)
    | with_reducible refine (foldl_proj _ _ ?_ _ _).trans ?_ | with_reducible refine (foldl_fst _ _ ?_ _ _).trans ?_
    | with_reducible refine (foldl_run _ _ ?_ _ _).trans ?_ | split)
@[simp] theorem State.rejectRunning_frame (s : State) (core : Nat) (c : Cmd) (code : Word16) : (State.rejectRunning s core c
    code).pending = s.pending ∧ (State.rejectRunning s core c code).draws = s.draws ∧ (State.rejectRunning s core c code).aon =
    s.aon ∧ (State.rejectRunning s core c code).time = s.time ∧ (State.rejectRunning s core c code).persist = s.persist ∧
    (State.rejectRunning s core c code).flash = s.flash ∧ (State.rejectRunning s core c code).streams = s.streams ∧
    (State.rejectRunning s core c code).clotha = s.clotha ∧ (State.rejectRunning s core c code).net = s.net ∧
    (State.rejectRunning s core c code).links = s.links := by
  unfold State.rejectRunning
  refine ⟨?_, ?_, ?_, ?_, ?_, ?_, ?_, ?_, ?_, ?_⟩ <;> (repeat' first
    | with_reducible rfl
    | simp only [State.ite_frame, ite_self, State.purgeItems_frame, State.modCore_frame, State.charge_frame,
      State.rejectWith_frame] | (intro _ _) | with_reducible refine (foldl_proj _ _ ?_ _ _).trans ?_
    | with_reducible refine (foldl_fst _ _ ?_ _ _).trans ?_ | with_reducible refine (foldl_run _ _ ?_ _ _).trans ?_ | split)
@[simp] theorem State.checkOvercommit_frame (s : State) (core : Nat) : (State.checkOvercommit s core).pending = s.pending ∧
    (State.checkOvercommit s core).draws = s.draws ∧ (State.checkOvercommit s core).aon = s.aon ∧ (State.checkOvercommit s
    core).time = s.time ∧ (State.checkOvercommit s core).persist = s.persist ∧ (State.checkOvercommit s core).flash = s.flash ∧
    (State.checkOvercommit s core).ctxs = s.ctxs ∧ (State.checkOvercommit s core).mem = s.mem ∧ (State.checkOvercommit s
    core).clotha = s.clotha ∧ (State.checkOvercommit s core).net = s.net ∧ (State.checkOvercommit s core).links = s.links ∧
    (State.checkOvercommit s core).svc = s.svc := by
  unfold State.checkOvercommit
  refine ⟨?_, ?_, ?_, ?_, ?_, ?_, ?_, ?_, ?_, ?_, ?_, ?_⟩ <;> (repeat' first
    | with_reducible rfl
    | simp only [State.ite_frame, ite_self, State.modCore_frame, State.markCause_frame, State.logEvent_frame] | (intro _ _)
    | with_reducible refine (foldl_proj _ _ ?_ _ _).trans ?_ | with_reducible refine (foldl_fst _ _ ?_ _ _).trans ?_
    | with_reducible refine (foldl_run _ _ ?_ _ _).trans ?_ | split)
@[simp] theorem powerOff_frame (s : State) : (powerOff s).pending = s.pending ∧ (powerOff s).draws = s.draws ∧ (powerOff
    s).flash = s.flash := by
  unfold powerOff
  refine ⟨?_, ?_, ?_⟩ <;> (repeat' first
    | with_reducible rfl | simp only [State.ite_frame, ite_self] | (intro _ _)
    | with_reducible refine (foldl_proj _ _ ?_ _ _).trans ?_ | with_reducible refine (foldl_fst _ _ ?_ _ _).trans ?_
    | with_reducible refine (foldl_run _ _ ?_ _ _).trans ?_ | split)
@[simp] theorem moduleReset_frame (s : State) (cause : Nat) : (moduleReset s cause).pending = s.pending ∧ (moduleReset s
    cause).draws = s.draws := by
  unfold moduleReset
  refine ⟨?_, ?_⟩ <;> (repeat' first
    | with_reducible rfl | simp only [State.ite_frame, ite_self, powerOff_frame, State.logEvent_frame] | (intro _ _)
    | with_reducible refine (foldl_proj _ _ ?_ _ _).trans ?_ | with_reducible refine (foldl_fst _ _ ?_ _ _).trans ?_
    | with_reducible refine (foldl_run _ _ ?_ _ _).trans ?_ | split)
@[simp] theorem shutdown_frame (s : State) (causes : List (Nat × Nat × Int)) : (shutdown s causes).pending = s.pending ∧
    (shutdown s causes).draws = s.draws ∧ (shutdown s causes).flash = s.flash := by
  unfold shutdown
  refine ⟨?_, ?_, ?_⟩ <;> (repeat' first
    | with_reducible rfl | simp only [State.ite_frame, ite_self, powerOff_frame, State.alertSet_frame] | (intro _ _)
    | with_reducible refine (foldl_proj _ _ ?_ _ _).trans ?_ | with_reducible refine (foldl_fst _ _ ?_ _ _).trans ?_
    | with_reducible refine (foldl_run _ _ ?_ _ _).trans ?_ | split)
@[simp] theorem trip_frame (s : State) (causes : List (Nat × Nat × Int)) : (trip s causes).pending = s.pending ∧ (trip s
    causes).draws = s.draws ∧ (trip s causes).flash = s.flash := by
  unfold trip
  refine ⟨?_, ?_, ?_⟩ <;> (repeat' first
    | with_reducible rfl | simp only [State.ite_frame, ite_self, shutdown_frame] | (intro _ _)
    | with_reducible refine (foldl_proj _ _ ?_ _ _).trans ?_ | with_reducible refine (foldl_fst _ _ ?_ _ _).trans ?_
    | with_reducible refine (foldl_run _ _ ?_ _ _).trans ?_ | split)
@[simp] theorem commitShutdown_frame (s : State) : (commitShutdown s).pending = s.pending ∧ (commitShutdown s).draws = s.draws
    ∧ (commitShutdown s).time = s.time ∧ (commitShutdown s).streams = s.streams ∧ (commitShutdown s).cores = s.cores ∧
    (commitShutdown s).ctxs = s.ctxs ∧ (commitShutdown s).mem = s.mem ∧ (commitShutdown s).recov = s.recov ∧ (commitShutdown
    s).clotha = s.clotha ∧ (commitShutdown s).net = s.net ∧ (commitShutdown s).links = s.links ∧ (commitShutdown s).svc = s.svc
    := by
  unfold commitShutdown
  refine ⟨?_, ?_, ?_, ?_, ?_, ?_, ?_, ?_, ?_, ?_, ?_, ?_⟩ <;> (repeat' first
    | with_reducible rfl | simp only [State.ite_frame, ite_self] | (intro _ _)
    | with_reducible refine (foldl_proj _ _ ?_ _ _).trans ?_ | with_reducible refine (foldl_fst _ _ ?_ _ _).trans ?_
    | with_reducible refine (foldl_run _ _ ?_ _ _).trans ?_ | split)
@[simp] theorem startSequence_frame (s : State) : (startSequence s).pending = s.pending ∧ (startSequence s).draws = s.draws ∧
    (startSequence s).flash = s.flash := by
  unfold startSequence
  refine ⟨?_, ?_, ?_⟩ <;> (repeat' first
    | with_reducible rfl | simp only [State.ite_frame, ite_self, shutdown_frame] | (intro _ _)
    | with_reducible refine (foldl_proj _ _ ?_ _ _).trans ?_ | with_reducible refine (foldl_fst _ _ ?_ _ _).trans ?_
    | with_reducible refine (foldl_run _ _ ?_ _ _).trans ?_ | split)
@[simp] theorem tryStart_frame (s : State) : (tryStart s).pending = s.pending ∧ (tryStart s).draws = s.draws ∧ (tryStart
    s).flash = s.flash := by
  unfold tryStart
  refine ⟨?_, ?_, ?_⟩ <;> (repeat' first
    | with_reducible rfl | simp only [State.ite_frame, ite_self, startSequence_frame] | (intro _ _)
    | with_reducible refine (foldl_proj _ _ ?_ _ _).trans ?_ | with_reducible refine (foldl_fst _ _ ?_ _ _).trans ?_
    | with_reducible refine (foldl_run _ _ ?_ _ _).trans ?_ | split)
@[simp] theorem warn_frame (s : State) (key : Nat) (bit_ : Nat) (standing : Bool) (needFw : Bool) (event : Nat) (detail : List
    (Nat × Int)) : (warn s key bit_ standing needFw event detail).pending = s.pending ∧ (warn s key bit_ standing needFw event
    detail).draws = s.draws ∧ (warn s key bit_ standing needFw event detail).time = s.time ∧ (warn s key bit_ standing needFw
    event detail).persist = s.persist ∧ (warn s key bit_ standing needFw event detail).flash = s.flash ∧ (warn s key bit_
    standing needFw event detail).streams = s.streams ∧ (warn s key bit_ standing needFw event detail).cores = s.cores ∧ (warn
    s key bit_ standing needFw event detail).ctxs = s.ctxs ∧ (warn s key bit_ standing needFw event detail).mem = s.mem ∧ (warn
    s key bit_ standing needFw event detail).clotha = s.clotha ∧ (warn s key bit_ standing needFw event detail).net = s.net ∧
    (warn s key bit_ standing needFw event detail).links = s.links ∧ (warn s key bit_ standing needFw event detail).svc = s.svc
    := by
  unfold warn
  refine ⟨?_, ?_, ?_, ?_, ?_, ?_, ?_, ?_, ?_, ?_, ?_, ?_, ?_⟩ <;> (repeat' first
    | with_reducible rfl | simp only [State.ite_frame, ite_self, State.alertSet_frame, State.logFw_frame] | (intro _ _)
    | with_reducible refine (foldl_proj _ _ ?_ _ _).trans ?_ | with_reducible refine (foldl_fst _ _ ?_ _ _).trans ?_
    | with_reducible refine (foldl_run _ _ ?_ _ _).trans ?_ | split)
@[simp] theorem State.putCodes_frame (s : State) (core : Nat) (h : HandleEntry) (o : Nat) (fmt : Nat) (l : List (Option Nat))
    (poison : Bool) : (State.putCodes s core h o fmt l poison).pending = s.pending ∧ (State.putCodes s core h o fmt l
    poison).draws = s.draws ∧ (State.putCodes s core h o fmt l poison).aon = s.aon ∧ (State.putCodes s core h o fmt l
    poison).time = s.time ∧ (State.putCodes s core h o fmt l poison).persist = s.persist ∧ (State.putCodes s core h o fmt l
    poison).flash = s.flash ∧ (State.putCodes s core h o fmt l poison).streams = s.streams ∧ (State.putCodes s core h o fmt l
    poison).ctxs = s.ctxs ∧ (State.putCodes s core h o fmt l poison).mem = s.mem ∧ (State.putCodes s core h o fmt l
    poison).recov = s.recov ∧ (State.putCodes s core h o fmt l poison).clotha = s.clotha ∧ (State.putCodes s core h o fmt l
    poison).net = s.net ∧ (State.putCodes s core h o fmt l poison).links = s.links ∧ (State.putCodes s core h o fmt l
    poison).svc = s.svc := by
  unfold State.putCodes
  refine ⟨?_, ?_, ?_, ?_, ?_, ?_, ?_, ?_, ?_, ?_, ?_, ?_, ?_, ?_⟩ <;> (repeat' first
    | with_reducible rfl | simp only [State.ite_frame, ite_self, State.bufWrite_frame] | (intro _ _)
    | with_reducible refine (foldl_proj _ _ ?_ _ _).trans ?_ | with_reducible refine (foldl_fst _ _ ?_ _ _).trans ?_
    | with_reducible refine (foldl_run _ _ ?_ _ _).trans ?_ | split)
@[simp] theorem State.writeSegment_frame (s : State) (core : Nat) (h : HandleEntry) (d : Nat) (r : Nat) (ct : Nat) (extra :
    Nat) (sWord : Word16) (l : List (Option Nat)) (e : Nat) (poison : Bool) : (State.writeSegment s core h d r ct extra sWord l
    e poison).pending = s.pending ∧ (State.writeSegment s core h d r ct extra sWord l e poison).draws = s.draws ∧
    (State.writeSegment s core h d r ct extra sWord l e poison).aon = s.aon ∧ (State.writeSegment s core h d r ct extra sWord l
    e poison).time = s.time ∧ (State.writeSegment s core h d r ct extra sWord l e poison).persist = s.persist ∧
    (State.writeSegment s core h d r ct extra sWord l e poison).flash = s.flash ∧ (State.writeSegment s core h d r ct extra
    sWord l e poison).streams = s.streams ∧ (State.writeSegment s core h d r ct extra sWord l e poison).ctxs = s.ctxs ∧
    (State.writeSegment s core h d r ct extra sWord l e poison).mem = s.mem ∧ (State.writeSegment s core h d r ct extra sWord l
    e poison).recov = s.recov ∧ (State.writeSegment s core h d r ct extra sWord l e poison).clotha = s.clotha ∧
    (State.writeSegment s core h d r ct extra sWord l e poison).net = s.net ∧ (State.writeSegment s core h d r ct extra sWord l
    e poison).links = s.links ∧ (State.writeSegment s core h d r ct extra sWord l e poison).svc = s.svc := by
  unfold State.writeSegment
  refine ⟨?_, ?_, ?_, ?_, ?_, ?_, ?_, ?_, ?_, ?_, ?_, ?_, ?_, ?_⟩ <;> (repeat' first
    | with_reducible rfl | simp only [State.ite_frame, ite_self, State.putCodes_frame, State.bufWrite_frame] | (intro _ _)
    | with_reducible refine (foldl_proj _ _ ?_ _ _).trans ?_ | with_reducible refine (foldl_fst _ _ ?_ _ _).trans ?_
    | with_reducible refine (foldl_run _ _ ?_ _ _).trans ?_ | split)
@[simp] theorem State.zeroRange_frame (s : State) (core : Nat) (h : HandleEntry) (a : Nat) (b : Nat) (poison : Bool) :
    (State.zeroRange s core h a b poison).pending = s.pending ∧ (State.zeroRange s core h a b poison).draws = s.draws ∧
    (State.zeroRange s core h a b poison).aon = s.aon ∧ (State.zeroRange s core h a b poison).time = s.time ∧ (State.zeroRange
    s core h a b poison).persist = s.persist ∧ (State.zeroRange s core h a b poison).flash = s.flash ∧ (State.zeroRange s core
    h a b poison).streams = s.streams ∧ (State.zeroRange s core h a b poison).ctxs = s.ctxs ∧ (State.zeroRange s core h a b
    poison).mem = s.mem ∧ (State.zeroRange s core h a b poison).recov = s.recov ∧ (State.zeroRange s core h a b poison).clotha
    = s.clotha ∧ (State.zeroRange s core h a b poison).net = s.net ∧ (State.zeroRange s core h a b poison).links = s.links ∧
    (State.zeroRange s core h a b poison).svc = s.svc := by
  unfold State.zeroRange
  refine ⟨?_, ?_, ?_, ?_, ?_, ?_, ?_, ?_, ?_, ?_, ?_, ?_, ?_, ?_⟩ <;> (repeat' first
    | with_reducible rfl | simp only [State.ite_frame, ite_self, State.bufWrite_frame] | (intro _ _)
    | with_reducible refine (foldl_proj _ _ ?_ _ _).trans ?_ | with_reducible refine (foldl_fst _ _ ?_ _ _).trans ?_
    | with_reducible refine (foldl_run _ _ ?_ _ _).trans ?_ | split)
@[simp] theorem State.writeMasked_frame (s : State) (core : Nat) (h : HandleEntry) (d : Nat) (r : Nat) (ct : Nat) (extra : Nat)
    (poison : Bool) : (State.writeMasked s core h d r ct extra poison).pending = s.pending ∧ (State.writeMasked s core h d r ct
    extra poison).draws = s.draws ∧ (State.writeMasked s core h d r ct extra poison).aon = s.aon ∧ (State.writeMasked s core h
    d r ct extra poison).time = s.time ∧ (State.writeMasked s core h d r ct extra poison).persist = s.persist ∧
    (State.writeMasked s core h d r ct extra poison).flash = s.flash ∧ (State.writeMasked s core h d r ct extra poison).streams
    = s.streams ∧ (State.writeMasked s core h d r ct extra poison).ctxs = s.ctxs ∧ (State.writeMasked s core h d r ct extra
    poison).mem = s.mem ∧ (State.writeMasked s core h d r ct extra poison).recov = s.recov ∧ (State.writeMasked s core h d r ct
    extra poison).clotha = s.clotha ∧ (State.writeMasked s core h d r ct extra poison).net = s.net ∧ (State.writeMasked s core
    h d r ct extra poison).links = s.links ∧ (State.writeMasked s core h d r ct extra poison).svc = s.svc := by
  unfold State.writeMasked
  refine ⟨?_, ?_, ?_, ?_, ?_, ?_, ?_, ?_, ?_, ?_, ?_, ?_, ?_, ?_⟩ <;> (repeat' first
    | with_reducible rfl | simp only [State.ite_frame, ite_self, State.zeroRange_frame, State.bufWrite_frame] | (intro _ _)
    | with_reducible refine (foldl_proj _ _ ?_ _ _).trans ?_ | with_reducible refine (foldl_fst _ _ ?_ _ _).trans ?_
    | with_reducible refine (foldl_run _ _ ?_ _ _).trans ?_ | split)
@[simp] theorem State.noteTensor_frame (s : State) (core : Nat) (c : Cmd) (st : Nat) (t : TileStats) : (State.noteTensor s core
    c st t).pending = s.pending ∧ (State.noteTensor s core c st t).draws = s.draws ∧ (State.noteTensor s core c st t).aon =
    s.aon ∧ (State.noteTensor s core c st t).time = s.time ∧ (State.noteTensor s core c st t).persist = s.persist ∧
    (State.noteTensor s core c st t).flash = s.flash ∧ (State.noteTensor s core c st t).streams = s.streams ∧ (State.noteTensor
    s core c st t).ctxs = s.ctxs ∧ (State.noteTensor s core c st t).mem = s.mem ∧ (State.noteTensor s core c st t).recov =
    s.recov ∧ (State.noteTensor s core c st t).clotha = s.clotha ∧ (State.noteTensor s core c st t).net = s.net ∧
    (State.noteTensor s core c st t).links = s.links ∧ (State.noteTensor s core c st t).svc = s.svc := by
  unfold State.noteTensor
  refine ⟨?_, ?_, ?_, ?_, ?_, ?_, ?_, ?_, ?_, ?_, ?_, ?_, ?_, ?_⟩ <;> (repeat' first
    | with_reducible rfl | simp only [State.ite_frame, ite_self, State.modCore_frame] | (intro _ _)
    | with_reducible refine (foldl_proj _ _ ?_ _ _).trans ?_ | with_reducible refine (foldl_fst _ _ ?_ _ _).trans ?_
    | with_reducible refine (foldl_run _ _ ?_ _ _).trans ?_ | split)
@[simp] theorem State.writeStats_frame (s : State) (core : Nat) (c : Cmd) (st : Nat) (rt : Nat) (ct : Nat) (t : TileStats)
    (poison : Bool) : (State.writeStats s core c st rt ct t poison).pending = s.pending ∧ (State.writeStats s core c st rt ct t
    poison).draws = s.draws ∧ (State.writeStats s core c st rt ct t poison).aon = s.aon ∧ (State.writeStats s core c st rt ct t
    poison).time = s.time ∧ (State.writeStats s core c st rt ct t poison).persist = s.persist ∧ (State.writeStats s core c st
    rt ct t poison).flash = s.flash ∧ (State.writeStats s core c st rt ct t poison).streams = s.streams ∧ (State.writeStats s
    core c st rt ct t poison).ctxs = s.ctxs ∧ (State.writeStats s core c st rt ct t poison).mem = s.mem ∧ (State.writeStats s
    core c st rt ct t poison).recov = s.recov ∧ (State.writeStats s core c st rt ct t poison).clotha = s.clotha ∧
    (State.writeStats s core c st rt ct t poison).net = s.net ∧ (State.writeStats s core c st rt ct t poison).links = s.links ∧
    (State.writeStats s core c st rt ct t poison).svc = s.svc := by
  unfold State.writeStats
  refine ⟨?_, ?_, ?_, ?_, ?_, ?_, ?_, ?_, ?_, ?_, ?_, ?_, ?_, ?_⟩ <;> (repeat' first
    | with_reducible rfl | simp only [State.ite_frame, ite_self, State.noteTensor_frame, State.bufWrite_frame]
    | (intro _ _) | with_reducible refine (foldl_proj _ _ ?_ _ _).trans ?_
    | with_reducible refine (foldl_fst _ _ ?_ _ _).trans ?_ | with_reducible refine (foldl_run _ _ ?_ _ _).trans ?_ | split)
@[simp] theorem State.after_frame (s0 : State) (s : State) (core : Nat) : (State.after s0 s core).pending = s.pending ∧
    (State.after s0 s core).draws = s.draws ∧ (State.after s0 s core).aon = s.aon ∧ (State.after s0 s core).time = s.time ∧
    (State.after s0 s core).persist = s.persist ∧ (State.after s0 s core).flash = s.flash ∧ (State.after s0 s core).clotha =
    s.clotha ∧ (State.after s0 s core).net = s.net ∧ (State.after s0 s core).links = s.links := by
  unfold State.after
  refine ⟨?_, ?_, ?_, ?_, ?_, ?_, ?_, ?_, ?_⟩ <;> (repeat' first
    | with_reducible rfl
    | simp only [State.ite_frame, ite_self, State.orderYield_frame, State.leaveFlight_frame, State.settle_frame]
    | (intro _ _) | with_reducible refine (foldl_proj _ _ ?_ _ _).trans ?_
    | with_reducible refine (foldl_fst _ _ ?_ _ _).trans ?_ | with_reducible refine (foldl_run _ _ ?_ _ _).trans ?_ | split)
@[simp] theorem State.discardQueue_frame (s : State) (ctxId : Nat) : (State.discardQueue s ctxId).pending = s.pending ∧
    (State.discardQueue s ctxId).draws = s.draws ∧ (State.discardQueue s ctxId).aon = s.aon ∧ (State.discardQueue s ctxId).time
    = s.time ∧ (State.discardQueue s ctxId).persist = s.persist ∧ (State.discardQueue s ctxId).flash = s.flash ∧
    (State.discardQueue s ctxId).streams = s.streams ∧ (State.discardQueue s ctxId).cores = s.cores ∧ (State.discardQueue s
    ctxId).mem = s.mem ∧ (State.discardQueue s ctxId).recov = s.recov ∧ (State.discardQueue s ctxId).clotha = s.clotha ∧
    (State.discardQueue s ctxId).net = s.net ∧ (State.discardQueue s ctxId).links = s.links ∧ (State.discardQueue s ctxId).svc
    = s.svc := by
  unfold State.discardQueue
  refine ⟨?_, ?_, ?_, ?_, ?_, ?_, ?_, ?_, ?_, ?_, ?_, ?_, ?_, ?_⟩ <;> (repeat' first
    | with_reducible rfl | simp only [State.ite_frame, ite_self, State.modCtx_frame] | (intro _ _)
    | with_reducible refine (foldl_proj _ _ ?_ _ _).trans ?_ | with_reducible refine (foldl_fst _ _ ?_ _ _).trans ?_
    | with_reducible refine (foldl_run _ _ ?_ _ _).trans ?_ | split)
@[simp] theorem State.dispatch_frame (s : State) (core : Nat) (c : Candidate) : (State.dispatch s core c).pending = s.pending ∧
    (State.dispatch s core c).aon = s.aon ∧ (State.dispatch s core c).time = s.time ∧ (State.dispatch s core c).persist =
    s.persist ∧ (State.dispatch s core c).flash = s.flash ∧ (State.dispatch s core c).streams = s.streams ∧ (State.dispatch s
    core c).mem = s.mem ∧ (State.dispatch s core c).recov = s.recov ∧ (State.dispatch s core c).clotha = s.clotha ∧
    (State.dispatch s core c).net = s.net ∧ (State.dispatch s core c).links = s.links := by
  unfold State.dispatch
  refine ⟨?_, ?_, ?_, ?_, ?_, ?_, ?_, ?_, ?_, ?_, ?_⟩ <;> (repeat' first
    | with_reducible rfl
    | simp only [State.ite_frame, ite_self, State.latchAll_frame, State.modCore_frame, State.modCtx_frame,
      State.progress_frame] | (intro _ _) | with_reducible refine (foldl_proj _ _ ?_ _ _).trans ?_
    | with_reducible refine (foldl_fst _ _ ?_ _ _).trans ?_ | with_reducible refine (foldl_run _ _ ?_ _ _).trans ?_ | split)
@[simp] theorem State.satisfyWait_frame (s : State) (w : SemWait) (hold : Bool) : (State.satisfyWait s w hold).pending =
    s.pending ∧ (State.satisfyWait s w hold).draws = s.draws ∧ (State.satisfyWait s w hold).aon = s.aon ∧ (State.satisfyWait s
    w hold).time = s.time ∧ (State.satisfyWait s w hold).persist = s.persist ∧ (State.satisfyWait s w hold).flash = s.flash ∧
    (State.satisfyWait s w hold).streams = s.streams ∧ (State.satisfyWait s w hold).mem = s.mem ∧ (State.satisfyWait s w
    hold).recov = s.recov ∧ (State.satisfyWait s w hold).clotha = s.clotha ∧ (State.satisfyWait s w hold).net = s.net ∧
    (State.satisfyWait s w hold).links = s.links ∧ (State.satisfyWait s w hold).svc = s.svc := by
  unfold State.satisfyWait
  refine ⟨?_, ?_, ?_, ?_, ?_, ?_, ?_, ?_, ?_, ?_, ?_, ?_, ?_⟩ <;> (repeat' first
    | with_reducible rfl | simp only [State.ite_frame, ite_self, State.modCtx_frame, State.modCore_frame] | (intro _ _)
    | with_reducible refine (foldl_proj _ _ ?_ _ _).trans ?_ | with_reducible refine (foldl_fst _ _ ?_ _ _).trans ?_
    | with_reducible refine (foldl_run _ _ ?_ _ _).trans ?_ | split)
@[simp] theorem State.applySemOp_frame (s : State) (core : Nat) (idx : Nat) (op : SemOp) : (State.applySemOp s core idx
    op).pending = s.pending ∧ (State.applySemOp s core idx op).draws = s.draws ∧ (State.applySemOp s core idx op).aon = s.aon ∧
    (State.applySemOp s core idx op).time = s.time ∧ (State.applySemOp s core idx op).persist = s.persist ∧ (State.applySemOp s
    core idx op).flash = s.flash ∧ (State.applySemOp s core idx op).streams = s.streams ∧ (State.applySemOp s core idx op).mem
    = s.mem ∧ (State.applySemOp s core idx op).recov = s.recov ∧ (State.applySemOp s core idx op).clotha = s.clotha ∧
    (State.applySemOp s core idx op).net = s.net ∧ (State.applySemOp s core idx op).links = s.links ∧ (State.applySemOp s core
    idx op).svc = s.svc := by
  unfold State.applySemOp
  refine ⟨?_, ?_, ?_, ?_, ?_, ?_, ?_, ?_, ?_, ?_, ?_, ?_, ?_⟩ <;> (repeat' first
    | with_reducible rfl | simp only [State.ite_frame, ite_self, State.modCore_frame, State.modCtx_frame] | (intro _ _)
    | with_reducible refine (foldl_proj _ _ ?_ _ _).trans ?_ | with_reducible refine (foldl_fst _ _ ?_ _ _).trans ?_
    | with_reducible refine (foldl_run _ _ ?_ _ _).trans ?_ | split)
@[simp] theorem State.applyTakes_frame (s : State) (core : Nat) (idx : Nat) (l : List SemWait) : (State.applyTakes s core idx
    l).pending = s.pending ∧ (State.applyTakes s core idx l).draws = s.draws ∧ (State.applyTakes s core idx l).aon = s.aon ∧
    (State.applyTakes s core idx l).time = s.time ∧ (State.applyTakes s core idx l).persist = s.persist ∧ (State.applyTakes s
    core idx l).flash = s.flash ∧ (State.applyTakes s core idx l).streams = s.streams ∧ (State.applyTakes s core idx l).mem =
    s.mem ∧ (State.applyTakes s core idx l).recov = s.recov ∧ (State.applyTakes s core idx l).clotha = s.clotha ∧
    (State.applyTakes s core idx l).net = s.net ∧ (State.applyTakes s core idx l).links = s.links ∧ (State.applyTakes s core
    idx l).svc = s.svc := by
  unfold State.applyTakes
  refine ⟨?_, ?_, ?_, ?_, ?_, ?_, ?_, ?_, ?_, ?_, ?_, ?_, ?_⟩ <;> (repeat' first
    | with_reducible rfl | simp only [State.ite_frame, ite_self, State.modCore_frame, State.satisfyWait_frame]
    | (intro _ _) | with_reducible refine (foldl_proj _ _ ?_ _ _).trans ?_
    | with_reducible refine (foldl_fst _ _ ?_ _ _).trans ?_ | with_reducible refine (foldl_run _ _ ?_ _ _).trans ?_ | split)
@[simp] theorem State.grantCtx_frame (s : State) (ctx : Nat) (n : Nat) : (State.grantCtx s ctx n).pending = s.pending ∧
    (State.grantCtx s ctx n).draws = s.draws ∧ (State.grantCtx s ctx n).aon = s.aon ∧ (State.grantCtx s ctx n).time = s.time ∧
    (State.grantCtx s ctx n).persist = s.persist ∧ (State.grantCtx s ctx n).flash = s.flash ∧ (State.grantCtx s ctx n).streams
    = s.streams ∧ (State.grantCtx s ctx n).ctxs = s.ctxs ∧ (State.grantCtx s ctx n).mem = s.mem ∧ (State.grantCtx s ctx
    n).recov = s.recov ∧ (State.grantCtx s ctx n).clotha = s.clotha ∧ (State.grantCtx s ctx n).net = s.net ∧ (State.grantCtx s
    ctx n).links = s.links ∧ (State.grantCtx s ctx n).svc = s.svc := by
  unfold State.grantCtx
  refine ⟨?_, ?_, ?_, ?_, ?_, ?_, ?_, ?_, ?_, ?_, ?_, ?_, ?_, ?_⟩ <;> (repeat' first
    | with_reducible rfl | simp only [State.ite_frame, ite_self, State.modCore_frame] | (intro _ _)
    | with_reducible refine (foldl_proj _ _ ?_ _ _).trans ?_ | with_reducible refine (foldl_fst _ _ ?_ _ _).trans ?_
    | with_reducible refine (foldl_run _ _ ?_ _ _).trans ?_ | split)
@[simp] theorem State.foldMaxAbs_frame (s : State) (ct : Ctx) (c : Cmd) : (State.foldMaxAbs s ct c).pending = s.pending ∧
    (State.foldMaxAbs s ct c).draws = s.draws ∧ (State.foldMaxAbs s ct c).aon = s.aon ∧ (State.foldMaxAbs s ct c).time = s.time
    ∧ (State.foldMaxAbs s ct c).persist = s.persist ∧ (State.foldMaxAbs s ct c).flash = s.flash ∧ (State.foldMaxAbs s ct
    c).streams = s.streams ∧ (State.foldMaxAbs s ct c).ctxs = s.ctxs ∧ (State.foldMaxAbs s ct c).recov = s.recov ∧
    (State.foldMaxAbs s ct c).clotha = s.clotha ∧ (State.foldMaxAbs s ct c).net = s.net ∧ (State.foldMaxAbs s ct c).links =
    s.links ∧ (State.foldMaxAbs s ct c).svc = s.svc := by
  unfold State.foldMaxAbs
  refine ⟨?_, ?_, ?_, ?_, ?_, ?_, ?_, ?_, ?_, ?_, ?_, ?_, ?_⟩ <;> (repeat' first
    | with_reducible rfl | simp only [State.ite_frame, ite_self, State.modCore_frame, State.updateSlot_frame] | (intro _ _)
    | with_reducible refine (foldl_proj _ _ ?_ _ _).trans ?_ | with_reducible refine (foldl_fst _ _ ?_ _ _).trans ?_
    | with_reducible refine (foldl_run _ _ ?_ _ _).trans ?_ | split)
@[simp] theorem State.countNumeric_frame (s : State) (core : Nat) (part : Nat) (c : Cmd) : (State.countNumeric s core part
    c).pending = s.pending ∧ (State.countNumeric s core part c).draws = s.draws ∧ (State.countNumeric s core part c).aon =
    s.aon ∧ (State.countNumeric s core part c).time = s.time ∧ (State.countNumeric s core part c).persist = s.persist ∧
    (State.countNumeric s core part c).flash = s.flash ∧ (State.countNumeric s core part c).streams = s.streams ∧
    (State.countNumeric s core part c).ctxs = s.ctxs ∧ (State.countNumeric s core part c).mem = s.mem ∧ (State.countNumeric s
    core part c).recov = s.recov ∧ (State.countNumeric s core part c).clotha = s.clotha ∧ (State.countNumeric s core part
    c).net = s.net ∧ (State.countNumeric s core part c).links = s.links := by
  unfold State.countNumeric
  refine ⟨?_, ?_, ?_, ?_, ?_, ?_, ?_, ?_, ?_, ?_, ?_, ?_, ?_⟩ <;> (repeat' first
    | with_reducible rfl | simp only [State.ite_frame, ite_self, State.modCore_frame, State.addEvents_frame] | (intro _ _)
    | with_reducible refine (foldl_proj _ _ ?_ _ _).trans ?_ | with_reducible refine (foldl_fst _ _ ?_ _ _).trans ?_
    | with_reducible refine (foldl_run _ _ ?_ _ _).trans ?_ | split)
@[simp] theorem State.appendFlush_frame (s : State) (id : Nat) (ct : Ctx) (d : BitVec 512) : (State.appendFlush s id ct
    d).pending = s.pending ∧ (State.appendFlush s id ct d).draws = s.draws ∧ (State.appendFlush s id ct d).aon = s.aon ∧
    (State.appendFlush s id ct d).time = s.time ∧ (State.appendFlush s id ct d).persist = s.persist ∧ (State.appendFlush s id
    ct d).flash = s.flash ∧ (State.appendFlush s id ct d).streams = s.streams ∧ (State.appendFlush s id ct d).cores = s.cores ∧
    (State.appendFlush s id ct d).recov = s.recov ∧ (State.appendFlush s id ct d).clotha = s.clotha ∧ (State.appendFlush s id
    ct d).net = s.net ∧ (State.appendFlush s id ct d).links = s.links ∧ (State.appendFlush s id ct d).svc = s.svc := by
  unfold State.appendFlush
  refine ⟨?_, ?_, ?_, ?_, ?_, ?_, ?_, ?_, ?_, ?_, ?_, ?_, ?_⟩ <;> (repeat' first
    | with_reducible rfl | simp only [State.ite_frame, ite_self, State.modCtx_frame, State.hbmWrite_frame] | (intro _ _)
    | with_reducible refine (foldl_proj _ _ ?_ _ _).trans ?_ | with_reducible refine (foldl_fst _ _ ?_ _ _).trans ?_
    | with_reducible refine (foldl_run _ _ ?_ _ _).trans ?_ | split)
@[simp] theorem State.issueFlushes_frame (s : State) (core : Nat) (x0 : List (Nat × BitVec 512)) : (State.issueFlushes s core
    x0).pending = s.pending ∧ (State.issueFlushes s core x0).draws = s.draws ∧ (State.issueFlushes s core x0).aon = s.aon ∧
    (State.issueFlushes s core x0).time = s.time ∧ (State.issueFlushes s core x0).persist = s.persist ∧ (State.issueFlushes s
    core x0).flash = s.flash ∧ (State.issueFlushes s core x0).streams = s.streams ∧ (State.issueFlushes s core x0).recov =
    s.recov ∧ (State.issueFlushes s core x0).clotha = s.clotha ∧ (State.issueFlushes s core x0).net = s.net ∧
    (State.issueFlushes s core x0).links = s.links ∧ (State.issueFlushes s core x0).svc = s.svc := by
  induction x0 generalizing s <;> unfold State.issueFlushes <;> (refine ⟨?_, ?_, ?_, ?_, ?_, ?_, ?_, ?_, ?_, ?_, ?_,
      ?_⟩ <;> (repeat' first
    | with_reducible rfl | simp only [State.ite_frame, ite_self, State.modCore_frame, State.appendFlush_frame, *]
    | (intro _ _) | with_reducible refine (foldl_proj _ _ ?_ _ _).trans ?_
    | with_reducible refine (foldl_fst _ _ ?_ _ _).trans ?_ | with_reducible refine (foldl_run _ _ ?_ _ _).trans ?_ | split))
@[simp] theorem State.swapOutFlush_frame (s : State) (core : Nat) (out : Nat) : (State.swapOutFlush s core out).pending =
    s.pending ∧ (State.swapOutFlush s core out).draws = s.draws ∧ (State.swapOutFlush s core out).aon = s.aon ∧
    (State.swapOutFlush s core out).time = s.time ∧ (State.swapOutFlush s core out).persist = s.persist ∧ (State.swapOutFlush s
    core out).flash = s.flash ∧ (State.swapOutFlush s core out).streams = s.streams ∧ (State.swapOutFlush s core out).recov =
    s.recov ∧ (State.swapOutFlush s core out).clotha = s.clotha ∧ (State.swapOutFlush s core out).net = s.net ∧
    (State.swapOutFlush s core out).links = s.links ∧ (State.swapOutFlush s core out).svc = s.svc := by
  unfold State.swapOutFlush
  refine ⟨?_, ?_, ?_, ?_, ?_, ?_, ?_, ?_, ?_, ?_, ?_, ?_⟩ <;> (repeat' first
    | with_reducible rfl | simp only [State.ite_frame, ite_self, State.issueFlushes_frame] | (intro _ _)
    | with_reducible refine (foldl_proj _ _ ?_ _ _).trans ?_ | with_reducible refine (foldl_fst _ _ ?_ _ _).trans ?_
    | with_reducible refine (foldl_run _ _ ?_ _ _).trans ?_ | split)
@[simp] theorem State.countFlush_frame (s : State) (part : Nat) (c : Cmd) : (State.countFlush s part c).pending = s.pending ∧
    (State.countFlush s part c).draws = s.draws ∧ (State.countFlush s part c).aon = s.aon ∧ (State.countFlush s part c).time =
    s.time ∧ (State.countFlush s part c).persist = s.persist ∧ (State.countFlush s part c).flash = s.flash ∧ (State.countFlush
    s part c).streams = s.streams ∧ (State.countFlush s part c).cores = s.cores ∧ (State.countFlush s part c).ctxs = s.ctxs ∧
    (State.countFlush s part c).recov = s.recov ∧ (State.countFlush s part c).clotha = s.clotha ∧ (State.countFlush s part
    c).net = s.net ∧ (State.countFlush s part c).links = s.links ∧ (State.countFlush s part c).svc = s.svc := by
  unfold State.countFlush
  refine ⟨?_, ?_, ?_, ?_, ?_, ?_, ?_, ?_, ?_, ?_, ?_, ?_, ?_, ?_⟩ <;> (repeat' first
    | with_reducible rfl | simp only [State.ite_frame, ite_self, State.kvCount_frame] | (intro _ _)
    | with_reducible refine (foldl_proj _ _ ?_ _ _).trans ?_ | with_reducible refine (foldl_fst _ _ ?_ _ _).trans ?_
    | with_reducible refine (foldl_run _ _ ?_ _ _).trans ?_ | split)
@[simp] theorem State.complete_frame (s : State) (core : Nat) (ct : Ctx) (c : Cmd) : (State.complete s core ct c).pending =
    s.pending ∧ (State.complete s core ct c).draws = s.draws ∧ (State.complete s core ct c).aon = s.aon ∧ (State.complete s
    core ct c).time = s.time ∧ (State.complete s core ct c).persist = s.persist ∧ (State.complete s core ct c).flash = s.flash
    ∧ (State.complete s core ct c).streams = s.streams ∧ (State.complete s core ct c).recov = s.recov ∧ (State.complete s core
    ct c).clotha = s.clotha ∧ (State.complete s core ct c).net = s.net ∧ (State.complete s core ct c).links = s.links := by
  unfold State.complete
  refine ⟨?_, ?_, ?_, ?_, ?_, ?_, ?_, ?_, ?_, ?_, ?_⟩ <;> (repeat' first
    | with_reducible rfl
    | simp only [State.ite_frame, ite_self, State.fillSlot_frame, State.drainSlot_frame, State.foldMaxAbs_frame,
      State.countFlush_frame, State.countNumeric_frame, State.modCore_frame, State.modCtx_frame, State.charge_frame,
      State.writeRecord_frame, State.modJob_frame, State.markFenced_frame, State.progress_frame, State.semsetSignal_frame]
    | (intro _ _) | with_reducible refine (foldl_proj _ _ ?_ _ _).trans ?_
    | with_reducible refine (foldl_fst _ _ ?_ _ _).trans ?_ | with_reducible refine (foldl_run _ _ ?_ _ _).trans ?_ | split)
@[simp] theorem State.makeRound_frame (s : State) (core : Nat) (h : ReadyStep) (ctxId : Nat) (ct : Ctx) : (State.makeRound s
    core h ctxId ct).pending = s.pending ∧ (State.makeRound s core h ctxId ct).draws = s.draws ∧ (State.makeRound s core h
    ctxId ct).aon = s.aon ∧ (State.makeRound s core h ctxId ct).time = s.time ∧ (State.makeRound s core h ctxId ct).persist =
    s.persist ∧ (State.makeRound s core h ctxId ct).flash = s.flash ∧ (State.makeRound s core h ctxId ct).recov = s.recov ∧
    (State.makeRound s core h ctxId ct).clotha = s.clotha ∧ (State.makeRound s core h ctxId ct).net = s.net ∧ (State.makeRound
    s core h ctxId ct).links = s.links := by
  unfold State.makeRound
  refine ⟨?_, ?_, ?_, ?_, ?_, ?_, ?_, ?_, ?_, ?_⟩ <;> (repeat' first
    | with_reducible rfl
    | simp only [State.ite_frame, ite_self, State.modCore_frame, State.modChunk_frame, State.modStream_frame,
      State.modCtx_frame, State.hbmWrite_frame] | (intro _ _) | with_reducible refine (foldl_proj _ _ ?_ _ _).trans ?_
    | with_reducible refine (foldl_fst _ _ ?_ _ _).trans ?_ | with_reducible refine (foldl_run _ _ ?_ _ _).trans ?_ | split)
@[simp] theorem State.yieldRound_frame (s : State) (core : Nat) (r : Round) (ct : Ctx) : (State.yieldRound s core r ct).pending
    = s.pending ∧ (State.yieldRound s core r ct).draws = s.draws ∧ (State.yieldRound s core r ct).aon = s.aon ∧
    (State.yieldRound s core r ct).time = s.time ∧ (State.yieldRound s core r ct).persist = s.persist ∧ (State.yieldRound s
    core r ct).flash = s.flash ∧ (State.yieldRound s core r ct).recov = s.recov ∧ (State.yieldRound s core r ct).clotha =
    s.clotha ∧ (State.yieldRound s core r ct).net = s.net ∧ (State.yieldRound s core r ct).links = s.links ∧ (State.yieldRound
    s core r ct).svc = s.svc := by
  unfold State.yieldRound
  refine ⟨?_, ?_, ?_, ?_, ?_, ?_, ?_, ?_, ?_, ?_, ?_⟩ <;> (repeat' first
    | with_reducible rfl
    | simp only [State.ite_frame, ite_self, State.writeRecord_frame, State.modCore_frame, State.discardQueue_frame,
      State.dropWaits_frame, State.modCtx_frame, State.dropCredits_frame, State.stopChannels_frame,
      State.returnSteps_frame] | (intro _ _) | with_reducible refine (foldl_proj _ _ ?_ _ _).trans ?_
    | with_reducible refine (foldl_fst _ _ ?_ _ _).trans ?_ | with_reducible refine (foldl_run _ _ ?_ _ _).trans ?_ | split)
@[simp] theorem State.quietCtx_frame (s : State) (ctxId : Nat) (core : Nat) : (State.quietCtx s ctxId core).pending = s.pending
    ∧ (State.quietCtx s ctxId core).draws = s.draws ∧ (State.quietCtx s ctxId core).aon = s.aon ∧ (State.quietCtx s ctxId
    core).time = s.time ∧ (State.quietCtx s ctxId core).persist = s.persist ∧ (State.quietCtx s ctxId core).flash = s.flash ∧
    (State.quietCtx s ctxId core).streams = s.streams ∧ (State.quietCtx s ctxId core).mem = s.mem ∧ (State.quietCtx s ctxId
    core).recov = s.recov ∧ (State.quietCtx s ctxId core).clotha = s.clotha ∧ (State.quietCtx s ctxId core).net = s.net ∧
    (State.quietCtx s ctxId core).links = s.links ∧ (State.quietCtx s ctxId core).svc = s.svc := by
  unfold State.quietCtx
  refine ⟨?_, ?_, ?_, ?_, ?_, ?_, ?_, ?_, ?_, ?_, ?_, ?_, ?_⟩ <;> (repeat' first
    | with_reducible rfl
    | simp only [State.ite_frame, ite_self, State.purgeItems_frame, State.modCore_frame, State.stopChannels_frame,
      State.dropCredits_frame, State.dropWaits_frame] | (intro _ _)
    | with_reducible refine (foldl_proj _ _ ?_ _ _).trans ?_ | with_reducible refine (foldl_fst _ _ ?_ _ _).trans ?_
    | with_reducible refine (foldl_run _ _ ?_ _ _).trans ?_ | split)
@[simp] theorem State.feedQueues_frame (s : State) (core : Nat) : (State.feedQueues s core).pending = s.pending ∧
    (State.feedQueues s core).draws = s.draws ∧ (State.feedQueues s core).aon = s.aon ∧ (State.feedQueues s core).time = s.time
    ∧ (State.feedQueues s core).persist = s.persist ∧ (State.feedQueues s core).flash = s.flash ∧ (State.feedQueues s
    core).streams = s.streams ∧ (State.feedQueues s core).ctxs = s.ctxs ∧ (State.feedQueues s core).mem = s.mem ∧
    (State.feedQueues s core).recov = s.recov ∧ (State.feedQueues s core).clotha = s.clotha ∧ (State.feedQueues s core).net =
    s.net ∧ (State.feedQueues s core).links = s.links ∧ (State.feedQueues s core).svc = s.svc := by
  unfold State.feedQueues
  refine ⟨?_, ?_, ?_, ?_, ?_, ?_, ?_, ?_, ?_, ?_, ?_, ?_, ?_, ?_⟩ <;> (repeat' first
    | with_reducible rfl | simp only [State.ite_frame, ite_self, State.modCmd_frame, State.modEngine_frame] | (intro _ _)
    | with_reducible refine (foldl_proj _ _ ?_ _ _).trans ?_ | with_reducible refine (foldl_fst _ _ ?_ _ _).trans ?_
    | with_reducible refine (foldl_run _ _ ?_ _ _).trans ?_ | split)
@[simp] theorem State.noEngine_frame (s : State) (core : Nat) (c : Cmd) : (State.noEngine s core c).pending = s.pending ∧
    (State.noEngine s core c).draws = s.draws ∧ (State.noEngine s core c).aon = s.aon ∧ (State.noEngine s core c).time = s.time
    ∧ (State.noEngine s core c).persist = s.persist ∧ (State.noEngine s core c).flash = s.flash ∧ (State.noEngine s core
    c).streams = s.streams ∧ (State.noEngine s core c).ctxs = s.ctxs ∧ (State.noEngine s core c).mem = s.mem ∧ (State.noEngine
    s core c).recov = s.recov ∧ (State.noEngine s core c).clotha = s.clotha ∧ (State.noEngine s core c).net = s.net ∧
    (State.noEngine s core c).links = s.links ∧ (State.noEngine s core c).svc = s.svc := by
  unfold State.noEngine
  refine ⟨?_, ?_, ?_, ?_, ?_, ?_, ?_, ?_, ?_, ?_, ?_, ?_, ?_, ?_⟩ <;> (repeat' first
    | with_reducible rfl | simp only [State.ite_frame, ite_self, State.modCores_frame, State.modCmd_frame] | (intro _ _)
    | with_reducible refine (foldl_proj _ _ ?_ _ _).trans ?_ | with_reducible refine (foldl_fst _ _ ?_ _ _).trans ?_
    | with_reducible refine (foldl_run _ _ ?_ _ _).trans ?_ | split)
@[simp] theorem State.issueStage_frame (s : State) (core : Nat) (c : Cmd) : (State.issueStage s core c).pending = s.pending ∧
    (State.issueStage s core c).draws = s.draws ∧ (State.issueStage s core c).aon = s.aon ∧ (State.issueStage s core c).time =
    s.time ∧ (State.issueStage s core c).persist = s.persist ∧ (State.issueStage s core c).flash = s.flash ∧ (State.issueStage
    s core c).streams = s.streams ∧ (State.issueStage s core c).ctxs = s.ctxs ∧ (State.issueStage s core c).mem = s.mem ∧
    (State.issueStage s core c).recov = s.recov ∧ (State.issueStage s core c).clotha = s.clotha ∧ (State.issueStage s core
    c).net = s.net ∧ (State.issueStage s core c).links = s.links ∧ (State.issueStage s core c).svc = s.svc := by
  unfold State.issueStage
  refine ⟨?_, ?_, ?_, ?_, ?_, ?_, ?_, ?_, ?_, ?_, ?_, ?_, ?_, ?_⟩ <;> (repeat' first
    | with_reducible rfl
    | simp only [State.ite_frame, ite_self, State.noEngine_frame, State.modCmd_frame, State.progress_frame,
      State.feedQueues_frame] | (intro _ _) | with_reducible refine (foldl_proj _ _ ?_ _ _).trans ?_
    | with_reducible refine (foldl_fst _ _ ?_ _ _).trans ?_ | with_reducible refine (foldl_run _ _ ?_ _ _).trans ?_ | split)
@[simp] theorem State.chargeItem_frame (s : State) (eng : Nat) (w : WorkItem) (rerun : Bool) : (State.chargeItem s eng w
    rerun).pending = s.pending ∧ (State.chargeItem s eng w rerun).draws = s.draws ∧ (State.chargeItem s eng w rerun).aon =
    s.aon ∧ (State.chargeItem s eng w rerun).time = s.time ∧ (State.chargeItem s eng w rerun).persist = s.persist ∧
    (State.chargeItem s eng w rerun).flash = s.flash ∧ (State.chargeItem s eng w rerun).streams = s.streams ∧ (State.chargeItem
    s eng w rerun).ctxs = s.ctxs ∧ (State.chargeItem s eng w rerun).mem = s.mem ∧ (State.chargeItem s eng w rerun).recov =
    s.recov ∧ (State.chargeItem s eng w rerun).clotha = s.clotha ∧ (State.chargeItem s eng w rerun).net = s.net ∧
    (State.chargeItem s eng w rerun).links = s.links ∧ (State.chargeItem s eng w rerun).svc = s.svc := by
  unfold State.chargeItem
  refine ⟨?_, ?_, ?_, ?_, ?_, ?_, ?_, ?_, ?_, ?_, ?_, ?_, ?_, ?_⟩ <;> (repeat' first
    | with_reducible rfl | simp only [State.ite_frame, ite_self, State.modCores_frame] | (intro _ _)
    | with_reducible refine (foldl_proj _ _ ?_ _ _).trans ?_ | with_reducible refine (foldl_fst _ _ ?_ _ _).trans ?_
    | with_reducible refine (foldl_run _ _ ?_ _ _).trans ?_ | split)
@[simp] theorem State.itemDone_frame (s : State) (core : Nat) (e : Nat) (w : WorkItem) (status : Word16) (maxAbs : Frac) :
    (State.itemDone s core e w status maxAbs).pending = s.pending ∧ (State.itemDone s core e w status maxAbs).draws = s.draws ∧
    (State.itemDone s core e w status maxAbs).aon = s.aon ∧ (State.itemDone s core e w status maxAbs).time = s.time ∧
    (State.itemDone s core e w status maxAbs).persist = s.persist ∧ (State.itemDone s core e w status maxAbs).flash = s.flash ∧
    (State.itemDone s core e w status maxAbs).streams = s.streams ∧ (State.itemDone s core e w status maxAbs).ctxs = s.ctxs ∧
    (State.itemDone s core e w status maxAbs).mem = s.mem ∧ (State.itemDone s core e w status maxAbs).recov = s.recov ∧
    (State.itemDone s core e w status maxAbs).clotha = s.clotha ∧ (State.itemDone s core e w status maxAbs).net = s.net ∧
    (State.itemDone s core e w status maxAbs).links = s.links ∧ (State.itemDone s core e w status maxAbs).svc = s.svc := by
  unfold State.itemDone
  refine ⟨?_, ?_, ?_, ?_, ?_, ?_, ?_, ?_, ?_, ?_, ?_, ?_, ?_, ?_⟩ <;> (repeat' first
    | with_reducible rfl
    | simp only [State.ite_frame, ite_self, State.chargeItem_frame, State.modCmdOf_frame, State.progress_frame,
      State.feedQueues_frame] | (intro _ _) | with_reducible refine (foldl_proj _ _ ?_ _ _).trans ?_
    | with_reducible refine (foldl_fst _ _ ?_ _ _).trans ?_ | with_reducible refine (foldl_run _ _ ?_ _ _).trans ?_ | split)
@[simp] theorem State.requeue_frame (s : State) (l : List WorkItem) : (State.requeue s l).pending = s.pending ∧ (State.requeue
    s l).draws = s.draws ∧ (State.requeue s l).aon = s.aon ∧ (State.requeue s l).time = s.time ∧ (State.requeue s l).persist =
    s.persist ∧ (State.requeue s l).flash = s.flash ∧ (State.requeue s l).streams = s.streams ∧ (State.requeue s l).ctxs =
    s.ctxs ∧ (State.requeue s l).mem = s.mem ∧ (State.requeue s l).recov = s.recov ∧ (State.requeue s l).clotha = s.clotha ∧
    (State.requeue s l).net = s.net ∧ (State.requeue s l).links = s.links ∧ (State.requeue s l).svc = s.svc := by
  unfold State.requeue
  refine ⟨?_, ?_, ?_, ?_, ?_, ?_, ?_, ?_, ?_, ?_, ?_, ?_, ?_, ?_⟩ <;> (repeat' first
    | with_reducible rfl | simp only [State.ite_frame, ite_self, State.modCore_frame] | (intro _ _)
    | with_reducible refine (foldl_proj _ _ ?_ _ _).trans ?_ | with_reducible refine (foldl_fst _ _ ?_ _ _).trans ?_
    | with_reducible refine (foldl_run _ _ ?_ _ _).trans ?_ | split)
@[simp] theorem State.quarantine_frame (s : State) (core : Nat) (e : Nat) : (State.quarantine s core e).pending = s.pending ∧
    (State.quarantine s core e).draws = s.draws ∧ (State.quarantine s core e).time = s.time ∧ (State.quarantine s core e).flash
    = s.flash ∧ (State.quarantine s core e).ctxs = s.ctxs ∧ (State.quarantine s core e).mem = s.mem ∧ (State.quarantine s core
    e).net = s.net ∧ (State.quarantine s core e).links = s.links ∧ (State.quarantine s core e).svc = s.svc := by
  unfold State.quarantine
  refine ⟨?_, ?_, ?_, ?_, ?_, ?_, ?_, ?_, ?_⟩ <;> (repeat' first
    | with_reducible rfl
    | simp only [State.ite_frame, ite_self, State.commitPersist_frame, State.modEngine_frame, State.modCore_frame,
      State.requeue_frame, State.noEngine_frame, State.checkOvercommit_frame, State.logEvent_frame, State.alertSet_frame]
    | (intro _ _) | with_reducible refine (foldl_proj _ _ ?_ _ _).trans ?_
    | with_reducible refine (foldl_fst _ _ ?_ _ _).trans ?_ | with_reducible refine (foldl_run _ _ ?_ _ _).trans ?_ | split)
@[simp] theorem State.mismatch_frame (s : State) (eng : Nat) : (State.mismatch s eng).pending = s.pending ∧ (State.mismatch s
    eng).draws = s.draws ∧ (State.mismatch s eng).time = s.time ∧ (State.mismatch s eng).flash = s.flash ∧ (State.mismatch s
    eng).ctxs = s.ctxs ∧ (State.mismatch s eng).mem = s.mem ∧ (State.mismatch s eng).net = s.net ∧ (State.mismatch s eng).links
    = s.links ∧ (State.mismatch s eng).svc = s.svc := by
  unfold State.mismatch
  refine ⟨?_, ?_, ?_, ?_, ?_, ?_, ?_, ?_, ?_⟩ <;> (repeat' first
    | with_reducible rfl | simp only [State.ite_frame, ite_self, State.modCore_frame, State.quarantine_frame] | (intro _ _)
    | with_reducible refine (foldl_proj _ _ ?_ _ _).trans ?_ | with_reducible refine (foldl_fst _ _ ?_ _ _).trans ?_
    | with_reducible refine (foldl_run _ _ ?_ _ _).trans ?_ | split)
@[simp] theorem State.bellQueue_frame (s : State) (c : Cmd) (core : Nat) (e : Nat) (w : WorkItem) : (State.bellQueue s c core e
    w).1.pending = s.pending ∧ (State.bellQueue s c core e w).1.draws = s.draws ∧ (State.bellQueue s c core e w).1.aon = s.aon
    ∧ (State.bellQueue s c core e w).1.time = s.time ∧ (State.bellQueue s c core e w).1.persist = s.persist ∧ (State.bellQueue
    s c core e w).1.flash = s.flash ∧ (State.bellQueue s c core e w).1.streams = s.streams ∧ (State.bellQueue s c core e
    w).1.ctxs = s.ctxs ∧ (State.bellQueue s c core e w).1.mem = s.mem ∧ (State.bellQueue s c core e w).1.recov = s.recov ∧
    (State.bellQueue s c core e w).1.clotha = s.clotha ∧ (State.bellQueue s c core e w).1.net = s.net ∧ (State.bellQueue s c
    core e w).1.links = s.links ∧ (State.bellQueue s c core e w).1.svc = s.svc := by
  unfold State.bellQueue
  refine ⟨?_, ?_, ?_, ?_, ?_, ?_, ?_, ?_, ?_, ?_, ?_, ?_, ?_, ?_⟩ <;> (repeat' first
    | with_reducible rfl | simp only [State.ite_frame, ite_self, State.modEngine_frame] | (intro _ _)
    | with_reducible refine (foldl_proj _ _ ?_ _ _).trans ?_ | with_reducible refine (foldl_fst _ _ ?_ _ _).trans ?_
    | with_reducible refine (foldl_run _ _ ?_ _ _).trans ?_ | split)
@[simp] theorem State.lookAhead_frame (s : State) (core : Nat) (e : Nat) : (State.lookAhead s core e).pending = s.pending ∧
    (State.lookAhead s core e).draws = s.draws ∧ (State.lookAhead s core e).aon = s.aon ∧ (State.lookAhead s core e).time =
    s.time ∧ (State.lookAhead s core e).persist = s.persist ∧ (State.lookAhead s core e).flash = s.flash ∧ (State.lookAhead s
    core e).streams = s.streams ∧ (State.lookAhead s core e).ctxs = s.ctxs ∧ (State.lookAhead s core e).mem = s.mem ∧
    (State.lookAhead s core e).recov = s.recov ∧ (State.lookAhead s core e).clotha = s.clotha ∧ (State.lookAhead s core e).net
    = s.net ∧ (State.lookAhead s core e).links = s.links ∧ (State.lookAhead s core e).svc = s.svc := by
  unfold State.lookAhead
  refine ⟨?_, ?_, ?_, ?_, ?_, ?_, ?_, ?_, ?_, ?_, ?_, ?_, ?_, ?_⟩ <;> (repeat' first
    | with_reducible rfl | simp only [State.ite_frame, ite_self, State.bellQueue_frame] | (intro _ _)
    | with_reducible refine (foldl_proj _ _ ?_ _ _).trans ?_ | with_reducible refine (foldl_fst _ _ ?_ _ _).trans ?_
    | with_reducible refine (foldl_run _ _ ?_ _ _).trans ?_ | split)
@[simp] theorem State.issueExt_frame (s : State) (core : Nat) (e : Nat) (rows : List (List (List Nat))) : (State.issueExt s
    core e rows).pending = s.pending ∧ (State.issueExt s core e rows).draws = s.draws ∧ (State.issueExt s core e rows).aon =
    s.aon ∧ (State.issueExt s core e rows).time = s.time ∧ (State.issueExt s core e rows).persist = s.persist ∧ (State.issueExt
    s core e rows).flash = s.flash ∧ (State.issueExt s core e rows).streams = s.streams ∧ (State.issueExt s core e rows).ctxs =
    s.ctxs ∧ (State.issueExt s core e rows).mem = s.mem ∧ (State.issueExt s core e rows).recov = s.recov ∧ (State.issueExt s
    core e rows).clotha = s.clotha ∧ (State.issueExt s core e rows).net = s.net ∧ (State.issueExt s core e rows).links =
    s.links ∧ (State.issueExt s core e rows).svc = s.svc := by
  unfold State.issueExt
  refine ⟨?_, ?_, ?_, ?_, ?_, ?_, ?_, ?_, ?_, ?_, ?_, ?_, ?_, ?_⟩ <;> (repeat' first
    | with_reducible rfl | simp only [State.ite_frame, ite_self, State.takeTag_frame, State.modEngine_frame] | (intro _ _)
    | with_reducible refine (foldl_proj _ _ ?_ _ _).trans ?_ | with_reducible refine (foldl_fst _ _ ?_ _ _).trans ?_
    | with_reducible refine (foldl_run _ _ ?_ _ _).trans ?_ | split)
@[simp] theorem State.bellDecode_frame (s : State) (core : Nat) (e : Nat) (w : WorkItem) (rows : List (List (List Nat))) (n :
    Nat) : (State.bellDecode s core e w rows n).pending = s.pending ∧ (State.bellDecode s core e w rows n).draws = s.draws ∧
    (State.bellDecode s core e w rows n).aon = s.aon ∧ (State.bellDecode s core e w rows n).time = s.time ∧ (State.bellDecode s
    core e w rows n).persist = s.persist ∧ (State.bellDecode s core e w rows n).flash = s.flash ∧ (State.bellDecode s core e w
    rows n).streams = s.streams ∧ (State.bellDecode s core e w rows n).ctxs = s.ctxs ∧ (State.bellDecode s core e w rows n).mem
    = s.mem ∧ (State.bellDecode s core e w rows n).recov = s.recov ∧ (State.bellDecode s core e w rows n).clotha = s.clotha ∧
    (State.bellDecode s core e w rows n).net = s.net ∧ (State.bellDecode s core e w rows n).links = s.links ∧ (State.bellDecode
    s core e w rows n).svc = s.svc := by
  unfold State.bellDecode
  refine ⟨?_, ?_, ?_, ?_, ?_, ?_, ?_, ?_, ?_, ?_, ?_, ?_, ?_, ?_⟩ <;> (repeat' first
    | with_reducible rfl | simp only [State.ite_frame, ite_self, State.modEngine_frame, State.progress_frame] | (intro _ _)
    | with_reducible refine (foldl_proj _ _ ?_ _ _).trans ?_ | with_reducible refine (foldl_fst _ _ ?_ _ _).trans ?_
    | with_reducible refine (foldl_run _ _ ?_ _ _).trans ?_ | split)
@[simp] theorem State.bellReach_frame (s : State) (c : Cmd) (core : Nat) (e : Nat) (w : WorkItem) (upTo : Nat) :
    (State.bellReach s c core e w upTo).1.pending = s.pending ∧ (State.bellReach s c core e w upTo).1.draws = s.draws ∧
    (State.bellReach s c core e w upTo).1.aon = s.aon ∧ (State.bellReach s c core e w upTo).1.time = s.time ∧ (State.bellReach
    s c core e w upTo).1.persist = s.persist ∧ (State.bellReach s c core e w upTo).1.flash = s.flash ∧ (State.bellReach s c
    core e w upTo).1.streams = s.streams ∧ (State.bellReach s c core e w upTo).1.ctxs = s.ctxs ∧ (State.bellReach s c core e w
    upTo).1.mem = s.mem ∧ (State.bellReach s c core e w upTo).1.recov = s.recov ∧ (State.bellReach s c core e w upTo).1.clotha
    = s.clotha ∧ (State.bellReach s c core e w upTo).1.net = s.net ∧ (State.bellReach s c core e w upTo).1.links = s.links ∧
    (State.bellReach s c core e w upTo).1.svc = s.svc := by
  unfold State.bellReach
  refine ⟨?_, ?_, ?_, ?_, ?_, ?_, ?_, ?_, ?_, ?_, ?_, ?_, ?_, ?_⟩ <;> (repeat' first
    | with_reducible rfl | simp only [State.ite_frame, ite_self, State.bellDecode_frame, State.issueExt_frame]
    | (intro _ _) | with_reducible refine (foldl_proj _ _ ?_ _ _).trans ?_
    | with_reducible refine (foldl_fst _ _ ?_ _ _).trans ?_ | with_reducible refine (foldl_run _ _ ?_ _ _).trans ?_ | split)
@[simp] theorem State.startItem_frame (s : State) (c : Cmd) (core : Nat) (e : Nat) (i : Nat) (segs : Nat) (w : WorkItem)
    (record : List Byte) : (State.startItem s c core e i segs w record).pending = s.pending ∧ (State.startItem s c core e i
    segs w record).draws = s.draws ∧ (State.startItem s c core e i segs w record).aon = s.aon ∧ (State.startItem s c core e i
    segs w record).time = s.time ∧ (State.startItem s c core e i segs w record).persist = s.persist ∧ (State.startItem s c core
    e i segs w record).flash = s.flash ∧ (State.startItem s c core e i segs w record).streams = s.streams ∧ (State.startItem s
    c core e i segs w record).ctxs = s.ctxs ∧ (State.startItem s c core e i segs w record).mem = s.mem ∧ (State.startItem s c
    core e i segs w record).recov = s.recov ∧ (State.startItem s c core e i segs w record).clotha = s.clotha ∧ (State.startItem
    s c core e i segs w record).net = s.net ∧ (State.startItem s c core e i segs w record).links = s.links ∧ (State.startItem s
    c core e i segs w record).svc = s.svc := by
  unfold State.startItem
  refine ⟨?_, ?_, ?_, ?_, ?_, ?_, ?_, ?_, ?_, ?_, ?_, ?_, ?_, ?_⟩ <;> (repeat' first
    | with_reducible rfl
    | simp only [State.ite_frame, ite_self, State.modEngine_frame, State.lookAhead_frame, State.issueExt_frame]
    | (intro _ _) | with_reducible refine (foldl_proj _ _ ?_ _ _).trans ?_
    | with_reducible refine (foldl_fst _ _ ?_ _ _).trans ?_ | with_reducible refine (foldl_run _ _ ?_ _ _).trans ?_ | split)
@[simp] theorem State.giveItem_frame (s : State) (core : Nat) (e : Nat) (w : WorkItem) : (State.giveItem s core e w).pending =
    s.pending ∧ (State.giveItem s core e w).draws = s.draws ∧ (State.giveItem s core e w).aon = s.aon ∧ (State.giveItem s core
    e w).time = s.time ∧ (State.giveItem s core e w).persist = s.persist ∧ (State.giveItem s core e w).flash = s.flash ∧
    (State.giveItem s core e w).streams = s.streams ∧ (State.giveItem s core e w).ctxs = s.ctxs ∧ (State.giveItem s core e
    w).mem = s.mem ∧ (State.giveItem s core e w).recov = s.recov ∧ (State.giveItem s core e w).clotha = s.clotha ∧
    (State.giveItem s core e w).net = s.net ∧ (State.giveItem s core e w).links = s.links ∧ (State.giveItem s core e w).svc =
    s.svc := by
  unfold State.giveItem
  refine ⟨?_, ?_, ?_, ?_, ?_, ?_, ?_, ?_, ?_, ?_, ?_, ?_, ?_, ?_⟩ <;> (repeat' first
    | with_reducible rfl | simp only [State.ite_frame, ite_self, State.modEngine_frame, State.modCmdOf_frame] | (intro _ _)
    | with_reducible refine (foldl_proj _ _ ?_ _ _).trans ?_ | with_reducible refine (foldl_fst _ _ ?_ _ _).trans ?_
    | with_reducible refine (foldl_run _ _ ?_ _ _).trans ?_ | split)
@[simp] theorem State.fillFinds_frame (s : State) (c : Cmd) (core : Nat) (e : Nat) (w : WorkItem) (errs : BoreErrs) :
    (State.fillFinds s c core e w errs).pending = s.pending ∧ (State.fillFinds s c core e w errs).draws = s.draws ∧
    (State.fillFinds s c core e w errs).aon = s.aon ∧ (State.fillFinds s c core e w errs).time = s.time ∧ (State.fillFinds s c
    core e w errs).persist = s.persist ∧ (State.fillFinds s c core e w errs).flash = s.flash ∧ (State.fillFinds s c core e w
    errs).streams = s.streams ∧ (State.fillFinds s c core e w errs).ctxs = s.ctxs ∧ (State.fillFinds s c core e w errs).mem =
    s.mem ∧ (State.fillFinds s c core e w errs).recov = s.recov ∧ (State.fillFinds s c core e w errs).clotha = s.clotha ∧
    (State.fillFinds s c core e w errs).net = s.net ∧ (State.fillFinds s c core e w errs).links = s.links ∧ (State.fillFinds s
    c core e w errs).svc = s.svc := by
  unfold State.fillFinds
  refine ⟨?_, ?_, ?_, ?_, ?_, ?_, ?_, ?_, ?_, ?_, ?_, ?_, ?_, ?_⟩ <;> (repeat' first
    | with_reducible rfl | simp only [State.ite_frame, ite_self, State.boreFinds_frame] | (intro _ _)
    | with_reducible refine (foldl_proj _ _ ?_ _ _).trans ?_ | with_reducible refine (foldl_fst _ _ ?_ _ _).trans ?_
    | with_reducible refine (foldl_run _ _ ?_ _ _).trans ?_ | split)
@[simp] theorem State.failTile_frame (s : State) (core : Nat) (e : Nat) (w : WorkItem) : (State.failTile s core e w).pending =
    s.pending ∧ (State.failTile s core e w).draws = s.draws ∧ (State.failTile s core e w).aon = s.aon ∧ (State.failTile s core
    e w).time = s.time ∧ (State.failTile s core e w).persist = s.persist ∧ (State.failTile s core e w).flash = s.flash ∧
    (State.failTile s core e w).streams = s.streams ∧ (State.failTile s core e w).ctxs = s.ctxs ∧ (State.failTile s core e
    w).mem = s.mem ∧ (State.failTile s core e w).recov = s.recov ∧ (State.failTile s core e w).clotha = s.clotha ∧
    (State.failTile s core e w).net = s.net ∧ (State.failTile s core e w).links = s.links ∧ (State.failTile s core e w).svc =
    s.svc := by
  unfold State.failTile
  refine ⟨?_, ?_, ?_, ?_, ?_, ?_, ?_, ?_, ?_, ?_, ?_, ?_, ?_, ?_⟩ <;> (repeat' first
    | with_reducible rfl
    | simp only [State.ite_frame, ite_self, State.modEngine_frame, State.chargeItem_frame, State.modCmdOf_frame,
      State.modCore_frame] | (intro _ _) | with_reducible refine (foldl_proj _ _ ?_ _ _).trans ?_
    | with_reducible refine (foldl_fst _ _ ?_ _ _).trans ?_ | with_reducible refine (foldl_run _ _ ?_ _ _).trans ?_ | split)
@[simp] theorem State.unresolved_frame (s : State) (eng : Nat) (w : WorkItem) : (State.unresolved s eng w).pending = s.pending
    ∧ (State.unresolved s eng w).draws = s.draws ∧ (State.unresolved s eng w).aon = s.aon ∧ (State.unresolved s eng w).time =
    s.time ∧ (State.unresolved s eng w).persist = s.persist ∧ (State.unresolved s eng w).flash = s.flash ∧ (State.unresolved s
    eng w).streams = s.streams ∧ (State.unresolved s eng w).ctxs = s.ctxs ∧ (State.unresolved s eng w).mem = s.mem ∧
    (State.unresolved s eng w).clotha = s.clotha ∧ (State.unresolved s eng w).net = s.net ∧ (State.unresolved s eng w).links =
    s.links ∧ (State.unresolved s eng w).svc = s.svc := by
  unfold State.unresolved
  refine ⟨?_, ?_, ?_, ?_, ?_, ?_, ?_, ?_, ?_, ?_, ?_, ?_, ?_⟩ <;> (repeat' first
    | with_reducible rfl | simp only [State.ite_frame, ite_self, State.logEvent_frame, State.modCore_frame] | (intro _ _)
    | with_reducible refine (foldl_proj _ _ ?_ _ _).trans ?_ | with_reducible refine (foldl_fst _ _ ?_ _ _).trans ?_
    | with_reducible refine (foldl_run _ _ ?_ _ _).trans ?_ | split)
@[simp] theorem State.fillDone_frame (s : State) (core : Nat) (e : Nat) (i : Nat) (w : WorkItem) (d : Nat) (rows : List (List
    Word32)) (status : Word16) : (State.fillDone s core e i w d rows status).pending = s.pending ∧ (State.fillDone s core e i w
    d rows status).draws = s.draws ∧ (State.fillDone s core e i w d rows status).time = s.time ∧ (State.fillDone s core e i w d
    rows status).flash = s.flash ∧ (State.fillDone s core e i w d rows status).ctxs = s.ctxs ∧ (State.fillDone s core e i w d
    rows status).mem = s.mem ∧ (State.fillDone s core e i w d rows status).net = s.net ∧ (State.fillDone s core e i w d rows
    status).links = s.links ∧ (State.fillDone s core e i w d rows status).svc = s.svc := by
  unfold State.fillDone
  refine ⟨?_, ?_, ?_, ?_, ?_, ?_, ?_, ?_, ?_⟩ <;> (repeat' first
    | with_reducible rfl | simp only [State.ite_frame, ite_self, State.modEngine_frame, State.mismatch_frame] | (intro _ _)
    | with_reducible refine (foldl_proj _ _ ?_ _ _).trans ?_ | with_reducible refine (foldl_fst _ _ ?_ _ _).trans ?_
    | with_reducible refine (foldl_run _ _ ?_ _ _).trans ?_ | split)
@[simp] theorem State.bellWaits_frame (s : State) (c : Cmd) (core : Nat) (e : Nat) (w : WorkItem) : (State.bellWaits s c core e
    w).pending = s.pending ∧ (State.bellWaits s c core e w).draws = s.draws ∧ (State.bellWaits s c core e w).aon = s.aon ∧
    (State.bellWaits s c core e w).time = s.time ∧ (State.bellWaits s c core e w).persist = s.persist ∧ (State.bellWaits s c
    core e w).flash = s.flash ∧ (State.bellWaits s c core e w).streams = s.streams ∧ (State.bellWaits s c core e w).ctxs =
    s.ctxs ∧ (State.bellWaits s c core e w).mem = s.mem ∧ (State.bellWaits s c core e w).recov = s.recov ∧ (State.bellWaits s c
    core e w).clotha = s.clotha ∧ (State.bellWaits s c core e w).net = s.net ∧ (State.bellWaits s c core e w).links = s.links ∧
    (State.bellWaits s c core e w).svc = s.svc := by
  unfold State.bellWaits
  refine ⟨?_, ?_, ?_, ?_, ?_, ?_, ?_, ?_, ?_, ?_, ?_, ?_, ?_, ?_⟩ <;> (repeat' first
    | with_reducible rfl | simp only [State.ite_frame, ite_self, State.modEngine_frame] | (intro _ _)
    | with_reducible refine (foldl_proj _ _ ?_ _ _).trans ?_ | with_reducible refine (foldl_fst _ _ ?_ _ _).trans ?_
    | with_reducible refine (foldl_run _ _ ?_ _ _).trans ?_ | split)
@[simp] theorem State.convertTile_frame (s : State) (c : Cmd) (core : Nat) (e : Nat) (i : Nat) (w : WorkItem) (a : AccSet) :
    (State.convertTile s c core e i w a).pending = s.pending ∧ (State.convertTile s c core e i w a).draws = s.draws ∧
    (State.convertTile s c core e i w a).aon = s.aon ∧ (State.convertTile s c core e i w a).time = s.time ∧ (State.convertTile
    s c core e i w a).persist = s.persist ∧ (State.convertTile s c core e i w a).flash = s.flash ∧ (State.convertTile s c core
    e i w a).streams = s.streams ∧ (State.convertTile s c core e i w a).ctxs = s.ctxs ∧ (State.convertTile s c core e i w
    a).mem = s.mem ∧ (State.convertTile s c core e i w a).recov = s.recov ∧ (State.convertTile s c core e i w a).clotha =
    s.clotha ∧ (State.convertTile s c core e i w a).net = s.net ∧ (State.convertTile s c core e i w a).links = s.links ∧
    (State.convertTile s c core e i w a).svc = s.svc := by
  unfold State.convertTile
  refine ⟨?_, ?_, ?_, ?_, ?_, ?_, ?_, ?_, ?_, ?_, ?_, ?_, ?_, ?_⟩ <;> (repeat' first
    | with_reducible rfl
    | simp only [State.ite_frame, ite_self, State.bufWrite_frame, State.writeSegment_frame, State.writeMasked_frame,
      State.writeStats_frame, State.modEngine_frame, State.modCmdOf_frame, State.itemDone_frame] | (intro _ _)
    | with_reducible refine (foldl_proj _ _ ?_ _ _).trans ?_ | with_reducible refine (foldl_fst _ _ ?_ _ _).trans ?_
    | with_reducible refine (foldl_run _ _ ?_ _ _).trans ?_ | split)
@[simp] theorem State.hbmCount_frame (s : State) (stack : Nat) (i : Nat) (n : Nat) : (State.hbmCount s stack i n).pending =
    s.pending ∧ (State.hbmCount s stack i n).draws = s.draws ∧ (State.hbmCount s stack i n).aon = s.aon ∧ (State.hbmCount s
    stack i n).time = s.time ∧ (State.hbmCount s stack i n).persist = s.persist ∧ (State.hbmCount s stack i n).flash = s.flash
    ∧ (State.hbmCount s stack i n).streams = s.streams ∧ (State.hbmCount s stack i n).cores = s.cores ∧ (State.hbmCount s stack
    i n).ctxs = s.ctxs ∧ (State.hbmCount s stack i n).recov = s.recov ∧ (State.hbmCount s stack i n).clotha = s.clotha ∧
    (State.hbmCount s stack i n).net = s.net ∧ (State.hbmCount s stack i n).links = s.links ∧ (State.hbmCount s stack i n).svc
    = s.svc := by
  unfold State.hbmCount
  refine ⟨?_, ?_, ?_, ?_, ?_, ?_, ?_, ?_, ?_, ?_, ?_, ?_, ?_, ?_⟩ <;> (repeat' first
    | with_reducible rfl | simp only [State.ite_frame, ite_self] | (intro _ _)
    | with_reducible refine (foldl_proj _ _ ?_ _ _).trans ?_ | with_reducible refine (foldl_fst _ _ ?_ _ _).trans ?_
    | with_reducible refine (foldl_run _ _ ?_ _ _).trans ?_ | split)
@[simp] theorem State.poisonLines_frame (s : State) (l : List Nat) : (State.poisonLines s l).pending = s.pending ∧
    (State.poisonLines s l).draws = s.draws ∧ (State.poisonLines s l).aon = s.aon ∧ (State.poisonLines s l).time = s.time ∧
    (State.poisonLines s l).persist = s.persist ∧ (State.poisonLines s l).flash = s.flash ∧ (State.poisonLines s l).streams =
    s.streams ∧ (State.poisonLines s l).cores = s.cores ∧ (State.poisonLines s l).ctxs = s.ctxs ∧ (State.poisonLines s l).recov
    = s.recov ∧ (State.poisonLines s l).clotha = s.clotha ∧ (State.poisonLines s l).net = s.net ∧ (State.poisonLines s l).links
    = s.links ∧ (State.poisonLines s l).svc = s.svc := by
  unfold State.poisonLines
  refine ⟨?_, ?_, ?_, ?_, ?_, ?_, ?_, ?_, ?_, ?_, ?_, ?_, ?_, ?_⟩ <;> (repeat' first
    | with_reducible rfl | simp only [State.ite_frame, ite_self] | (intro _ _)
    | with_reducible refine (foldl_proj _ _ ?_ _ _).trans ?_ | with_reducible refine (foldl_fst _ _ ?_ _ _).trans ?_
    | with_reducible refine (foldl_run _ _ ?_ _ _).trans ?_ | split)
@[simp] theorem State.hbmChecked_frame (s : State) (a : Nat) (ecc : EccResult) : (State.hbmChecked s a ecc).pending = s.pending
    ∧ (State.hbmChecked s a ecc).draws = s.draws ∧ (State.hbmChecked s a ecc).aon = s.aon ∧ (State.hbmChecked s a ecc).time =
    s.time ∧ (State.hbmChecked s a ecc).persist = s.persist ∧ (State.hbmChecked s a ecc).flash = s.flash ∧ (State.hbmChecked s
    a ecc).streams = s.streams ∧ (State.hbmChecked s a ecc).cores = s.cores ∧ (State.hbmChecked s a ecc).ctxs = s.ctxs ∧
    (State.hbmChecked s a ecc).recov = s.recov ∧ (State.hbmChecked s a ecc).clotha = s.clotha ∧ (State.hbmChecked s a ecc).net
    = s.net ∧ (State.hbmChecked s a ecc).links = s.links ∧ (State.hbmChecked s a ecc).svc = s.svc := by
  unfold State.hbmChecked
  refine ⟨?_, ?_, ?_, ?_, ?_, ?_, ?_, ?_, ?_, ?_, ?_, ?_, ?_, ?_⟩ <;> (repeat' first
    | with_reducible rfl | simp only [State.ite_frame, ite_self, State.hbmCount_frame, State.poisonLines_frame]
    | (intro _ _) | with_reducible refine (foldl_proj _ _ ?_ _ _).trans ?_
    | with_reducible refine (foldl_fst _ _ ?_ _ _).trans ?_ | with_reducible refine (foldl_run _ _ ?_ _ _).trans ?_ | split)
@[simp] theorem State.rangeEvent_frame (s : State) (owner : Nat) (a : Nat) : (State.rangeEvent s owner a).pending = s.pending ∧
    (State.rangeEvent s owner a).draws = s.draws ∧ (State.rangeEvent s owner a).aon = s.aon ∧ (State.rangeEvent s owner a).time
    = s.time ∧ (State.rangeEvent s owner a).persist = s.persist ∧ (State.rangeEvent s owner a).flash = s.flash ∧
    (State.rangeEvent s owner a).streams = s.streams ∧ (State.rangeEvent s owner a).cores = s.cores ∧ (State.rangeEvent s owner
    a).ctxs = s.ctxs ∧ (State.rangeEvent s owner a).mem = s.mem ∧ (State.rangeEvent s owner a).clotha = s.clotha ∧
    (State.rangeEvent s owner a).net = s.net ∧ (State.rangeEvent s owner a).links = s.links ∧ (State.rangeEvent s owner a).svc
    = s.svc := by
  unfold State.rangeEvent
  refine ⟨?_, ?_, ?_, ?_, ?_, ?_, ?_, ?_, ?_, ?_, ?_, ?_, ?_, ?_⟩ <;> (repeat' first
    | with_reducible rfl | simp only [State.ite_frame, ite_self, State.logEvent_frame] | (intro _ _)
    | with_reducible refine (foldl_proj _ _ ?_ _ _).trans ?_ | with_reducible refine (foldl_fst _ _ ?_ _ _).trans ?_
    | with_reducible refine (foldl_run _ _ ?_ _ _).trans ?_ | split)
@[simp] theorem State.hbmStore_frame (s : State) (a : Nat) (bs : List Byte) (poison : Bool) : (State.hbmStore s a bs
    poison).pending = s.pending ∧ (State.hbmStore s a bs poison).draws = s.draws ∧ (State.hbmStore s a bs poison).aon = s.aon ∧
    (State.hbmStore s a bs poison).time = s.time ∧ (State.hbmStore s a bs poison).persist = s.persist ∧ (State.hbmStore s a bs
    poison).flash = s.flash ∧ (State.hbmStore s a bs poison).streams = s.streams ∧ (State.hbmStore s a bs poison).cores =
    s.cores ∧ (State.hbmStore s a bs poison).ctxs = s.ctxs ∧ (State.hbmStore s a bs poison).recov = s.recov ∧ (State.hbmStore s
    a bs poison).clotha = s.clotha ∧ (State.hbmStore s a bs poison).net = s.net ∧ (State.hbmStore s a bs poison).links =
    s.links ∧ (State.hbmStore s a bs poison).svc = s.svc := by
  unfold State.hbmStore
  refine ⟨?_, ?_, ?_, ?_, ?_, ?_, ?_, ?_, ?_, ?_, ?_, ?_, ?_, ?_⟩ <;> (repeat' first
    | with_reducible rfl | simp only [State.ite_frame, ite_self, State.hbmWrite_frame, State.hbmCount_frame] | (intro _ _)
    | with_reducible refine (foldl_proj _ _ ?_ _ _).trans ?_ | with_reducible refine (foldl_fst _ _ ?_ _ _).trans ?_
    | with_reducible refine (foldl_run _ _ ?_ _ _).trans ?_ | split)
@[simp] theorem State.hbmWriteAs_frame (s : State) (owner : Nat) (a : Nat) (bs : List Byte) (poison : Bool) : (State.hbmWriteAs
    s owner a bs poison).pending = s.pending ∧ (State.hbmWriteAs s owner a bs poison).draws = s.draws ∧ (State.hbmWriteAs s
    owner a bs poison).aon = s.aon ∧ (State.hbmWriteAs s owner a bs poison).time = s.time ∧ (State.hbmWriteAs s owner a bs
    poison).persist = s.persist ∧ (State.hbmWriteAs s owner a bs poison).flash = s.flash ∧ (State.hbmWriteAs s owner a bs
    poison).streams = s.streams ∧ (State.hbmWriteAs s owner a bs poison).cores = s.cores ∧ (State.hbmWriteAs s owner a bs
    poison).ctxs = s.ctxs ∧ (State.hbmWriteAs s owner a bs poison).clotha = s.clotha ∧ (State.hbmWriteAs s owner a bs
    poison).net = s.net ∧ (State.hbmWriteAs s owner a bs poison).links = s.links ∧ (State.hbmWriteAs s owner a bs poison).svc =
    s.svc := by
  unfold State.hbmWriteAs
  refine ⟨?_, ?_, ?_, ?_, ?_, ?_, ?_, ?_, ?_, ?_, ?_, ?_, ?_⟩ <;> (repeat' first
    | with_reducible rfl | simp only [State.ite_frame, ite_self, State.rangeEvent_frame, State.hbmStore_frame]
    | (intro _ _) | with_reducible refine (foldl_proj _ _ ?_ _ _).trans ?_
    | with_reducible refine (foldl_fst _ _ ?_ _ _).trans ?_ | with_reducible refine (foldl_run _ _ ?_ _ _).trans ?_ | split)
@[simp] theorem State.wcRead_frame (s : State) (line : Nat) : (State.wcRead s line).pending = s.pending ∧ (State.wcRead s
    line).draws = s.draws ∧ (State.wcRead s line).aon = s.aon ∧ (State.wcRead s line).time = s.time ∧ (State.wcRead s
    line).persist = s.persist ∧ (State.wcRead s line).flash = s.flash ∧ (State.wcRead s line).streams = s.streams ∧
    (State.wcRead s line).cores = s.cores ∧ (State.wcRead s line).ctxs = s.ctxs ∧ (State.wcRead s line).recov = s.recov ∧
    (State.wcRead s line).clotha = s.clotha ∧ (State.wcRead s line).net = s.net ∧ (State.wcRead s line).links = s.links ∧
    (State.wcRead s line).svc = s.svc := by
  unfold State.wcRead
  refine ⟨?_, ?_, ?_, ?_, ?_, ?_, ?_, ?_, ?_, ?_, ?_, ?_, ?_, ?_⟩ <;> (repeat' first
    | with_reducible rfl | simp only [State.ite_frame, ite_self] | (intro _ _)
    | with_reducible refine (foldl_proj _ _ ?_ _ _).trans ?_ | with_reducible refine (foldl_fst _ _ ?_ _ _).trans ?_
    | with_reducible refine (foldl_run _ _ ?_ _ _).trans ?_ | split)
@[simp] theorem State.wcReads_frame (s : State) (a : Nat) (n : Nat) : (State.wcReads s a n).pending = s.pending ∧
    (State.wcReads s a n).draws = s.draws ∧ (State.wcReads s a n).aon = s.aon ∧ (State.wcReads s a n).time = s.time ∧
    (State.wcReads s a n).persist = s.persist ∧ (State.wcReads s a n).flash = s.flash ∧ (State.wcReads s a n).streams =
    s.streams ∧ (State.wcReads s a n).cores = s.cores ∧ (State.wcReads s a n).ctxs = s.ctxs ∧ (State.wcReads s a n).recov =
    s.recov ∧ (State.wcReads s a n).clotha = s.clotha ∧ (State.wcReads s a n).net = s.net ∧ (State.wcReads s a n).links =
    s.links ∧ (State.wcReads s a n).svc = s.svc := by
  unfold State.wcReads
  refine ⟨?_, ?_, ?_, ?_, ?_, ?_, ?_, ?_, ?_, ?_, ?_, ?_, ?_, ?_⟩ <;> (repeat' first
    | with_reducible rfl | simp only [State.ite_frame, ite_self, State.wcRead_frame] | (intro _ _)
    | with_reducible refine (foldl_proj _ _ ?_ _ _).trans ?_ | with_reducible refine (foldl_fst _ _ ?_ _ _).trans ?_
    | with_reducible refine (foldl_run _ _ ?_ _ _).trans ?_ | split)
@[simp] theorem State.appendEvent_frame (s : State) (r : Recovery) (e : EventRec) : (State.appendEvent s r e).pending =
    s.pending ∧ (State.appendEvent s r e).draws = s.draws ∧ (State.appendEvent s r e).aon = s.aon ∧ (State.appendEvent s r
    e).time = s.time ∧ (State.appendEvent s r e).flash = s.flash ∧ (State.appendEvent s r e).streams = s.streams ∧
    (State.appendEvent s r e).cores = s.cores ∧ (State.appendEvent s r e).ctxs = s.ctxs ∧ (State.appendEvent s r e).mem = s.mem
    ∧ (State.appendEvent s r e).net = s.net ∧ (State.appendEvent s r e).links = s.links ∧ (State.appendEvent s r e).svc = s.svc
    := by
  unfold State.appendEvent
  refine ⟨?_, ?_, ?_, ?_, ?_, ?_, ?_, ?_, ?_, ?_, ?_, ?_⟩ <;> (repeat' first
    | with_reducible rfl | simp only [State.ite_frame, ite_self, State.commitPersist_frame] | (intro _ _)
    | with_reducible refine (foldl_proj _ _ ?_ _ _).trans ?_ | with_reducible refine (foldl_fst _ _ ?_ _ _).trans ?_
    | with_reducible refine (foldl_run _ _ ?_ _ _).trans ?_ | split)
@[simp] theorem State.linesWrite_frame (s : State) (core : Nat) (h : HandleEntry) (o : Nat) (bs : List Byte) (poison : Nat →
    Bool) : (State.linesWrite s core h o bs poison).pending = s.pending ∧ (State.linesWrite s core h o bs poison).draws =
    s.draws ∧ (State.linesWrite s core h o bs poison).aon = s.aon ∧ (State.linesWrite s core h o bs poison).time = s.time ∧
    (State.linesWrite s core h o bs poison).persist = s.persist ∧ (State.linesWrite s core h o bs poison).flash = s.flash ∧
    (State.linesWrite s core h o bs poison).streams = s.streams ∧ (State.linesWrite s core h o bs poison).ctxs = s.ctxs ∧
    (State.linesWrite s core h o bs poison).mem = s.mem ∧ (State.linesWrite s core h o bs poison).recov = s.recov ∧
    (State.linesWrite s core h o bs poison).clotha = s.clotha ∧ (State.linesWrite s core h o bs poison).net = s.net ∧
    (State.linesWrite s core h o bs poison).links = s.links ∧ (State.linesWrite s core h o bs poison).svc = s.svc := by
  unfold State.linesWrite
  refine ⟨?_, ?_, ?_, ?_, ?_, ?_, ?_, ?_, ?_, ?_, ?_, ?_, ?_, ?_⟩ <;> (repeat' first
    | with_reducible rfl | simp only [State.ite_frame, ite_self, State.bufWrite_frame] | (intro _ _)
    | with_reducible refine (foldl_proj _ _ ?_ _ _).trans ?_ | with_reducible refine (foldl_fst _ _ ?_ _ _).trans ?_
    | with_reducible refine (foldl_run _ _ ?_ _ _).trans ?_ | split)
@[simp] theorem State.gatherCol_frame (s : State) (core : Nat) (h : HandleEntry) (o : Nat) (w : Nat) (l : List (Nat × Bool)) :
    (State.gatherCol s core h o w l).pending = s.pending ∧ (State.gatherCol s core h o w l).draws = s.draws ∧ (State.gatherCol
    s core h o w l).aon = s.aon ∧ (State.gatherCol s core h o w l).time = s.time ∧ (State.gatherCol s core h o w l).persist =
    s.persist ∧ (State.gatherCol s core h o w l).flash = s.flash ∧ (State.gatherCol s core h o w l).streams = s.streams ∧
    (State.gatherCol s core h o w l).ctxs = s.ctxs ∧ (State.gatherCol s core h o w l).mem = s.mem ∧ (State.gatherCol s core h o
    w l).recov = s.recov ∧ (State.gatherCol s core h o w l).clotha = s.clotha ∧ (State.gatherCol s core h o w l).net = s.net ∧
    (State.gatherCol s core h o w l).links = s.links ∧ (State.gatherCol s core h o w l).svc = s.svc := by
  unfold State.gatherCol
  refine ⟨?_, ?_, ?_, ?_, ?_, ?_, ?_, ?_, ?_, ?_, ?_, ?_, ?_, ?_⟩ <;> (repeat' first
    | with_reducible rfl | simp only [State.ite_frame, ite_self, State.linesWrite_frame] | (intro _ _)
    | with_reducible refine (foldl_proj _ _ ?_ _ _).trans ?_ | with_reducible refine (foldl_fst _ _ ?_ _ _).trans ?_
    | with_reducible refine (foldl_run _ _ ?_ _ _).trans ?_ | split)
@[simp] theorem State.gatherMember_frame (s : State) (core : Nat) (h : HandleEntry) (d : Nat) (m : Nat) (l : List KeyCol) :
    (State.gatherMember s core h d m l).pending = s.pending ∧ (State.gatherMember s core h d m l).draws = s.draws ∧
    (State.gatherMember s core h d m l).aon = s.aon ∧ (State.gatherMember s core h d m l).time = s.time ∧ (State.gatherMember s
    core h d m l).persist = s.persist ∧ (State.gatherMember s core h d m l).flash = s.flash ∧ (State.gatherMember s core h d m
    l).streams = s.streams ∧ (State.gatherMember s core h d m l).ctxs = s.ctxs ∧ (State.gatherMember s core h d m l).mem =
    s.mem ∧ (State.gatherMember s core h d m l).recov = s.recov ∧ (State.gatherMember s core h d m l).clotha = s.clotha ∧
    (State.gatherMember s core h d m l).net = s.net ∧ (State.gatherMember s core h d m l).links = s.links ∧ (State.gatherMember
    s core h d m l).svc = s.svc := by
  unfold State.gatherMember
  refine ⟨?_, ?_, ?_, ?_, ?_, ?_, ?_, ?_, ?_, ?_, ?_, ?_, ?_, ?_⟩ <;> (repeat' first
    | with_reducible rfl | simp only [State.ite_frame, ite_self, State.linesWrite_frame, State.gatherCol_frame]
    | (intro _ _) | with_reducible refine (foldl_proj _ _ ?_ _ _).trans ?_
    | with_reducible refine (foldl_fst _ _ ?_ _ _).trans ?_ | with_reducible refine (foldl_run _ _ ?_ _ _).trans ?_ | split)
@[simp] theorem State.gatherCheck_frame (s : State) (core : Nat) (h : HandleEntry) (d : Nat) (m : Nat) (l : List KeyCol) :
    (State.gatherCheck s core h d m l).pending = s.pending ∧ (State.gatherCheck s core h d m l).draws = s.draws ∧
    (State.gatherCheck s core h d m l).aon = s.aon ∧ (State.gatherCheck s core h d m l).time = s.time ∧ (State.gatherCheck s
    core h d m l).persist = s.persist ∧ (State.gatherCheck s core h d m l).flash = s.flash ∧ (State.gatherCheck s core h d m
    l).streams = s.streams ∧ (State.gatherCheck s core h d m l).ctxs = s.ctxs ∧ (State.gatherCheck s core h d m l).mem = s.mem
    ∧ (State.gatherCheck s core h d m l).recov = s.recov ∧ (State.gatherCheck s core h d m l).clotha = s.clotha ∧
    (State.gatherCheck s core h d m l).net = s.net ∧ (State.gatherCheck s core h d m l).links = s.links ∧ (State.gatherCheck s
    core h d m l).svc = s.svc := by
  unfold State.gatherCheck
  refine ⟨?_, ?_, ?_, ?_, ?_, ?_, ?_, ?_, ?_, ?_, ?_, ?_, ?_, ?_⟩ <;> (repeat' first
    | with_reducible rfl | simp only [State.ite_frame, ite_self, State.linesWrite_frame] | (intro _ _)
    | with_reducible refine (foldl_proj _ _ ?_ _ _).trans ?_ | with_reducible refine (foldl_fst _ _ ?_ _ _).trans ?_
    | with_reducible refine (foldl_run _ _ ?_ _ _).trans ?_ | split)
@[simp] theorem State.scoreBlock_frame (s : State) (core : Nat) (h : HandleEntry) (d : Nat) (l : List KeyCol) :
    (State.scoreBlock s core h d l).pending = s.pending ∧ (State.scoreBlock s core h d l).draws = s.draws ∧ (State.scoreBlock s
    core h d l).aon = s.aon ∧ (State.scoreBlock s core h d l).time = s.time ∧ (State.scoreBlock s core h d l).persist =
    s.persist ∧ (State.scoreBlock s core h d l).flash = s.flash ∧ (State.scoreBlock s core h d l).streams = s.streams ∧
    (State.scoreBlock s core h d l).ctxs = s.ctxs ∧ (State.scoreBlock s core h d l).mem = s.mem ∧ (State.scoreBlock s core h d
    l).recov = s.recov ∧ (State.scoreBlock s core h d l).clotha = s.clotha ∧ (State.scoreBlock s core h d l).net = s.net ∧
    (State.scoreBlock s core h d l).links = s.links ∧ (State.scoreBlock s core h d l).svc = s.svc := by
  unfold State.scoreBlock
  refine ⟨?_, ?_, ?_, ?_, ?_, ?_, ?_, ?_, ?_, ?_, ?_, ?_, ?_, ?_⟩ <;> (repeat' first
    | with_reducible rfl | simp only [State.ite_frame, ite_self, State.linesWrite_frame] | (intro _ _)
    | with_reducible refine (foldl_proj _ _ ?_ _ _).trans ?_ | with_reducible refine (foldl_fst _ _ ?_ _ _).trans ?_
    | with_reducible refine (foldl_run _ _ ?_ _ _).trans ?_ | split)
@[simp] theorem State.walk_frame (s : State) (core : Nat) (c : Cmd) : (State.walk s core c).pending = s.pending ∧ (State.walk s
    core c).draws = s.draws ∧ (State.walk s core c).aon = s.aon ∧ (State.walk s core c).time = s.time ∧ (State.walk s core
    c).persist = s.persist ∧ (State.walk s core c).flash = s.flash ∧ (State.walk s core c).streams = s.streams ∧ (State.walk s
    core c).ctxs = s.ctxs ∧ (State.walk s core c).clotha = s.clotha ∧ (State.walk s core c).net = s.net ∧ (State.walk s core
    c).links = s.links ∧ (State.walk s core c).svc = s.svc := by
  unfold State.walk
  refine ⟨?_, ?_, ?_, ?_, ?_, ?_, ?_, ?_, ?_, ?_, ?_, ?_⟩ <;> (repeat' first
    | with_reducible rfl
    | simp only [State.ite_frame, ite_self, State.wcReads_frame, State.progressBy_frame, State.gatherMember_frame,
      State.gatherCheck_frame, State.scoreBlock_frame, State.logEvent_frame, State.kvCount_frame, State.modCmd_frame]
    | (intro _ _) | with_reducible refine (foldl_proj _ _ ?_ _ _).trans ?_
    | with_reducible refine (foldl_fst _ _ ?_ _ _).trans ?_ | with_reducible refine (foldl_run _ _ ?_ _ _).trans ?_ | split)
@[simp] theorem State.walkStage_frame (s : State) (ctx : Nat) (op : Nat) : (State.walkStage s ctx op).pending = s.pending ∧
    (State.walkStage s ctx op).draws = s.draws ∧ (State.walkStage s ctx op).aon = s.aon ∧ (State.walkStage s ctx op).time =
    s.time ∧ (State.walkStage s ctx op).persist = s.persist ∧ (State.walkStage s ctx op).flash = s.flash ∧ (State.walkStage s
    ctx op).clotha = s.clotha ∧ (State.walkStage s ctx op).net = s.net ∧ (State.walkStage s ctx op).links = s.links := by
  unfold State.walkStage
  refine ⟨?_, ?_, ?_, ?_, ?_, ?_, ?_, ?_, ?_⟩ <;> (repeat' first
    | with_reducible rfl
    | simp only [State.ite_frame, ite_self, State.takeTag_frame, State.walk_frame, State.after_frame,
      State.issueStage_frame] | (intro _ _) | with_reducible refine (foldl_proj _ _ ?_ _ _).trans ?_
    | with_reducible refine (foldl_fst _ _ ?_ _ _).trans ?_ | with_reducible refine (foldl_run _ _ ?_ _ _).trans ?_ | split)
@[simp] theorem State.linkSend_frame (s : State) (l : Nat) (op : Nat) (tc : Nat) (part : Nat) (tag : Nat) (len : Nat) (off :
    Nat) (payload : List Byte) : (State.linkSend s l op tc part tag len off payload).pending = s.pending ∧ (State.linkSend s l
    op tc part tag len off payload).draws = s.draws ∧ (State.linkSend s l op tc part tag len off payload).aon = s.aon ∧
    (State.linkSend s l op tc part tag len off payload).time = s.time ∧ (State.linkSend s l op tc part tag len off
    payload).persist = s.persist ∧ (State.linkSend s l op tc part tag len off payload).flash = s.flash ∧ (State.linkSend s l op
    tc part tag len off payload).streams = s.streams ∧ (State.linkSend s l op tc part tag len off payload).cores = s.cores ∧
    (State.linkSend s l op tc part tag len off payload).ctxs = s.ctxs ∧ (State.linkSend s l op tc part tag len off payload).mem
    = s.mem ∧ (State.linkSend s l op tc part tag len off payload).recov = s.recov ∧ (State.linkSend s l op tc part tag len off
    payload).clotha = s.clotha ∧ (State.linkSend s l op tc part tag len off payload).svc = s.svc := by
  unfold State.linkSend
  refine ⟨?_, ?_, ?_, ?_, ?_, ?_, ?_, ?_, ?_, ?_, ?_, ?_, ?_⟩ <;> (repeat' first
    | with_reducible rfl | simp only [State.ite_frame, ite_self, State.send_frame, State.modLink_frame] | (intro _ _)
    | with_reducible refine (foldl_proj _ _ ?_ _ _).trans ?_ | with_reducible refine (foldl_fst _ _ ?_ _ _).trans ?_
    | with_reducible refine (foldl_run _ _ ?_ _ _).trans ?_ | split)
@[simp] theorem State.modLinkReq_frame (s : State) (part : Nat) (idx : Nat) (f : LinkReq → LinkReq) : (State.modLinkReq s part
    idx f).pending = s.pending ∧ (State.modLinkReq s part idx f).draws = s.draws ∧ (State.modLinkReq s part idx f).aon = s.aon
    ∧ (State.modLinkReq s part idx f).time = s.time ∧ (State.modLinkReq s part idx f).persist = s.persist ∧ (State.modLinkReq s
    part idx f).flash = s.flash ∧ (State.modLinkReq s part idx f).streams = s.streams ∧ (State.modLinkReq s part idx f).cores =
    s.cores ∧ (State.modLinkReq s part idx f).ctxs = s.ctxs ∧ (State.modLinkReq s part idx f).mem = s.mem ∧ (State.modLinkReq s
    part idx f).recov = s.recov ∧ (State.modLinkReq s part idx f).clotha = s.clotha ∧ (State.modLinkReq s part idx f).net =
    s.net ∧ (State.modLinkReq s part idx f).links = s.links := by
  unfold State.modLinkReq
  refine ⟨?_, ?_, ?_, ?_, ?_, ?_, ?_, ?_, ?_, ?_, ?_, ?_, ?_, ?_⟩ <;> (repeat' first
    | with_reducible rfl | simp only [State.ite_frame, ite_self] | (intro _ _)
    | with_reducible refine (foldl_proj _ _ ?_ _ _).trans ?_ | with_reducible refine (foldl_fst _ _ ?_ _ _).trans ?_
    | with_reducible refine (foldl_run _ _ ?_ _ _).trans ?_ | split)
@[simp] theorem State.endWait_frame (s : State) (l : Nat) (w : LinkWait) (data : Option (List Byte)) (code : Word16) :
    (State.endWait s l w data code).pending = s.pending ∧ (State.endWait s l w data code).draws = s.draws ∧ (State.endWait s l
    w data code).aon = s.aon ∧ (State.endWait s l w data code).time = s.time ∧ (State.endWait s l w data code).persist =
    s.persist ∧ (State.endWait s l w data code).flash = s.flash ∧ (State.endWait s l w data code).streams = s.streams ∧
    (State.endWait s l w data code).cores = s.cores ∧ (State.endWait s l w data code).ctxs = s.ctxs ∧ (State.endWait s l w data
    code).clotha = s.clotha ∧ (State.endWait s l w data code).net = s.net := by
  unfold State.endWait
  refine ⟨?_, ?_, ?_, ?_, ?_, ?_, ?_, ?_, ?_, ?_, ?_⟩ <;> (repeat' first
    | with_reducible rfl
    | simp only [State.ite_frame, ite_self, State.modLink_frame, State.hbmWriteAs_frame, State.modLinkReq_frame]
    | (intro _ _) | with_reducible refine (foldl_proj _ _ ?_ _ _).trans ?_
    | with_reducible refine (foldl_fst _ _ ?_ _ _).trans ?_ | with_reducible refine (foldl_run _ _ ?_ _ _).trans ?_ | split)
@[simp] theorem State.pairRead_frame (s : State) (l : Nat) (part : Nat) (ctx : Nat) (off : Nat) (dest : Nat) (n : Nat) :
    (State.pairRead s l part ctx off dest n).pending = s.pending ∧ (State.pairRead s l part ctx off dest n).draws = s.draws ∧
    (State.pairRead s l part ctx off dest n).aon = s.aon ∧ (State.pairRead s l part ctx off dest n).time = s.time ∧
    (State.pairRead s l part ctx off dest n).persist = s.persist ∧ (State.pairRead s l part ctx off dest n).flash = s.flash ∧
    (State.pairRead s l part ctx off dest n).streams = s.streams ∧ (State.pairRead s l part ctx off dest n).cores = s.cores ∧
    (State.pairRead s l part ctx off dest n).ctxs = s.ctxs ∧ (State.pairRead s l part ctx off dest n).recov = s.recov ∧
    (State.pairRead s l part ctx off dest n).clotha = s.clotha ∧ (State.pairRead s l part ctx off dest n).svc = s.svc := by
  unfold State.pairRead
  refine ⟨?_, ?_, ?_, ?_, ?_, ?_, ?_, ?_, ?_, ?_, ?_, ?_⟩ <;> (repeat' first
    | with_reducible rfl | simp only [State.ite_frame, ite_self, State.modLink_frame, State.linkSend_frame] | (intro _ _)
    | with_reducible refine (foldl_proj _ _ ?_ _ _).trans ?_ | with_reducible refine (foldl_fst _ _ ?_ _ _).trans ?_
    | with_reducible refine (foldl_run _ _ ?_ _ _).trans ?_ | split)
@[simp] theorem State.modWalk_frame (s : State) (core : Nat) (c : Cmd) (f : Walk → Option Walk) : (State.modWalk s core c
    f).pending = s.pending ∧ (State.modWalk s core c f).draws = s.draws ∧ (State.modWalk s core c f).aon = s.aon ∧
    (State.modWalk s core c f).time = s.time ∧ (State.modWalk s core c f).persist = s.persist ∧ (State.modWalk s core c
    f).flash = s.flash ∧ (State.modWalk s core c f).streams = s.streams ∧ (State.modWalk s core c f).ctxs = s.ctxs ∧
    (State.modWalk s core c f).mem = s.mem ∧ (State.modWalk s core c f).recov = s.recov ∧ (State.modWalk s core c f).clotha =
    s.clotha ∧ (State.modWalk s core c f).net = s.net ∧ (State.modWalk s core c f).links = s.links ∧ (State.modWalk s core c
    f).svc = s.svc := by
  unfold State.modWalk
  refine ⟨?_, ?_, ?_, ?_, ?_, ?_, ?_, ?_, ?_, ?_, ?_, ?_, ?_, ?_⟩ <;> (repeat' first
    | with_reducible rfl | simp only [State.ite_frame, ite_self, State.modCmd_frame] | (intro _ _)
    | with_reducible refine (foldl_proj _ _ ?_ _ _).trans ?_ | with_reducible refine (foldl_fst _ _ ?_ _ _).trans ?_
    | with_reducible refine (foldl_run _ _ ?_ _ _).trans ?_ | split)
@[simp] theorem State.markWalk_frame (s : State) (core : Nat) (ctx : Nat) : (State.markWalk s core ctx).pending = s.pending ∧
    (State.markWalk s core ctx).draws = s.draws ∧ (State.markWalk s core ctx).aon = s.aon ∧ (State.markWalk s core ctx).time =
    s.time ∧ (State.markWalk s core ctx).persist = s.persist ∧ (State.markWalk s core ctx).flash = s.flash ∧ (State.markWalk s
    core ctx).cores = s.cores ∧ (State.markWalk s core ctx).ctxs = s.ctxs ∧ (State.markWalk s core ctx).mem = s.mem ∧
    (State.markWalk s core ctx).recov = s.recov ∧ (State.markWalk s core ctx).clotha = s.clotha ∧ (State.markWalk s core
    ctx).net = s.net ∧ (State.markWalk s core ctx).links = s.links ∧ (State.markWalk s core ctx).svc = s.svc := by
  unfold State.markWalk
  refine ⟨?_, ?_, ?_, ?_, ?_, ?_, ?_, ?_, ?_, ?_, ?_, ?_, ?_, ?_⟩ <;> (repeat' first
    | with_reducible rfl | simp only [State.ite_frame, ite_self, State.markCause_frame] | (intro _ _)
    | with_reducible refine (foldl_proj _ _ ?_ _ _).trans ?_ | with_reducible refine (foldl_fst _ _ ?_ _ _).trans ?_
    | with_reducible refine (foldl_run _ _ ?_ _ _).trans ?_ | split)
@[simp] theorem State.pairDone_frame (s : State) (core : Nat) (c : Cmd) (w : Walk) (q : PairRef) : (State.pairDone s core c w
    q).pending = s.pending ∧ (State.pairDone s core c w q).draws = s.draws ∧ (State.pairDone s core c w q).aon = s.aon ∧
    (State.pairDone s core c w q).time = s.time ∧ (State.pairDone s core c w q).persist = s.persist ∧ (State.pairDone s core c
    w q).flash = s.flash ∧ (State.pairDone s core c w q).ctxs = s.ctxs ∧ (State.pairDone s core c w q).mem = s.mem ∧
    (State.pairDone s core c w q).recov = s.recov ∧ (State.pairDone s core c w q).clotha = s.clotha ∧ (State.pairDone s core c
    w q).net = s.net ∧ (State.pairDone s core c w q).links = s.links ∧ (State.pairDone s core c w q).svc = s.svc := by
  unfold State.pairDone
  refine ⟨?_, ?_, ?_, ?_, ?_, ?_, ?_, ?_, ?_, ?_, ?_, ?_, ?_⟩ <;> (repeat' first
    | with_reducible rfl
    | simp only [State.ite_frame, ite_self, State.bufWrite_frame, State.progressBy_frame, State.markWalk_frame,
      State.modWalk_frame] | (intro _ _) | with_reducible refine (foldl_proj _ _ ?_ _ _).trans ?_
    | with_reducible refine (foldl_fst _ _ ?_ _ _).trans ?_ | with_reducible refine (foldl_run _ _ ?_ _ _).trans ?_ | split)
@[simp] theorem State.pairArrived_frame (s : State) (core : Nat) (c : Cmd) (w : Walk) (q : PairRef) (l : Nat) :
    (State.pairArrived s core c w q l).pending = s.pending ∧ (State.pairArrived s core c w q l).draws = s.draws ∧
    (State.pairArrived s core c w q l).aon = s.aon ∧ (State.pairArrived s core c w q l).time = s.time ∧ (State.pairArrived s
    core c w q l).persist = s.persist ∧ (State.pairArrived s core c w q l).flash = s.flash ∧ (State.pairArrived s core c w q
    l).ctxs = s.ctxs ∧ (State.pairArrived s core c w q l).recov = s.recov ∧ (State.pairArrived s core c w q l).clotha =
    s.clotha ∧ (State.pairArrived s core c w q l).svc = s.svc := by
  unfold State.pairArrived
  refine ⟨?_, ?_, ?_, ?_, ?_, ?_, ?_, ?_, ?_, ?_⟩ <;> (repeat' first
    | with_reducible rfl
    | simp only [State.ite_frame, ite_self, State.pairDone_frame, State.modWalk_frame, State.pairRead_frame] | (intro _ _)
    | with_reducible refine (foldl_proj _ _ ?_ _ _).trans ?_ | with_reducible refine (foldl_fst _ _ ?_ _ _).trans ?_
    | with_reducible refine (foldl_run _ _ ?_ _ _).trans ?_ | split)
@[simp] theorem State.pairLost_frame (s : State) (ctx : Nat) : (State.pairLost s ctx).pending = s.pending ∧ (State.pairLost s
    ctx).draws = s.draws ∧ (State.pairLost s ctx).aon = s.aon ∧ (State.pairLost s ctx).time = s.time ∧ (State.pairLost s
    ctx).persist = s.persist ∧ (State.pairLost s ctx).flash = s.flash ∧ (State.pairLost s ctx).clotha = s.clotha ∧
    (State.pairLost s ctx).net = s.net ∧ (State.pairLost s ctx).links = s.links := by
  unfold State.pairLost
  refine ⟨?_, ?_, ?_, ?_, ?_, ?_, ?_, ?_, ?_⟩ <;> (repeat' first
    | with_reducible rfl | simp only [State.ite_frame, ite_self, State.after_frame, State.pairDone_frame] | (intro _ _)
    | with_reducible refine (foldl_proj _ _ ?_ _ _).trans ?_ | with_reducible refine (foldl_fst _ _ ?_ _ _).trans ?_
    | with_reducible refine (foldl_run _ _ ?_ _ _).trans ?_ | split)
@[simp] theorem State.linkGoDown_frame (s : State) (l : Nat) (code : Word16) : (State.linkGoDown s l code).pending = s.pending
    ∧ (State.linkGoDown s l code).draws = s.draws ∧ (State.linkGoDown s l code).aon = s.aon ∧ (State.linkGoDown s l code).time
    = s.time ∧ (State.linkGoDown s l code).persist = s.persist ∧ (State.linkGoDown s l code).flash = s.flash ∧
    (State.linkGoDown s l code).clotha = s.clotha ∧ (State.linkGoDown s l code).net = s.net := by
  unfold State.linkGoDown
  refine ⟨?_, ?_, ?_, ?_, ?_, ?_, ?_, ?_⟩ <;> (repeat' first
    | with_reducible rfl
    | simp only [State.ite_frame, ite_self, State.endWait_frame, State.pairLost_frame, State.modLinkReq_frame,
      State.modLink_frame, State.markCause_frame, State.logEvent_frame] | (intro _ _)
    | with_reducible refine (foldl_proj _ _ ?_ _ _).trans ?_ | with_reducible refine (foldl_fst _ _ ?_ _ _).trans ?_
    | with_reducible refine (foldl_run _ _ ?_ _ _).trans ?_ | split)
@[simp] theorem State.linkReplay_frame (s : State) (l : Nat) (lastGood : Nat) : (State.linkReplay s l lastGood).pending =
    s.pending ∧ (State.linkReplay s l lastGood).draws = s.draws ∧ (State.linkReplay s l lastGood).aon = s.aon ∧
    (State.linkReplay s l lastGood).time = s.time ∧ (State.linkReplay s l lastGood).persist = s.persist ∧ (State.linkReplay s l
    lastGood).flash = s.flash ∧ (State.linkReplay s l lastGood).clotha = s.clotha ∧ (State.linkReplay s l lastGood).net = s.net
    := by
  unfold State.linkReplay
  refine ⟨?_, ?_, ?_, ?_, ?_, ?_, ?_, ?_⟩ <;> (repeat' first
    | with_reducible rfl
    | simp only [State.ite_frame, ite_self, State.modLink_frame, State.linkGoDown_frame, State.logEvent_frame]
    | (intro _ _) | with_reducible refine (foldl_proj _ _ ?_ _ _).trans ?_
    | with_reducible refine (foldl_fst _ _ ?_ _ _).trans ?_ | with_reducible refine (foldl_run _ _ ?_ _ _).trans ?_ | split)
@[simp] theorem State.linkDiscard_frame (s : State) (l : Nat) (crc : Bool) : (State.linkDiscard s l crc).pending = s.pending ∧
    (State.linkDiscard s l crc).draws = s.draws ∧ (State.linkDiscard s l crc).aon = s.aon ∧ (State.linkDiscard s l crc).time =
    s.time ∧ (State.linkDiscard s l crc).persist = s.persist ∧ (State.linkDiscard s l crc).flash = s.flash ∧ (State.linkDiscard
    s l crc).streams = s.streams ∧ (State.linkDiscard s l crc).cores = s.cores ∧ (State.linkDiscard s l crc).ctxs = s.ctxs ∧
    (State.linkDiscard s l crc).mem = s.mem ∧ (State.linkDiscard s l crc).recov = s.recov ∧ (State.linkDiscard s l crc).clotha
    = s.clotha ∧ (State.linkDiscard s l crc).svc = s.svc := by
  unfold State.linkDiscard
  refine ⟨?_, ?_, ?_, ?_, ?_, ?_, ?_, ?_, ?_, ?_, ?_, ?_, ?_⟩ <;> (repeat' first
    | with_reducible rfl | simp only [State.ite_frame, ite_self, State.modLink_frame, State.send_frame] | (intro _ _)
    | with_reducible refine (foldl_proj _ _ ?_ _ _).trans ?_ | with_reducible refine (foldl_fst _ _ ?_ _ _).trans ?_
    | with_reducible refine (foldl_run _ _ ?_ _ _).trans ?_ | split)
@[simp] theorem State.linkDrained_frame (s : State) (l : Nat) (tc : Nat) (n : Nat) : (State.linkDrained s l tc n).pending =
    s.pending ∧ (State.linkDrained s l tc n).draws = s.draws ∧ (State.linkDrained s l tc n).aon = s.aon ∧ (State.linkDrained s
    l tc n).time = s.time ∧ (State.linkDrained s l tc n).persist = s.persist ∧ (State.linkDrained s l tc n).flash = s.flash ∧
    (State.linkDrained s l tc n).streams = s.streams ∧ (State.linkDrained s l tc n).cores = s.cores ∧ (State.linkDrained s l tc
    n).ctxs = s.ctxs ∧ (State.linkDrained s l tc n).mem = s.mem ∧ (State.linkDrained s l tc n).recov = s.recov ∧
    (State.linkDrained s l tc n).clotha = s.clotha ∧ (State.linkDrained s l tc n).net = s.net ∧ (State.linkDrained s l tc
    n).svc = s.svc := by
  unfold State.linkDrained
  refine ⟨?_, ?_, ?_, ?_, ?_, ?_, ?_, ?_, ?_, ?_, ?_, ?_, ?_, ?_⟩ <;> (repeat' first
    | with_reducible rfl | simp only [State.ite_frame, ite_self, State.modLink_frame] | (intro _ _)
    | with_reducible refine (foldl_proj _ _ ?_ _ _).trans ?_ | with_reducible refine (foldl_fst _ _ ?_ _ _).trans ?_
    | with_reducible refine (foldl_run _ _ ?_ _ _).trans ?_ | split)
@[simp] theorem State.linkUnauth_frame (s : State) (l : Nat) : (State.linkUnauth s l).pending = s.pending ∧ (State.linkUnauth s
    l).draws = s.draws ∧ (State.linkUnauth s l).aon = s.aon ∧ (State.linkUnauth s l).time = s.time ∧ (State.linkUnauth s
    l).persist = s.persist ∧ (State.linkUnauth s l).flash = s.flash ∧ (State.linkUnauth s l).clotha = s.clotha ∧
    (State.linkUnauth s l).net = s.net := by
  unfold State.linkUnauth
  refine ⟨?_, ?_, ?_, ?_, ?_, ?_, ?_, ?_⟩ <;> (repeat' first
    | with_reducible rfl | simp only [State.ite_frame, ite_self, State.linkGoDown_frame] | (intro _ _)
    | with_reducible refine (foldl_proj _ _ ?_ _ _).trans ?_ | with_reducible refine (foldl_fst _ _ ?_ _ _).trans ?_
    | with_reducible refine (foldl_run _ _ ?_ _ _).trans ?_ | split)
@[simp] theorem State.sendNext_frame (s : State) (l : Nat) : (State.sendNext s l).pending = s.pending ∧ (State.sendNext s
    l).draws = s.draws ∧ (State.sendNext s l).aon = s.aon ∧ (State.sendNext s l).time = s.time ∧ (State.sendNext s l).persist =
    s.persist ∧ (State.sendNext s l).flash = s.flash ∧ (State.sendNext s l).streams = s.streams ∧ (State.sendNext s l).cores =
    s.cores ∧ (State.sendNext s l).ctxs = s.ctxs ∧ (State.sendNext s l).recov = s.recov ∧ (State.sendNext s l).clotha =
    s.clotha ∧ (State.sendNext s l).svc = s.svc := by
  unfold State.sendNext
  refine ⟨?_, ?_, ?_, ?_, ?_, ?_, ?_, ?_, ?_, ?_, ?_, ?_⟩ <;> (repeat' first
    | with_reducible rfl | simp only [State.ite_frame, ite_self, State.modLink_frame, State.linkSend_frame] | (intro _ _)
    | with_reducible refine (foldl_proj _ _ ?_ _ _).trans ?_ | with_reducible refine (foldl_fst _ _ ?_ _ _).trans ?_
    | with_reducible refine (foldl_run _ _ ?_ _ _).trans ?_ | split)
@[simp] theorem State.sendAll_frame (s : State) (l : Nat) (x0 : Nat) : (State.sendAll s l x0).pending = s.pending ∧
    (State.sendAll s l x0).draws = s.draws ∧ (State.sendAll s l x0).aon = s.aon ∧ (State.sendAll s l x0).time = s.time ∧
    (State.sendAll s l x0).persist = s.persist ∧ (State.sendAll s l x0).flash = s.flash ∧ (State.sendAll s l x0).streams =
    s.streams ∧ (State.sendAll s l x0).cores = s.cores ∧ (State.sendAll s l x0).ctxs = s.ctxs ∧ (State.sendAll s l x0).recov =
    s.recov ∧ (State.sendAll s l x0).clotha = s.clotha ∧ (State.sendAll s l x0).svc = s.svc := by
  induction x0 generalizing s <;> unfold State.sendAll <;> (refine ⟨?_, ?_, ?_, ?_, ?_, ?_, ?_, ?_, ?_, ?_, ?_,
      ?_⟩ <;> (repeat' first
    | with_reducible rfl | simp only [State.ite_frame, ite_self, State.sendNext_frame, *] | (intro _ _)
    | with_reducible refine (foldl_proj _ _ ?_ _ _).trans ?_ | with_reducible refine (foldl_fst _ _ ?_ _ _).trans ?_
    | with_reducible refine (foldl_run _ _ ?_ _ _).trans ?_ | split))
@[simp] theorem State.takeRequest_frame (s : State) (part : Nat) (ring : Nat) (idx : Nat) : (State.takeRequest s part ring
    idx).pending = s.pending ∧ (State.takeRequest s part ring idx).draws = s.draws ∧ (State.takeRequest s part ring idx).aon =
    s.aon ∧ (State.takeRequest s part ring idx).time = s.time ∧ (State.takeRequest s part ring idx).persist = s.persist ∧
    (State.takeRequest s part ring idx).flash = s.flash ∧ (State.takeRequest s part ring idx).streams = s.streams ∧
    (State.takeRequest s part ring idx).cores = s.cores ∧ (State.takeRequest s part ring idx).ctxs = s.ctxs ∧
    (State.takeRequest s part ring idx).mem = s.mem ∧ (State.takeRequest s part ring idx).clotha = s.clotha ∧
    (State.takeRequest s part ring idx).net = s.net := by
  unfold State.takeRequest
  refine ⟨?_, ?_, ?_, ?_, ?_, ?_, ?_, ?_, ?_, ?_, ?_, ?_⟩ <;> (repeat' first
    | with_reducible rfl | simp only [State.ite_frame, ite_self, State.rangeEvent_frame, State.modLink_frame] | (intro _ _)
    | with_reducible refine (foldl_proj _ _ ?_ _ _).trans ?_ | with_reducible refine (foldl_fst _ _ ?_ _ _).trans ?_
    | with_reducible refine (foldl_run _ _ ?_ _ _).trans ?_ | split)
@[simp] theorem State.newKeys_frame (s : State) (x : StreamCtx) : (State.newKeys s x).pending = s.pending ∧ (State.newKeys s
    x).draws = s.draws ∧ (State.newKeys s x).aon = s.aon ∧ (State.newKeys s x).time = s.time ∧ (State.newKeys s x).persist =
    s.persist ∧ (State.newKeys s x).flash = s.flash ∧ (State.newKeys s x).streams = s.streams ∧ (State.newKeys s x).cores =
    s.cores ∧ (State.newKeys s x).ctxs = s.ctxs ∧ (State.newKeys s x).mem = s.mem ∧ (State.newKeys s x).recov = s.recov ∧
    (State.newKeys s x).clotha = s.clotha ∧ (State.newKeys s x).links = s.links ∧ (State.newKeys s x).svc = s.svc := by
  unfold State.newKeys
  refine ⟨?_, ?_, ?_, ?_, ?_, ?_, ?_, ?_, ?_, ?_, ?_, ?_, ?_, ?_⟩ <;> (repeat' first
    | with_reducible rfl | simp only [State.ite_frame, ite_self] | (intro _ _)
    | with_reducible refine (foldl_proj _ _ ?_ _ _).trans ?_ | with_reducible refine (foldl_fst _ _ ?_ _ _).trans ?_
    | with_reducible refine (foldl_run _ _ ?_ _ _).trans ?_ | split)
@[simp] theorem State.closeChunk_frame (s : State) (i : Nat) (x : StreamCtx) (g : PayShape) (at_ : Nat) (lag : Option Int) :
    (State.closeChunk s i x g at_ lag).pending = s.pending ∧ (State.closeChunk s i x g at_ lag).draws = s.draws ∧
    (State.closeChunk s i x g at_ lag).aon = s.aon ∧ (State.closeChunk s i x g at_ lag).time = s.time ∧ (State.closeChunk s i x
    g at_ lag).persist = s.persist ∧ (State.closeChunk s i x g at_ lag).flash = s.flash ∧ (State.closeChunk s i x g at_
    lag).cores = s.cores ∧ (State.closeChunk s i x g at_ lag).ctxs = s.ctxs ∧ (State.closeChunk s i x g at_ lag).clotha =
    s.clotha ∧ (State.closeChunk s i x g at_ lag).links = s.links ∧ (State.closeChunk s i x g at_ lag).svc = s.svc := by
  unfold State.closeChunk
  refine ⟨?_, ?_, ?_, ?_, ?_, ?_, ?_, ?_, ?_, ?_, ?_⟩ <;> (repeat' first
    | with_reducible rfl
    | simp only [State.ite_frame, ite_self, State.hbmWrite_frame, State.modStream_frame, State.modStats_frame,
      State.newKeys_frame, State.logEvent_frame] | (intro _ _) | with_reducible refine (foldl_proj _ _ ?_ _ _).trans ?_
    | with_reducible refine (foldl_fst _ _ ?_ _ _).trans ?_ | with_reducible refine (foldl_run _ _ ?_ _ _).trans ?_ | split)
@[simp] theorem State.closeChunks_frame (s : State) (i : Nat) (g : PayShape) (late : Bool) (now : Nat) (x0 : Nat) :
    (State.closeChunks s i g late now x0).pending = s.pending ∧ (State.closeChunks s i g late now x0).draws = s.draws ∧
    (State.closeChunks s i g late now x0).aon = s.aon ∧ (State.closeChunks s i g late now x0).time = s.time ∧
    (State.closeChunks s i g late now x0).persist = s.persist ∧ (State.closeChunks s i g late now x0).flash = s.flash ∧
    (State.closeChunks s i g late now x0).cores = s.cores ∧ (State.closeChunks s i g late now x0).ctxs = s.ctxs ∧
    (State.closeChunks s i g late now x0).clotha = s.clotha ∧ (State.closeChunks s i g late now x0).links = s.links ∧
    (State.closeChunks s i g late now x0).svc = s.svc := by
  induction x0 generalizing s <;> unfold State.closeChunks <;> (refine ⟨?_, ?_, ?_, ?_, ?_, ?_, ?_, ?_, ?_, ?_,
      ?_⟩ <;> (repeat' first
    | with_reducible rfl | simp only [State.ite_frame, ite_self, State.closeChunk_frame, *] | (intro _ _)
    | with_reducible refine (foldl_proj _ _ ?_ _ _).trans ?_ | with_reducible refine (foldl_fst _ _ ?_ _ _).trans ?_
    | with_reducible refine (foldl_run _ _ ?_ _ _).trans ?_ | split))
@[simp] theorem State.fillRing_frame (s : State) (x : StreamCtx) (g : PayShape) (a : Arrived) : (State.fillRing s x g
    a).pending = s.pending ∧ (State.fillRing s x g a).draws = s.draws ∧ (State.fillRing s x g a).aon = s.aon ∧ (State.fillRing
    s x g a).time = s.time ∧ (State.fillRing s x g a).persist = s.persist ∧ (State.fillRing s x g a).flash = s.flash ∧
    (State.fillRing s x g a).streams = s.streams ∧ (State.fillRing s x g a).cores = s.cores ∧ (State.fillRing s x g a).ctxs =
    s.ctxs ∧ (State.fillRing s x g a).recov = s.recov ∧ (State.fillRing s x g a).clotha = s.clotha ∧ (State.fillRing s x g
    a).net = s.net ∧ (State.fillRing s x g a).links = s.links ∧ (State.fillRing s x g a).svc = s.svc := by
  unfold State.fillRing
  refine ⟨?_, ?_, ?_, ?_, ?_, ?_, ?_, ?_, ?_, ?_, ?_, ?_, ?_, ?_⟩ <;> (repeat' first
    | with_reducible rfl | simp only [State.ite_frame, ite_self, State.hbmWrite_frame] | (intro _ _)
    | with_reducible refine (foldl_proj _ _ ?_ _ _).trans ?_ | with_reducible refine (foldl_fst _ _ ?_ _ _).trans ?_
    | with_reducible refine (foldl_run _ _ ?_ _ _).trans ?_ | split)
@[simp] theorem State.ingest_frame (s : State) (i : Nat) (x : StreamCtx) (g : PayShape) (m : MediaIn) (at_ : Nat) (replay :
    Bool) : (State.ingest s i x g m at_ replay).pending = s.pending ∧ (State.ingest s i x g m at_ replay).draws = s.draws ∧
    (State.ingest s i x g m at_ replay).aon = s.aon ∧ (State.ingest s i x g m at_ replay).time = s.time ∧ (State.ingest s i x g
    m at_ replay).persist = s.persist ∧ (State.ingest s i x g m at_ replay).flash = s.flash ∧ (State.ingest s i x g m at_
    replay).cores = s.cores ∧ (State.ingest s i x g m at_ replay).ctxs = s.ctxs ∧ (State.ingest s i x g m at_ replay).recov =
    s.recov ∧ (State.ingest s i x g m at_ replay).clotha = s.clotha ∧ (State.ingest s i x g m at_ replay).net = s.net ∧
    (State.ingest s i x g m at_ replay).links = s.links ∧ (State.ingest s i x g m at_ replay).svc = s.svc := by
  unfold State.ingest
  refine ⟨?_, ?_, ?_, ?_, ?_, ?_, ?_, ?_, ?_, ?_, ?_, ?_, ?_⟩ <;> (repeat' first
    | with_reducible rfl
    | simp only [State.ite_frame, ite_self, State.modStats_frame, State.markCause_frame, State.modStream_frame,
      State.fillRing_frame] | (intro _ _) | with_reducible refine (foldl_proj _ _ ?_ _ _).trans ?_
    | with_reducible refine (foldl_fst _ _ ?_ _ _).trans ?_ | with_reducible refine (foldl_run _ _ ?_ _ _).trans ?_ | split)
@[simp] theorem State.srtpFail_frame (s : State) (i : Nat) (x : StreamCtx) : (State.srtpFail s i x).pending = s.pending ∧
    (State.srtpFail s i x).draws = s.draws ∧ (State.srtpFail s i x).aon = s.aon ∧ (State.srtpFail s i x).time = s.time ∧
    (State.srtpFail s i x).persist = s.persist ∧ (State.srtpFail s i x).flash = s.flash ∧ (State.srtpFail s i x).cores =
    s.cores ∧ (State.srtpFail s i x).ctxs = s.ctxs ∧ (State.srtpFail s i x).mem = s.mem ∧ (State.srtpFail s i x).clotha =
    s.clotha ∧ (State.srtpFail s i x).net = s.net ∧ (State.srtpFail s i x).links = s.links ∧ (State.srtpFail s i x).svc = s.svc
    := by
  unfold State.srtpFail
  refine ⟨?_, ?_, ?_, ?_, ?_, ?_, ?_, ?_, ?_, ?_, ?_, ?_, ?_⟩ <;> (repeat' first
    | with_reducible rfl
    | simp only [State.ite_frame, ite_self, State.modStats_frame, State.logEvent_frame, State.modStream_frame]
    | (intro _ _) | with_reducible refine (foldl_proj _ _ ?_ _ _).trans ?_
    | with_reducible refine (foldl_fst _ _ ?_ _ _).trans ?_ | with_reducible refine (foldl_run _ _ ?_ _ _).trans ?_ | split)
@[simp] theorem State.mediaIn_frame (s : State) (i : Nat) (x : StreamCtx) (p : Package) (bs : List Byte) (authOk : Bool) (at_ :
    Nat) : (State.mediaIn s i x p bs authOk at_).pending = s.pending ∧ (State.mediaIn s i x p bs authOk at_).draws = s.draws ∧
    (State.mediaIn s i x p bs authOk at_).aon = s.aon ∧ (State.mediaIn s i x p bs authOk at_).time = s.time ∧ (State.mediaIn s
    i x p bs authOk at_).persist = s.persist ∧ (State.mediaIn s i x p bs authOk at_).flash = s.flash ∧ (State.mediaIn s i x p
    bs authOk at_).cores = s.cores ∧ (State.mediaIn s i x p bs authOk at_).ctxs = s.ctxs ∧ (State.mediaIn s i x p bs authOk
    at_).clotha = s.clotha ∧ (State.mediaIn s i x p bs authOk at_).links = s.links ∧ (State.mediaIn s i x p bs authOk at_).svc
    = s.svc := by
  unfold State.mediaIn
  refine ⟨?_, ?_, ?_, ?_, ?_, ?_, ?_, ?_, ?_, ?_, ?_⟩ <;> (repeat' first
    | with_reducible rfl
    | simp only [State.ite_frame, ite_self, State.srtpFail_frame, State.closeChunks_frame, State.modStream_frame,
      State.ingest_frame, State.markCause_frame] | (intro _ _) | with_reducible refine (foldl_proj _ _ ?_ _ _).trans ?_
    | with_reducible refine (foldl_fst _ _ ?_ _ _).trans ?_ | with_reducible refine (foldl_run _ _ ?_ _ _).trans ?_ | split)
@[simp] theorem State.bumpPoison_frame (s : State) (part : Nat) (i : Nat) : (State.bumpPoison s part i).pending = s.pending ∧
    (State.bumpPoison s part i).draws = s.draws ∧ (State.bumpPoison s part i).aon = s.aon ∧ (State.bumpPoison s part i).time =
    s.time ∧ (State.bumpPoison s part i).persist = s.persist ∧ (State.bumpPoison s part i).flash = s.flash ∧ (State.bumpPoison
    s part i).streams = s.streams ∧ (State.bumpPoison s part i).cores = s.cores ∧ (State.bumpPoison s part i).ctxs = s.ctxs ∧
    (State.bumpPoison s part i).mem = s.mem ∧ (State.bumpPoison s part i).clotha = s.clotha ∧ (State.bumpPoison s part i).net =
    s.net ∧ (State.bumpPoison s part i).links = s.links ∧ (State.bumpPoison s part i).svc = s.svc := by
  unfold State.bumpPoison
  refine ⟨?_, ?_, ?_, ?_, ?_, ?_, ?_, ?_, ?_, ?_, ?_, ?_, ?_, ?_⟩ <;> (repeat' first
    | with_reducible rfl | simp only [State.ite_frame, ite_self] | (intro _ _)
    | with_reducible refine (foldl_proj _ _ ?_ _ _).trans ?_ | with_reducible refine (foldl_fst _ _ ?_ _ _).trans ?_
    | with_reducible refine (foldl_run _ _ ?_ _ _).trans ?_ | split)
@[simp] theorem State.noteDecision_frame (s : State) (core : Nat) (r : CkptReport) (x : StreamCtx) (c : Chunk) (v : Verdict)
    (rr : RerunDecision) (exceeds : Bool) (wider : Bool) (clipped : Bool) (rem : Option (Nat × Nat × Nat × Nat)) :
    (State.noteDecision s core r x c v rr exceeds wider clipped rem).pending = s.pending ∧ (State.noteDecision s core r x c v
    rr exceeds wider clipped rem).draws = s.draws ∧ (State.noteDecision s core r x c v rr exceeds wider clipped rem).aon =
    s.aon ∧ (State.noteDecision s core r x c v rr exceeds wider clipped rem).time = s.time ∧ (State.noteDecision s core r x c v
    rr exceeds wider clipped rem).persist = s.persist ∧ (State.noteDecision s core r x c v rr exceeds wider clipped rem).flash
    = s.flash ∧ (State.noteDecision s core r x c v rr exceeds wider clipped rem).ctxs = s.ctxs ∧ (State.noteDecision s core r x
    c v rr exceeds wider clipped rem).mem = s.mem ∧ (State.noteDecision s core r x c v rr exceeds wider clipped rem).clotha =
    s.clotha ∧ (State.noteDecision s core r x c v rr exceeds wider clipped rem).net = s.net ∧ (State.noteDecision s core r x c
    v rr exceeds wider clipped rem).links = s.links := by
  unfold State.noteDecision
  refine ⟨?_, ?_, ?_, ?_, ?_, ?_, ?_, ?_, ?_, ?_, ?_⟩ <;> (repeat' first
    | with_reducible rfl
    | simp only [State.ite_frame, ite_self, State.modChunk_frame, State.modStream_frame, State.bumpSafeguard_frame,
      State.modCore_frame, State.bumpPoison_frame, State.modStats_frame] | (intro _ _)
    | with_reducible refine (foldl_proj _ _ ?_ _ _).trans ?_ | with_reducible refine (foldl_fst _ _ ?_ _ _).trans ?_
    | with_reducible refine (foldl_run _ _ ?_ _ _).trans ?_ | split)
@[simp] theorem State.decideReport_frame (s : State) (core : Nat) (r : CkptReport) : (State.decideReport s core r).1.pending =
    s.pending ∧ (State.decideReport s core r).1.draws = s.draws ∧ (State.decideReport s core r).1.aon = s.aon ∧
    (State.decideReport s core r).1.time = s.time ∧ (State.decideReport s core r).1.persist = s.persist ∧ (State.decideReport s
    core r).1.flash = s.flash ∧ (State.decideReport s core r).1.ctxs = s.ctxs ∧ (State.decideReport s core r).1.mem = s.mem ∧
    (State.decideReport s core r).1.clotha = s.clotha ∧ (State.decideReport s core r).1.net = s.net ∧ (State.decideReport s
    core r).1.links = s.links := by
  unfold State.decideReport
  refine ⟨?_, ?_, ?_, ?_, ?_, ?_, ?_, ?_, ?_, ?_, ?_⟩ <;> (repeat' first
    | with_reducible rfl | simp only [State.ite_frame, ite_self, State.noteDecision_frame, State.modChunk_frame]
    | (intro _ _) | with_reducible refine (foldl_proj _ _ ?_ _ _).trans ?_
    | with_reducible refine (foldl_fst _ _ ?_ _ _).trans ?_ | with_reducible refine (foldl_run _ _ ?_ _ _).trans ?_ | split)
@[simp] theorem State.poolUse_frame (s : State) (chan : Nat) (want : Nat) : (State.poolUse s chan want).pending = s.pending ∧
    (State.poolUse s chan want).draws = s.draws ∧ (State.poolUse s chan want).aon = s.aon ∧ (State.poolUse s chan want).time =
    s.time ∧ (State.poolUse s chan want).persist = s.persist ∧ (State.poolUse s chan want).flash = s.flash ∧ (State.poolUse s
    chan want).streams = s.streams ∧ (State.poolUse s chan want).cores = s.cores ∧ (State.poolUse s chan want).ctxs = s.ctxs ∧
    (State.poolUse s chan want).mem = s.mem ∧ (State.poolUse s chan want).recov = s.recov ∧ (State.poolUse s chan want).clotha
    = s.clotha ∧ (State.poolUse s chan want).links = s.links ∧ (State.poolUse s chan want).svc = s.svc := by
  unfold State.poolUse
  refine ⟨?_, ?_, ?_, ?_, ?_, ?_, ?_, ?_, ?_, ?_, ?_, ?_, ?_, ?_⟩ <;> (repeat' first
    | with_reducible rfl | simp only [State.ite_frame, ite_self] | (intro _ _)
    | with_reducible refine (foldl_proj _ _ ?_ _ _).trans ?_ | with_reducible refine (foldl_fst _ _ ?_ _ _).trans ?_
    | with_reducible refine (foldl_run _ _ ?_ _ _).trans ?_ | split)
@[simp] theorem State.poolReturn_frame (s : State) (chan : Nat) (want : Nat) : (State.poolReturn s chan want).pending =
    s.pending ∧ (State.poolReturn s chan want).draws = s.draws ∧ (State.poolReturn s chan want).aon = s.aon ∧ (State.poolReturn
    s chan want).time = s.time ∧ (State.poolReturn s chan want).persist = s.persist ∧ (State.poolReturn s chan want).flash =
    s.flash ∧ (State.poolReturn s chan want).streams = s.streams ∧ (State.poolReturn s chan want).cores = s.cores ∧
    (State.poolReturn s chan want).ctxs = s.ctxs ∧ (State.poolReturn s chan want).mem = s.mem ∧ (State.poolReturn s chan
    want).recov = s.recov ∧ (State.poolReturn s chan want).clotha = s.clotha ∧ (State.poolReturn s chan want).links = s.links ∧
    (State.poolReturn s chan want).svc = s.svc := by
  unfold State.poolReturn
  refine ⟨?_, ?_, ?_, ?_, ?_, ?_, ?_, ?_, ?_, ?_, ?_, ?_, ?_, ?_⟩ <;> (repeat' first
    | with_reducible rfl | simp only [State.ite_frame, ite_self] | (intro _ _)
    | with_reducible refine (foldl_proj _ _ ?_ _ _).trans ?_ | with_reducible refine (foldl_fst _ _ ?_ _ _).trans ?_
    | with_reducible refine (foldl_run _ _ ?_ _ _).trans ?_ | split)
@[simp] theorem State.grantEgress_frame (s : State) (port : Nat) (be : Bool) : (State.grantEgress s port be).pending =
    s.pending ∧ (State.grantEgress s port be).draws = s.draws ∧ (State.grantEgress s port be).aon = s.aon ∧ (State.grantEgress
    s port be).time = s.time ∧ (State.grantEgress s port be).persist = s.persist ∧ (State.grantEgress s port be).flash =
    s.flash ∧ (State.grantEgress s port be).cores = s.cores ∧ (State.grantEgress s port be).ctxs = s.ctxs ∧ (State.grantEgress
    s port be).mem = s.mem ∧ (State.grantEgress s port be).recov = s.recov ∧ (State.grantEgress s port be).clotha = s.clotha ∧
    (State.grantEgress s port be).links = s.links ∧ (State.grantEgress s port be).svc = s.svc := by
  unfold State.grantEgress
  refine ⟨?_, ?_, ?_, ?_, ?_, ?_, ?_, ?_, ?_, ?_, ?_, ?_, ?_⟩ <;> (repeat' first
    | with_reducible rfl | simp only [State.ite_frame, ite_self, State.poolUse_frame] | (intro _ _)
    | with_reducible refine (foldl_proj _ _ ?_ _ _).trans ?_ | with_reducible refine (foldl_fst _ _ ?_ _ _).trans ?_
    | with_reducible refine (foldl_run _ _ ?_ _ _).trans ?_ | split)
@[simp] theorem State.countMiss_frame (s : State) (i : Nat) (x : StreamCtx) (c : Chunk) : (State.countMiss s i x c).pending =
    s.pending ∧ (State.countMiss s i x c).time = s.time ∧ (State.countMiss s i x c).persist = s.persist ∧ (State.countMiss s i
    x c).flash = s.flash ∧ (State.countMiss s i x c).cores = s.cores ∧ (State.countMiss s i x c).ctxs = s.ctxs ∧
    (State.countMiss s i x c).mem = s.mem ∧ (State.countMiss s i x c).clotha = s.clotha ∧ (State.countMiss s i x c).net = s.net
    ∧ (State.countMiss s i x c).links = s.links ∧ (State.countMiss s i x c).svc = s.svc := by
  unfold State.countMiss
  refine ⟨?_, ?_, ?_, ?_, ?_, ?_, ?_, ?_, ?_, ?_, ?_⟩ <;> (repeat' first
    | with_reducible rfl
    | simp only [State.ite_frame, ite_self, State.draw_frame, State.modChunk_frame, State.modStats_frame,
      State.logEvent_frame, State.alertSet_frame] | (intro _ _) | with_reducible refine (foldl_proj _ _ ?_ _ _).trans ?_
    | with_reducible refine (foldl_fst _ _ ?_ _ _).trans ?_ | with_reducible refine (foldl_run _ _ ?_ _ _).trans ?_ | split)
@[simp] theorem State.dropResult_frame (s : State) (port : Nat) (i : Nat) (chunk : Nat) : (State.dropResult s port i
    chunk).pending = s.pending ∧ (State.dropResult s port i chunk).draws = s.draws ∧ (State.dropResult s port i chunk).aon =
    s.aon ∧ (State.dropResult s port i chunk).time = s.time ∧ (State.dropResult s port i chunk).persist = s.persist ∧
    (State.dropResult s port i chunk).flash = s.flash ∧ (State.dropResult s port i chunk).cores = s.cores ∧ (State.dropResult s
    port i chunk).ctxs = s.ctxs ∧ (State.dropResult s port i chunk).mem = s.mem ∧ (State.dropResult s port i chunk).recov =
    s.recov ∧ (State.dropResult s port i chunk).clotha = s.clotha ∧ (State.dropResult s port i chunk).links = s.links ∧
    (State.dropResult s port i chunk).svc = s.svc := by
  unfold State.dropResult
  refine ⟨?_, ?_, ?_, ?_, ?_, ?_, ?_, ?_, ?_, ?_, ?_, ?_, ?_⟩ <;> (repeat' first
    | with_reducible rfl | simp only [State.ite_frame, ite_self, State.poolReturn_frame] | (intro _ _)
    | with_reducible refine (foldl_proj _ _ ?_ _ _).trans ?_ | with_reducible refine (foldl_fst _ _ ?_ _ _).trans ?_
    | with_reducible refine (foldl_run _ _ ?_ _ _).trans ?_ | split)
@[simp] theorem State.chunkGone_frame (s : State) (i : Nat) (chunk : Nat) : (State.chunkGone s i chunk).pending = s.pending ∧
    (State.chunkGone s i chunk).draws = s.draws ∧ (State.chunkGone s i chunk).aon = s.aon ∧ (State.chunkGone s i chunk).time =
    s.time ∧ (State.chunkGone s i chunk).persist = s.persist ∧ (State.chunkGone s i chunk).flash = s.flash ∧ (State.chunkGone s
    i chunk).cores = s.cores ∧ (State.chunkGone s i chunk).ctxs = s.ctxs ∧ (State.chunkGone s i chunk).mem = s.mem ∧
    (State.chunkGone s i chunk).recov = s.recov ∧ (State.chunkGone s i chunk).clotha = s.clotha ∧ (State.chunkGone s i
    chunk).net = s.net ∧ (State.chunkGone s i chunk).links = s.links ∧ (State.chunkGone s i chunk).svc = s.svc := by
  unfold State.chunkGone
  refine ⟨?_, ?_, ?_, ?_, ?_, ?_, ?_, ?_, ?_, ?_, ?_, ?_, ?_, ?_⟩ <;> (repeat' first
    | with_reducible rfl | simp only [State.ite_frame, ite_self, State.modStream_frame] | (intro _ _)
    | with_reducible refine (foldl_proj _ _ ?_ _ _).trans ?_ | with_reducible refine (foldl_fst _ _ ?_ _ _).trans ?_
    | with_reducible refine (foldl_run _ _ ?_ _ _).trans ?_ | split)
@[simp] theorem State.sendFrame_frame (s : State) (port : Nat) (x : TxItem) : (State.sendFrame s port x).pending = s.pending ∧
    (State.sendFrame s port x).draws = s.draws ∧ (State.sendFrame s port x).aon = s.aon ∧ (State.sendFrame s port x).time =
    s.time ∧ (State.sendFrame s port x).persist = s.persist ∧ (State.sendFrame s port x).flash = s.flash ∧ (State.sendFrame s
    port x).streams = s.streams ∧ (State.sendFrame s port x).cores = s.cores ∧ (State.sendFrame s port x).ctxs = s.ctxs ∧
    (State.sendFrame s port x).mem = s.mem ∧ (State.sendFrame s port x).recov = s.recov ∧ (State.sendFrame s port x).clotha =
    s.clotha ∧ (State.sendFrame s port x).links = s.links ∧ (State.sendFrame s port x).svc = s.svc := by
  unfold State.sendFrame
  refine ⟨?_, ?_, ?_, ?_, ?_, ?_, ?_, ?_, ?_, ?_, ?_, ?_, ?_, ?_⟩ <;> (repeat' first
    | with_reducible rfl | simp only [State.ite_frame, ite_self, State.modPort_frame, State.send_frame] | (intro _ _)
    | with_reducible refine (foldl_proj _ _ ?_ _ _).trans ?_ | with_reducible refine (foldl_fst _ _ ?_ _ _).trans ?_
    | with_reducible refine (foldl_run _ _ ?_ _ _).trans ?_ | split)
@[simp] theorem State.resolveHop_frame (s : State) (port : Nat) (dst : IpAddr) : (State.resolveHop s port dst).1.pending =
    s.pending ∧ (State.resolveHop s port dst).1.draws = s.draws ∧ (State.resolveHop s port dst).1.aon = s.aon ∧
    (State.resolveHop s port dst).1.time = s.time ∧ (State.resolveHop s port dst).1.persist = s.persist ∧ (State.resolveHop s
    port dst).1.flash = s.flash ∧ (State.resolveHop s port dst).1.streams = s.streams ∧ (State.resolveHop s port dst).1.cores =
    s.cores ∧ (State.resolveHop s port dst).1.ctxs = s.ctxs ∧ (State.resolveHop s port dst).1.mem = s.mem ∧ (State.resolveHop s
    port dst).1.recov = s.recov ∧ (State.resolveHop s port dst).1.clotha = s.clotha ∧ (State.resolveHop s port dst).1.links =
    s.links ∧ (State.resolveHop s port dst).1.svc = s.svc := by
  unfold State.resolveHop
  refine ⟨?_, ?_, ?_, ?_, ?_, ?_, ?_, ?_, ?_, ?_, ?_, ?_, ?_, ?_⟩ <;> (repeat' first
    | with_reducible rfl | simp only [State.ite_frame, ite_self, State.sendFrame_frame, State.modPort_frame] | (intro _ _)
    | with_reducible refine (foldl_proj _ _ ?_ _ _).trans ?_ | with_reducible refine (foldl_fst _ _ ?_ _ _).trans ?_
    | with_reducible refine (foldl_run _ _ ?_ _ _).trans ?_ | split)
@[simp] theorem State.sendIp_frame (s : State) (port : Nat) (dst : IpAddr) (x : TxItem) : (State.sendIp s port dst x).pending =
    s.pending ∧ (State.sendIp s port dst x).draws = s.draws ∧ (State.sendIp s port dst x).aon = s.aon ∧ (State.sendIp s port
    dst x).time = s.time ∧ (State.sendIp s port dst x).persist = s.persist ∧ (State.sendIp s port dst x).flash = s.flash ∧
    (State.sendIp s port dst x).streams = s.streams ∧ (State.sendIp s port dst x).cores = s.cores ∧ (State.sendIp s port dst
    x).ctxs = s.ctxs ∧ (State.sendIp s port dst x).mem = s.mem ∧ (State.sendIp s port dst x).recov = s.recov ∧ (State.sendIp s
    port dst x).clotha = s.clotha ∧ (State.sendIp s port dst x).links = s.links ∧ (State.sendIp s port dst x).svc = s.svc := by
  unfold State.sendIp
  refine ⟨?_, ?_, ?_, ?_, ?_, ?_, ?_, ?_, ?_, ?_, ?_, ?_, ?_, ?_⟩ <;> (repeat' first
    | with_reducible rfl
    | simp only [State.ite_frame, ite_self, State.resolveHop_frame, State.sendFrame_frame, State.modPort_frame]
    | (intro _ _) | with_reducible refine (foldl_proj _ _ ?_ _ _).trans ?_
    | with_reducible refine (foldl_fst _ _ ?_ _ _).trans ?_ | with_reducible refine (foldl_run _ _ ?_ _ _).trans ?_ | split)
@[simp] theorem State.deliverFrames_frame (s : State) (port : Nat) (r : EgressResult) (x : StreamCtx) (p : Package) (c : Chunk)
    : (State.deliverFrames s port r x p c).pending = s.pending ∧ (State.deliverFrames s port r x p c).draws = s.draws ∧
    (State.deliverFrames s port r x p c).aon = s.aon ∧ (State.deliverFrames s port r x p c).time = s.time ∧
    (State.deliverFrames s port r x p c).persist = s.persist ∧ (State.deliverFrames s port r x p c).flash = s.flash ∧
    (State.deliverFrames s port r x p c).cores = s.cores ∧ (State.deliverFrames s port r x p c).ctxs = s.ctxs ∧
    (State.deliverFrames s port r x p c).mem = s.mem ∧ (State.deliverFrames s port r x p c).clotha = s.clotha ∧
    (State.deliverFrames s port r x p c).links = s.links ∧ (State.deliverFrames s port r x p c).svc = s.svc := by
  unfold State.deliverFrames
  refine ⟨?_, ?_, ?_, ?_, ?_, ?_, ?_, ?_, ?_, ?_, ?_, ?_⟩ <;> (repeat' first
    | with_reducible rfl
    | simp only [State.ite_frame, ite_self, State.send_frame, State.modPort_frame, State.modStream_frame,
      State.modStats_frame, State.bumpPoison_frame, State.chunkGone_frame, State.dropResult_frame] | (intro _ _)
    | with_reducible refine (foldl_proj _ _ ?_ _ _).trans ?_ | with_reducible refine (foldl_fst _ _ ?_ _ _).trans ?_
    | with_reducible refine (foldl_run _ _ ?_ _ _).trans ?_ | split)
@[simp] theorem State.deliver_frame (s : State) (port : Nat) (r : EgressResult) (x : StreamCtx) (p : Package) (c : Chunk) :
    (State.deliver s port r x p c).pending = s.pending ∧ (State.deliver s port r x p c).time = s.time ∧ (State.deliver s port r
    x p c).persist = s.persist ∧ (State.deliver s port r x p c).flash = s.flash ∧ (State.deliver s port r x p c).cores =
    s.cores ∧ (State.deliver s port r x p c).ctxs = s.ctxs ∧ (State.deliver s port r x p c).mem = s.mem ∧ (State.deliver s port
    r x p c).clotha = s.clotha ∧ (State.deliver s port r x p c).links = s.links ∧ (State.deliver s port r x p c).svc = s.svc :=
    by
  unfold State.deliver
  refine ⟨?_, ?_, ?_, ?_, ?_, ?_, ?_, ?_, ?_, ?_⟩ <;> (repeat' first
    | with_reducible rfl | simp only [State.ite_frame, ite_self, State.countMiss_frame, State.deliverFrames_frame]
    | (intro _ _) | with_reducible refine (foldl_proj _ _ ?_ _ _).trans ?_
    | with_reducible refine (foldl_fst _ _ ?_ _ _).trans ?_ | with_reducible refine (foldl_run _ _ ?_ _ _).trans ?_ | split)
@[simp] theorem State.freeStream_frame (s : State) (stream : Nat) : (State.freeStream s stream).pending = s.pending ∧
    (State.freeStream s stream).draws = s.draws ∧ (State.freeStream s stream).aon = s.aon ∧ (State.freeStream s stream).time =
    s.time ∧ (State.freeStream s stream).persist = s.persist ∧ (State.freeStream s stream).flash = s.flash ∧ (State.freeStream
    s stream).ctxs = s.ctxs ∧ (State.freeStream s stream).mem = s.mem ∧ (State.freeStream s stream).clotha = s.clotha ∧
    (State.freeStream s stream).net = s.net ∧ (State.freeStream s stream).links = s.links := by
  unfold State.freeStream
  refine ⟨?_, ?_, ?_, ?_, ?_, ?_, ?_, ?_, ?_, ?_, ?_⟩ <;> (repeat' first
    | with_reducible rfl
    | simp only [State.ite_frame, ite_self, State.uninstall_frame, State.checkOvercommit_frame, State.logEvent_frame]
    | (intro _ _) | with_reducible refine (foldl_proj _ _ ?_ _ _).trans ?_
    | with_reducible refine (foldl_fst _ _ ?_ _ _).trans ?_ | with_reducible refine (foldl_run _ _ ?_ _ _).trans ?_ | split)
@[simp] theorem State.countPort_frame (s : State) (port : Nat) (i : Nat) : (State.countPort s port i).pending = s.pending ∧
    (State.countPort s port i).draws = s.draws ∧ (State.countPort s port i).aon = s.aon ∧ (State.countPort s port i).time =
    s.time ∧ (State.countPort s port i).persist = s.persist ∧ (State.countPort s port i).flash = s.flash ∧ (State.countPort s
    port i).streams = s.streams ∧ (State.countPort s port i).cores = s.cores ∧ (State.countPort s port i).ctxs = s.ctxs ∧
    (State.countPort s port i).mem = s.mem ∧ (State.countPort s port i).recov = s.recov ∧ (State.countPort s port i).clotha =
    s.clotha ∧ (State.countPort s port i).links = s.links ∧ (State.countPort s port i).svc = s.svc := by
  unfold State.countPort
  refine ⟨?_, ?_, ?_, ?_, ?_, ?_, ?_, ?_, ?_, ?_, ?_, ?_, ?_, ?_⟩ <;> (repeat' first
    | with_reducible rfl | simp only [State.ite_frame, ite_self, State.modPort_frame] | (intro _ _)
    | with_reducible refine (foldl_proj _ _ ?_ _ _).trans ?_ | with_reducible refine (foldl_fst _ _ ?_ _ _).trans ?_
    | with_reducible refine (foldl_run _ _ ?_ _ _).trans ?_ | split)
@[simp] theorem State.poolDrop_frame (s : State) (port : Nat) (i : Nat) (code : Word16) : (State.poolDrop s port i
    code).pending = s.pending ∧ (State.poolDrop s port i code).draws = s.draws ∧ (State.poolDrop s port i code).aon = s.aon ∧
    (State.poolDrop s port i code).time = s.time ∧ (State.poolDrop s port i code).persist = s.persist ∧ (State.poolDrop s port
    i code).flash = s.flash ∧ (State.poolDrop s port i code).cores = s.cores ∧ (State.poolDrop s port i code).ctxs = s.ctxs ∧
    (State.poolDrop s port i code).mem = s.mem ∧ (State.poolDrop s port i code).clotha = s.clotha ∧ (State.poolDrop s port i
    code).links = s.links ∧ (State.poolDrop s port i code).svc = s.svc := by
  unfold State.poolDrop
  refine ⟨?_, ?_, ?_, ?_, ?_, ?_, ?_, ?_, ?_, ?_, ?_, ?_⟩ <;> (repeat' first
    | with_reducible rfl
    | simp only [State.ite_frame, ite_self, State.markCause_frame, State.countPort_frame, State.logEvent_frame]
    | (intro _ _) | with_reducible refine (foldl_proj _ _ ?_ _ _).trans ?_
    | with_reducible refine (foldl_fst _ _ ?_ _ _).trans ?_ | with_reducible refine (foldl_run _ _ ?_ _ _).trans ?_ | split)
@[simp] theorem State.takeMedia_frame (s : State) (port : Nat) (dst : Word16) (bs : List Byte) (authOk : Bool) (at_ : Nat) :
    (State.takeMedia s port dst bs authOk at_).pending = s.pending ∧ (State.takeMedia s port dst bs authOk at_).draws = s.draws
    ∧ (State.takeMedia s port dst bs authOk at_).aon = s.aon ∧ (State.takeMedia s port dst bs authOk at_).time = s.time ∧
    (State.takeMedia s port dst bs authOk at_).persist = s.persist ∧ (State.takeMedia s port dst bs authOk at_).flash = s.flash
    ∧ (State.takeMedia s port dst bs authOk at_).cores = s.cores ∧ (State.takeMedia s port dst bs authOk at_).ctxs = s.ctxs ∧
    (State.takeMedia s port dst bs authOk at_).clotha = s.clotha ∧ (State.takeMedia s port dst bs authOk at_).links = s.links ∧
    (State.takeMedia s port dst bs authOk at_).svc = s.svc := by
  unfold State.takeMedia
  refine ⟨?_, ?_, ?_, ?_, ?_, ?_, ?_, ?_, ?_, ?_, ?_⟩ <;> (repeat' first
    | with_reducible rfl | simp only [State.ite_frame, ite_self, State.mediaIn_frame] | (intro _ _)
    | with_reducible refine (foldl_proj _ _ ?_ _ _).trans ?_ | with_reducible refine (foldl_fst _ _ ?_ _ _).trans ?_
    | with_reducible refine (foldl_run _ _ ?_ _ _).trans ?_ | split)
@[simp] theorem State.stepTime_frame (s : State) (d : Int) : (State.stepTime s d).pending = s.pending ∧ (State.stepTime s
    d).draws = s.draws ∧ (State.stepTime s d).aon = s.aon ∧ (State.stepTime s d).persist = s.persist ∧ (State.stepTime s
    d).flash = s.flash ∧ (State.stepTime s d).mem = s.mem ∧ (State.stepTime s d).clotha = s.clotha ∧ (State.stepTime s d).net =
    s.net ∧ (State.stepTime s d).links = s.links ∧ (State.stepTime s d).svc = s.svc := by
  unfold State.stepTime
  refine ⟨?_, ?_, ?_, ?_, ?_, ?_, ?_, ?_, ?_, ?_⟩ <;> (repeat' first
    | with_reducible rfl | simp only [State.ite_frame, ite_self, State.modCores_frame, State.logFw_frame] | (intro _ _)
    | with_reducible refine (foldl_proj _ _ ?_ _ _).trans ?_ | with_reducible refine (foldl_fst _ _ ?_ _ _).trans ?_
    | with_reducible refine (foldl_run _ _ ?_ _ _).trans ?_ | split)
@[simp] theorem State.toTimeState_frame (s : State) (n : Nat) : (State.toTimeState s n).pending = s.pending ∧
    (State.toTimeState s n).draws = s.draws ∧ (State.toTimeState s n).aon = s.aon ∧ (State.toTimeState s n).persist = s.persist
    ∧ (State.toTimeState s n).flash = s.flash ∧ (State.toTimeState s n).cores = s.cores ∧ (State.toTimeState s n).ctxs = s.ctxs
    ∧ (State.toTimeState s n).mem = s.mem ∧ (State.toTimeState s n).clotha = s.clotha ∧ (State.toTimeState s n).net = s.net ∧
    (State.toTimeState s n).links = s.links ∧ (State.toTimeState s n).svc = s.svc := by
  unfold State.toTimeState
  refine ⟨?_, ?_, ?_, ?_, ?_, ?_, ?_, ?_, ?_, ?_, ?_, ?_⟩ <;> (repeat' first
    | with_reducible rfl | simp only [State.ite_frame, ite_self, State.markCause_frame, State.logFw_frame] | (intro _ _)
    | with_reducible refine (foldl_proj _ _ ?_ _ _).trans ?_ | with_reducible refine (foldl_fst _ _ ?_ _ _).trans ?_
    | with_reducible refine (foldl_run _ _ ?_ _ _).trans ?_ | split)
@[simp] theorem State.measure_frame (s : State) (off : Int) : (State.measure s off).pending = s.pending ∧ (State.measure s
    off).draws = s.draws ∧ (State.measure s off).aon = s.aon ∧ (State.measure s off).persist = s.persist ∧ (State.measure s
    off).flash = s.flash ∧ (State.measure s off).mem = s.mem ∧ (State.measure s off).clotha = s.clotha ∧ (State.measure s
    off).net = s.net ∧ (State.measure s off).links = s.links ∧ (State.measure s off).svc = s.svc := by
  unfold State.measure
  refine ⟨?_, ?_, ?_, ?_, ?_, ?_, ?_, ?_, ?_, ?_⟩ <;> (repeat' first
    | with_reducible rfl | simp only [State.ite_frame, ite_self, State.stepTime_frame, State.toTimeState_frame]
    | (intro _ _) | with_reducible refine (foldl_proj _ _ ?_ _ _).trans ?_
    | with_reducible refine (foldl_fst _ _ ?_ _ _).trans ?_ | with_reducible refine (foldl_run _ _ ?_ _ _).trans ?_ | split)
@[simp] theorem State.ptpAnnounce_frame (s : State) (p : PtpPeer) : (State.ptpAnnounce s p).pending = s.pending ∧
    (State.ptpAnnounce s p).draws = s.draws ∧ (State.ptpAnnounce s p).aon = s.aon ∧ (State.ptpAnnounce s p).persist = s.persist
    ∧ (State.ptpAnnounce s p).flash = s.flash ∧ (State.ptpAnnounce s p).cores = s.cores ∧ (State.ptpAnnounce s p).ctxs = s.ctxs
    ∧ (State.ptpAnnounce s p).mem = s.mem ∧ (State.ptpAnnounce s p).clotha = s.clotha ∧ (State.ptpAnnounce s p).net = s.net ∧
    (State.ptpAnnounce s p).links = s.links ∧ (State.ptpAnnounce s p).svc = s.svc := by
  unfold State.ptpAnnounce
  refine ⟨?_, ?_, ?_, ?_, ?_, ?_, ?_, ?_, ?_, ?_, ?_, ?_⟩ <;> (repeat' first
    | with_reducible rfl | simp only [State.ite_frame, ite_self, State.toTimeState_frame] | (intro _ _)
    | with_reducible refine (foldl_proj _ _ ?_ _ _).trans ?_ | with_reducible refine (foldl_fst _ _ ?_ _ _).trans ?_
    | with_reducible refine (foldl_run _ _ ?_ _ _).trans ?_ | split)
@[simp] theorem State.ptpSync_frame (s : State) (origin : Nat) (arrival : Nat) : (State.ptpSync s origin arrival).pending =
    s.pending ∧ (State.ptpSync s origin arrival).draws = s.draws ∧ (State.ptpSync s origin arrival).aon = s.aon ∧
    (State.ptpSync s origin arrival).persist = s.persist ∧ (State.ptpSync s origin arrival).flash = s.flash ∧ (State.ptpSync s
    origin arrival).mem = s.mem ∧ (State.ptpSync s origin arrival).clotha = s.clotha ∧ (State.ptpSync s origin arrival).net =
    s.net ∧ (State.ptpSync s origin arrival).links = s.links ∧ (State.ptpSync s origin arrival).svc = s.svc := by
  unfold State.ptpSync
  refine ⟨?_, ?_, ?_, ?_, ?_, ?_, ?_, ?_, ?_, ?_⟩ <;> (repeat' first
    | with_reducible rfl | simp only [State.ite_frame, ite_self, State.measure_frame] | (intro _ _)
    | with_reducible refine (foldl_proj _ _ ?_ _ _).trans ?_ | with_reducible refine (foldl_fst _ _ ?_ _ _).trans ?_
    | with_reducible refine (foldl_run _ _ ?_ _ _).trans ?_ | split)
@[simp] theorem State.ptpStamp_frame (s : State) : (State.ptpStamp s).1.pending = s.pending ∧ (State.ptpStamp s).1.aon = s.aon
    ∧ (State.ptpStamp s).1.time = s.time ∧ (State.ptpStamp s).1.persist = s.persist ∧ (State.ptpStamp s).1.flash = s.flash ∧
    (State.ptpStamp s).1.streams = s.streams ∧ (State.ptpStamp s).1.cores = s.cores ∧ (State.ptpStamp s).1.ctxs = s.ctxs ∧
    (State.ptpStamp s).1.mem = s.mem ∧ (State.ptpStamp s).1.recov = s.recov ∧ (State.ptpStamp s).1.clotha = s.clotha ∧
    (State.ptpStamp s).1.net = s.net ∧ (State.ptpStamp s).1.links = s.links ∧ (State.ptpStamp s).1.svc = s.svc := by
  unfold State.ptpStamp
  refine ⟨?_, ?_, ?_, ?_, ?_, ?_, ?_, ?_, ?_, ?_, ?_, ?_, ?_, ?_⟩ <;> (repeat' first
    | with_reducible rfl | simp only [State.ite_frame, ite_self, State.draw_frame] | (intro _ _)
    | with_reducible refine (foldl_proj _ _ ?_ _ _).trans ?_ | with_reducible refine (foldl_fst _ _ ?_ _ _).trans ?_
    | with_reducible refine (foldl_run _ _ ?_ _ _).trans ?_ | split)
@[simp] theorem State.restartTime_frame (s : State) : (State.restartTime s).pending = s.pending ∧ (State.restartTime s).draws =
    s.draws ∧ (State.restartTime s).aon = s.aon ∧ (State.restartTime s).persist = s.persist ∧ (State.restartTime s).flash =
    s.flash ∧ (State.restartTime s).cores = s.cores ∧ (State.restartTime s).ctxs = s.ctxs ∧ (State.restartTime s).mem = s.mem ∧
    (State.restartTime s).clotha = s.clotha ∧ (State.restartTime s).net = s.net ∧ (State.restartTime s).links = s.links ∧
    (State.restartTime s).svc = s.svc := by
  unfold State.restartTime
  refine ⟨?_, ?_, ?_, ?_, ?_, ?_, ?_, ?_, ?_, ?_, ?_, ?_⟩ <;> (repeat' first
    | with_reducible rfl | simp only [State.ite_frame, ite_self, State.toTimeState_frame] | (intro _ _)
    | with_reducible refine (foldl_proj _ _ ?_ _ _).trans ?_ | with_reducible refine (foldl_fst _ _ ?_ _ _).trans ?_
    | with_reducible refine (foldl_run _ _ ?_ _ _).trans ?_ | split)
@[simp] theorem State.holdClip_frame (s : State) (part : Nat) : (State.holdClip s part).pending = s.pending ∧ (State.holdClip s
    part).draws = s.draws ∧ (State.holdClip s part).aon = s.aon ∧ (State.holdClip s part).time = s.time ∧ (State.holdClip s
    part).persist = s.persist ∧ (State.holdClip s part).flash = s.flash ∧ (State.holdClip s part).streams = s.streams ∧
    (State.holdClip s part).cores = s.cores ∧ (State.holdClip s part).ctxs = s.ctxs ∧ (State.holdClip s part).mem = s.mem ∧
    (State.holdClip s part).recov = s.recov ∧ (State.holdClip s part).clotha = s.clotha ∧ (State.holdClip s part).net = s.net ∧
    (State.holdClip s part).links = s.links := by
  unfold State.holdClip
  refine ⟨?_, ?_, ?_, ?_, ?_, ?_, ?_, ?_, ?_, ?_, ?_, ?_, ?_, ?_⟩ <;> (repeat' first
    | with_reducible rfl | simp only [State.ite_frame, ite_self] | (intro _ _)
    | with_reducible refine (foldl_proj _ _ ?_ _ _).trans ?_ | with_reducible refine (foldl_fst _ _ ?_ _ _).trans ?_
    | with_reducible refine (foldl_run _ _ ?_ _ _).trans ?_ | split)
@[simp] theorem State.writeObj_frame (s : State) (index : Nat) (sub : Nat) (v : List Byte) : (State.writeObj s index sub
    v).pending = s.pending ∧ (State.writeObj s index sub v).draws = s.draws ∧ (State.writeObj s index sub v).aon = s.aon ∧
    (State.writeObj s index sub v).flash = s.flash ∧ (State.writeObj s index sub v).clotha = s.clotha ∧ (State.writeObj s index
    sub v).net = s.net := by
  unfold State.writeObj
  refine ⟨?_, ?_, ?_, ?_, ?_, ?_⟩ <;> (repeat' first
    | with_reducible rfl
    | simp only [State.ite_frame, ite_self, State.holdClip_frame, State.restartTime_frame, State.linkGoDown_frame,
      State.checkOvercommit_frame] | (intro _ _) | with_reducible refine (foldl_proj _ _ ?_ _ _).trans ?_
    | with_reducible refine (foldl_fst _ _ ?_ _ _).trans ?_ | with_reducible refine (foldl_run _ _ ?_ _ _).trans ?_ | split)
@[simp] theorem State.countComm_frame (s : State) (tr : Nat) (i : Nat) : (State.countComm s tr i).pending = s.pending ∧
    (State.countComm s tr i).draws = s.draws ∧ (State.countComm s tr i).aon = s.aon ∧ (State.countComm s tr i).time = s.time ∧
    (State.countComm s tr i).persist = s.persist ∧ (State.countComm s tr i).flash = s.flash ∧ (State.countComm s tr i).streams
    = s.streams ∧ (State.countComm s tr i).cores = s.cores ∧ (State.countComm s tr i).ctxs = s.ctxs ∧ (State.countComm s tr
    i).mem = s.mem ∧ (State.countComm s tr i).recov = s.recov ∧ (State.countComm s tr i).net = s.net ∧ (State.countComm s tr
    i).links = s.links ∧ (State.countComm s tr i).svc = s.svc := by
  unfold State.countComm
  refine ⟨?_, ?_, ?_, ?_, ?_, ?_, ?_, ?_, ?_, ?_, ?_, ?_, ?_, ?_⟩ <;> (repeat' first
    | with_reducible rfl | simp only [State.ite_frame, ite_self] | (intro _ _)
    | with_reducible refine (foldl_proj _ _ ?_ _ _).trans ?_ | with_reducible refine (foldl_fst _ _ ?_ _ _).trans ?_
    | with_reducible refine (foldl_run _ _ ?_ _ _).trans ?_ | split)
@[simp] theorem State.putKey_frame (s : State) (n : Nat) (k : KeyRec) : (State.putKey s n k).pending = s.pending ∧
    (State.putKey s n k).draws = s.draws ∧ (State.putKey s n k).aon = s.aon ∧ (State.putKey s n k).time = s.time ∧
    (State.putKey s n k).flash = s.flash ∧ (State.putKey s n k).streams = s.streams ∧ (State.putKey s n k).cores = s.cores ∧
    (State.putKey s n k).ctxs = s.ctxs ∧ (State.putKey s n k).mem = s.mem ∧ (State.putKey s n k).recov = s.recov ∧
    (State.putKey s n k).clotha = s.clotha ∧ (State.putKey s n k).net = s.net ∧ (State.putKey s n k).links = s.links ∧
    (State.putKey s n k).svc = s.svc := by
  unfold State.putKey
  refine ⟨?_, ?_, ?_, ?_, ?_, ?_, ?_, ?_, ?_, ?_, ?_, ?_, ?_, ?_⟩ <;> (repeat' first
    | with_reducible rfl | simp only [State.ite_frame, ite_self] | (intro _ _)
    | with_reducible refine (foldl_proj _ _ ?_ _ _).trans ?_ | with_reducible refine (foldl_fst _ _ ?_ _ _).trans ?_
    | with_reducible refine (foldl_run _ _ ?_ _ _).trans ?_ | split)
@[simp] theorem State.acceptCounter_frame (s : State) (n : Nat) (k : KeyRec) : (State.acceptCounter s n k).pending = s.pending
    ∧ (State.acceptCounter s n k).draws = s.draws ∧ (State.acceptCounter s n k).aon = s.aon ∧ (State.acceptCounter s n k).time
    = s.time ∧ (State.acceptCounter s n k).flash = s.flash ∧ (State.acceptCounter s n k).streams = s.streams ∧
    (State.acceptCounter s n k).cores = s.cores ∧ (State.acceptCounter s n k).ctxs = s.ctxs ∧ (State.acceptCounter s n k).mem =
    s.mem ∧ (State.acceptCounter s n k).recov = s.recov ∧ (State.acceptCounter s n k).net = s.net ∧ (State.acceptCounter s n
    k).links = s.links ∧ (State.acceptCounter s n k).svc = s.svc := by
  unfold State.acceptCounter
  refine ⟨?_, ?_, ?_, ?_, ?_, ?_, ?_, ?_, ?_, ?_, ?_, ?_, ?_⟩ <;> (repeat' first
    | with_reducible rfl | simp only [State.ite_frame, ite_self, State.commitPersist_frame, State.putKey_frame]
    | (intro _ _) | with_reducible refine (foldl_proj _ _ ?_ _ _).trans ?_
    | with_reducible refine (foldl_fst _ _ ?_ _ _).trans ?_ | with_reducible refine (foldl_run _ _ ?_ _ _).trans ?_ | split)
@[simp] theorem State.emit_frame (s : State) (m : Msg) : (State.emit s m).pending = s.pending ∧ (State.emit s m).aon = s.aon ∧
    (State.emit s m).time = s.time ∧ (State.emit s m).persist = s.persist ∧ (State.emit s m).flash = s.flash ∧ (State.emit s
    m).streams = s.streams ∧ (State.emit s m).cores = s.cores ∧ (State.emit s m).ctxs = s.ctxs ∧ (State.emit s m).mem = s.mem ∧
    (State.emit s m).recov = s.recov ∧ (State.emit s m).links = s.links ∧ (State.emit s m).svc = s.svc := by
  unfold State.emit
  refine ⟨?_, ?_, ?_, ?_, ?_, ?_, ?_, ?_, ?_, ?_, ?_, ?_⟩ <;> (repeat' first
    | with_reducible rfl | simp only [State.ite_frame, ite_self, State.sendIp_frame, State.draw_frame] | (intro _ _)
    | with_reducible refine (foldl_proj _ _ ?_ _ _).trans ?_ | with_reducible refine (foldl_fst _ _ ?_ _ _).trans ?_
    | with_reducible refine (foldl_run _ _ ?_ _ _).trans ?_ | split)
@[simp] theorem State.answerNow_frame (s : State) (r : Req) (code : Word16) (body : List Byte) (tagged : Bool) :
    (State.answerNow s r code body tagged).pending = s.pending ∧ (State.answerNow s r code body tagged).aon = s.aon ∧
    (State.answerNow s r code body tagged).time = s.time ∧ (State.answerNow s r code body tagged).persist = s.persist ∧
    (State.answerNow s r code body tagged).flash = s.flash ∧ (State.answerNow s r code body tagged).streams = s.streams ∧
    (State.answerNow s r code body tagged).cores = s.cores ∧ (State.answerNow s r code body tagged).ctxs = s.ctxs ∧
    (State.answerNow s r code body tagged).mem = s.mem ∧ (State.answerNow s r code body tagged).recov = s.recov ∧
    (State.answerNow s r code body tagged).links = s.links ∧ (State.answerNow s r code body tagged).svc = s.svc := by
  unfold State.answerNow
  refine ⟨?_, ?_, ?_, ?_, ?_, ?_, ?_, ?_, ?_, ?_, ?_, ?_⟩ <;> (repeat' first
    | with_reducible rfl | simp only [State.ite_frame, ite_self, State.emit_frame] | (intro _ _)
    | with_reducible refine (foldl_proj _ _ ?_ _ _).trans ?_ | with_reducible refine (foldl_fst _ _ ?_ _ _).trans ?_
    | with_reducible refine (foldl_run _ _ ?_ _ _).trans ?_ | split)
@[simp] theorem State.finish_frame (s : State) (m : Msg) : (State.finish s m).pending = s.pending ∧ (State.finish s m).aon =
    s.aon ∧ (State.finish s m).time = s.time ∧ (State.finish s m).persist = s.persist ∧ (State.finish s m).flash = s.flash ∧
    (State.finish s m).streams = s.streams ∧ (State.finish s m).cores = s.cores ∧ (State.finish s m).ctxs = s.ctxs ∧
    (State.finish s m).mem = s.mem ∧ (State.finish s m).recov = s.recov ∧ (State.finish s m).links = s.links ∧ (State.finish s
    m).svc = s.svc := by
  unfold State.finish
  refine ⟨?_, ?_, ?_, ?_, ?_, ?_, ?_, ?_, ?_, ?_, ?_, ?_⟩ <;> (repeat' first
    | with_reducible rfl | simp only [State.ite_frame, ite_self, State.countComm_frame, State.emit_frame] | (intro _ _)
    | with_reducible refine (foldl_proj _ _ ?_ _ _).trans ?_ | with_reducible refine (foldl_fst _ _ ?_ _ _).trans ?_
    | with_reducible refine (foldl_run _ _ ?_ _ _).trans ?_ | split)
@[simp] theorem State.authFail_frame (s : State) (r : Req) (code : Word16) : (State.authFail s r code).pending = s.pending ∧
    (State.authFail s r code).aon = s.aon ∧ (State.authFail s r code).time = s.time ∧ (State.authFail s r code).persist =
    s.persist ∧ (State.authFail s r code).flash = s.flash ∧ (State.authFail s r code).streams = s.streams ∧ (State.authFail s r
    code).cores = s.cores ∧ (State.authFail s r code).ctxs = s.ctxs ∧ (State.authFail s r code).mem = s.mem ∧ (State.authFail s
    r code).links = s.links ∧ (State.authFail s r code).svc = s.svc := by
  unfold State.authFail
  refine ⟨?_, ?_, ?_, ?_, ?_, ?_, ?_, ?_, ?_, ?_, ?_⟩ <;> (repeat' first
    | with_reducible rfl
    | simp only [State.ite_frame, ite_self, State.countComm_frame, State.answerNow_frame, State.logEvent_frame]
    | (intro _ _) | with_reducible refine (foldl_proj _ _ ?_ _ _).trans ?_
    | with_reducible refine (foldl_fst _ _ ?_ _ _).trans ?_ | with_reducible refine (foldl_run _ _ ?_ _ _).trans ?_ | split)
@[simp] theorem State.tooOld_frame (s : State) (r : Req) (high : Nat) : (State.tooOld s r high).pending = s.pending ∧
    (State.tooOld s r high).aon = s.aon ∧ (State.tooOld s r high).time = s.time ∧ (State.tooOld s r high).persist = s.persist ∧
    (State.tooOld s r high).flash = s.flash ∧ (State.tooOld s r high).streams = s.streams ∧ (State.tooOld s r high).cores =
    s.cores ∧ (State.tooOld s r high).ctxs = s.ctxs ∧ (State.tooOld s r high).mem = s.mem ∧ (State.tooOld s r high).recov =
    s.recov ∧ (State.tooOld s r high).links = s.links ∧ (State.tooOld s r high).svc = s.svc := by
  unfold State.tooOld
  refine ⟨?_, ?_, ?_, ?_, ?_, ?_, ?_, ?_, ?_, ?_, ?_, ?_⟩ <;> (repeat' first
    | with_reducible rfl | simp only [State.ite_frame, ite_self, State.countComm_frame, State.answerNow_frame]
    | (intro _ _) | with_reducible refine (foldl_proj _ _ ?_ _ _).trans ?_
    | with_reducible refine (foldl_fst _ _ ?_ _ _).trans ?_ | with_reducible refine (foldl_run _ _ ?_ _ _).trans ?_ | split)
@[simp] theorem State.enqueue_frame (s : State) (r : Req) : (State.enqueue s r).pending = s.pending ∧ (State.enqueue s r).aon =
    s.aon ∧ (State.enqueue s r).time = s.time ∧ (State.enqueue s r).persist = s.persist ∧ (State.enqueue s r).flash = s.flash ∧
    (State.enqueue s r).streams = s.streams ∧ (State.enqueue s r).cores = s.cores ∧ (State.enqueue s r).ctxs = s.ctxs ∧
    (State.enqueue s r).mem = s.mem ∧ (State.enqueue s r).recov = s.recov ∧ (State.enqueue s r).links = s.links ∧
    (State.enqueue s r).svc = s.svc := by
  unfold State.enqueue
  refine ⟨?_, ?_, ?_, ?_, ?_, ?_, ?_, ?_, ?_, ?_, ?_, ?_⟩ <;> (repeat' first
    | with_reducible rfl
    | simp only [State.ite_frame, ite_self, State.answerNow_frame, State.emit_frame, State.countComm_frame] | (intro _ _)
    | with_reducible refine (foldl_proj _ _ ?_ _ _).trans ?_ | with_reducible refine (foldl_fst _ _ ?_ _ _).trans ?_
    | with_reducible refine (foldl_run _ _ ?_ _ _).trans ?_ | split)
@[simp] theorem State.receive_frame (s : State) (via : Via) (msg : List Byte) (tagOk : Bool) : (State.receive s via msg
    tagOk).pending = s.pending ∧ (State.receive s via msg tagOk).aon = s.aon ∧ (State.receive s via msg tagOk).time = s.time ∧
    (State.receive s via msg tagOk).flash = s.flash ∧ (State.receive s via msg tagOk).streams = s.streams ∧ (State.receive s
    via msg tagOk).cores = s.cores ∧ (State.receive s via msg tagOk).ctxs = s.ctxs ∧ (State.receive s via msg tagOk).mem =
    s.mem ∧ (State.receive s via msg tagOk).links = s.links ∧ (State.receive s via msg tagOk).svc = s.svc := by
  unfold State.receive
  refine ⟨?_, ?_, ?_, ?_, ?_, ?_, ?_, ?_, ?_, ?_⟩ <;> (repeat' first
    | with_reducible rfl
    | simp only [State.ite_frame, ite_self, State.answerNow_frame, State.authFail_frame, State.tooOld_frame,
      State.countComm_frame, State.acceptCounter_frame, State.enqueue_frame] | (intro _ _)
    | with_reducible refine (foldl_proj _ _ ?_ _ _).trans ?_ | with_reducible refine (foldl_fst _ _ ?_ _ _).trans ?_
    | with_reducible refine (foldl_run _ _ ?_ _ _).trans ?_ | split)
@[simp] theorem State.discardReq_frame (s : State) (r : Req) : (State.discardReq s r).pending = s.pending ∧ (State.discardReq s
    r).draws = s.draws ∧ (State.discardReq s r).aon = s.aon ∧ (State.discardReq s r).time = s.time ∧ (State.discardReq s
    r).persist = s.persist ∧ (State.discardReq s r).flash = s.flash ∧ (State.discardReq s r).streams = s.streams ∧
    (State.discardReq s r).cores = s.cores ∧ (State.discardReq s r).ctxs = s.ctxs ∧ (State.discardReq s r).mem = s.mem ∧
    (State.discardReq s r).recov = s.recov ∧ (State.discardReq s r).net = s.net ∧ (State.discardReq s r).links = s.links ∧
    (State.discardReq s r).svc = s.svc := by
  unfold State.discardReq
  refine ⟨?_, ?_, ?_, ?_, ?_, ?_, ?_, ?_, ?_, ?_, ?_, ?_, ?_, ?_⟩ <;> (repeat' first
    | with_reducible rfl | simp only [State.ite_frame, ite_self, State.countComm_frame] | (intro _ _)
    | with_reducible refine (foldl_proj _ _ ?_ _ _).trans ?_ | with_reducible refine (foldl_fst _ _ ?_ _ _).trans ?_
    | with_reducible refine (foldl_run _ _ ?_ _ _).trans ?_ | split)
@[simp] theorem State.respond_frame (s : State) (r : Req) (code : Word16) (body : List Byte) (bulk : List Byte) :
    (State.respond s r code body bulk).pending = s.pending ∧ (State.respond s r code body bulk).aon = s.aon ∧ (State.respond s
    r code body bulk).time = s.time ∧ (State.respond s r code body bulk).persist = s.persist ∧ (State.respond s r code body
    bulk).flash = s.flash ∧ (State.respond s r code body bulk).streams = s.streams ∧ (State.respond s r code body bulk).cores =
    s.cores ∧ (State.respond s r code body bulk).ctxs = s.ctxs ∧ (State.respond s r code body bulk).mem = s.mem ∧
    (State.respond s r code body bulk).recov = s.recov ∧ (State.respond s r code body bulk).links = s.links ∧ (State.respond s
    r code body bulk).svc = s.svc := by
  unfold State.respond
  refine ⟨?_, ?_, ?_, ?_, ?_, ?_, ?_, ?_, ?_, ?_, ?_, ?_⟩ <;> (repeat' first
    | with_reducible rfl | simp only [State.ite_frame, ite_self, State.finish_frame] | (intro _ _)
    | with_reducible refine (foldl_proj _ _ ?_ _ _).trans ?_ | with_reducible refine (foldl_fst _ _ ?_ _ _).trans ?_
    | with_reducible refine (foldl_run _ _ ?_ _ _).trans ?_ | split)
@[simp] theorem State.respondCommitted_frame (s : State) (r : Req) (code : Word16) (body : List Byte) : (State.respondCommitted
    s r code body).pending = s.pending ∧ (State.respondCommitted s r code body).draws = s.draws ∧ (State.respondCommitted s r
    code body).aon = s.aon ∧ (State.respondCommitted s r code body).time = s.time ∧ (State.respondCommitted s r code
    body).persist = s.persist ∧ (State.respondCommitted s r code body).flash = s.flash ∧ (State.respondCommitted s r code
    body).streams = s.streams ∧ (State.respondCommitted s r code body).cores = s.cores ∧ (State.respondCommitted s r code
    body).ctxs = s.ctxs ∧ (State.respondCommitted s r code body).mem = s.mem ∧ (State.respondCommitted s r code body).recov =
    s.recov ∧ (State.respondCommitted s r code body).net = s.net ∧ (State.respondCommitted s r code body).links = s.links ∧
    (State.respondCommitted s r code body).svc = s.svc := by
  unfold State.respondCommitted
  refine ⟨?_, ?_, ?_, ?_, ?_, ?_, ?_, ?_, ?_, ?_, ?_, ?_, ?_, ?_⟩ <;> (repeat' first
    | with_reducible rfl | simp only [State.ite_frame, ite_self] | (intro _ _)
    | with_reducible refine (foldl_proj _ _ ?_ _ _).trans ?_ | with_reducible refine (foldl_fst _ _ ?_ _ _).trans ?_
    | with_reducible refine (foldl_run _ _ ?_ _ _).trans ?_ | split)
@[simp] theorem State.applyWrite_frame (s : State) (r : Req) (c : Caller) : (State.applyWrite s r c).pending = s.pending ∧
    (State.applyWrite s r c).aon = s.aon ∧ (State.applyWrite s r c).flash = s.flash := by
  unfold State.applyWrite
  refine ⟨?_, ?_, ?_⟩ <;> (repeat' first
    | with_reducible rfl
    | simp only [State.ite_frame, ite_self, State.respond_frame, State.writeObj_frame, State.respondCommitted_frame]
    | (intro _ _) | with_reducible refine (foldl_proj _ _ ?_ _ _).trans ?_
    | with_reducible refine (foldl_fst _ _ ?_ _ _).trans ?_ | with_reducible refine (foldl_run _ _ ?_ _ _).trans ?_ | split)
@[simp] theorem State.commitDone_frame (s : State) : (State.commitDone s).pending = s.pending ∧ (State.commitDone s).time =
    s.time ∧ (State.commitDone s).streams = s.streams ∧ (State.commitDone s).cores = s.cores ∧ (State.commitDone s).ctxs =
    s.ctxs ∧ (State.commitDone s).mem = s.mem ∧ (State.commitDone s).recov = s.recov ∧ (State.commitDone s).links = s.links ∧
    (State.commitDone s).svc = s.svc := by
  unfold State.commitDone
  refine ⟨?_, ?_, ?_, ?_, ?_, ?_, ?_, ?_, ?_⟩ <;> (repeat' first
    | with_reducible rfl | simp only [State.ite_frame, ite_self, commitShutdown_frame, State.finish_frame] | (intro _ _)
    | with_reducible refine (foldl_proj _ _ ?_ _ _).trans ?_ | with_reducible refine (foldl_fst _ _ ?_ _ _).trans ?_
    | with_reducible refine (foldl_run _ _ ?_ _ _).trans ?_ | split)
@[simp] theorem State.queueError_frame (s : State) (event : Nat) (code : Nat) (kind : Nat) (index : Nat) (detail : List (Nat ×
    Int)) : (State.queueError s event code kind index detail).pending = s.pending ∧ (State.queueError s event code kind index
    detail).draws = s.draws ∧ (State.queueError s event code kind index detail).aon = s.aon ∧ (State.queueError s event code
    kind index detail).time = s.time ∧ (State.queueError s event code kind index detail).persist = s.persist ∧
    (State.queueError s event code kind index detail).flash = s.flash ∧ (State.queueError s event code kind index
    detail).streams = s.streams ∧ (State.queueError s event code kind index detail).cores = s.cores ∧ (State.queueError s event
    code kind index detail).ctxs = s.ctxs ∧ (State.queueError s event code kind index detail).mem = s.mem ∧ (State.queueError s
    event code kind index detail).clotha = s.clotha ∧ (State.queueError s event code kind index detail).net = s.net ∧
    (State.queueError s event code kind index detail).links = s.links ∧ (State.queueError s event code kind index detail).svc =
    s.svc := by
  unfold State.queueError
  refine ⟨?_, ?_, ?_, ?_, ?_, ?_, ?_, ?_, ?_, ?_, ?_, ?_, ?_, ?_⟩ <;> (repeat' first
    | with_reducible rfl | simp only [State.ite_frame, ite_self] | (intro _ _)
    | with_reducible refine (foldl_proj _ _ ?_ _ _).trans ?_ | with_reducible refine (foldl_fst _ _ ?_ _ _).trans ?_
    | with_reducible refine (foldl_run _ _ ?_ _ _).trans ?_ | split)
@[simp] theorem State.firstError_frame (s : State) (dom : Nat) (event : Nat) (code : Nat) (kind : Nat) (index : Nat) :
    (State.firstError s dom event code kind index).pending = s.pending ∧ (State.firstError s dom event code kind index).draws =
    s.draws ∧ (State.firstError s dom event code kind index).aon = s.aon ∧ (State.firstError s dom event code kind index).time
    = s.time ∧ (State.firstError s dom event code kind index).persist = s.persist ∧ (State.firstError s dom event code kind
    index).flash = s.flash ∧ (State.firstError s dom event code kind index).streams = s.streams ∧ (State.firstError s dom event
    code kind index).cores = s.cores ∧ (State.firstError s dom event code kind index).ctxs = s.ctxs ∧ (State.firstError s dom
    event code kind index).mem = s.mem ∧ (State.firstError s dom event code kind index).clotha = s.clotha ∧ (State.firstError s
    dom event code kind index).net = s.net ∧ (State.firstError s dom event code kind index).links = s.links ∧ (State.firstError
    s dom event code kind index).svc = s.svc := by
  unfold State.firstError
  refine ⟨?_, ?_, ?_, ?_, ?_, ?_, ?_, ?_, ?_, ?_, ?_, ?_, ?_, ?_⟩ <;> (repeat' first
    | with_reducible rfl | simp only [State.ite_frame, ite_self] | (intro _ _)
    | with_reducible refine (foldl_proj _ _ ?_ _ _).trans ?_ | with_reducible refine (foldl_fst _ _ ?_ _ _).trans ?_
    | with_reducible refine (foldl_run _ _ ?_ _ _).trans ?_ | split)
@[simp] theorem State.laterError_frame (s : State) (dom : Nat) : (State.laterError s dom).pending = s.pending ∧
    (State.laterError s dom).draws = s.draws ∧ (State.laterError s dom).aon = s.aon ∧ (State.laterError s dom).time = s.time ∧
    (State.laterError s dom).persist = s.persist ∧ (State.laterError s dom).flash = s.flash ∧ (State.laterError s dom).streams
    = s.streams ∧ (State.laterError s dom).cores = s.cores ∧ (State.laterError s dom).ctxs = s.ctxs ∧ (State.laterError s
    dom).mem = s.mem ∧ (State.laterError s dom).clotha = s.clotha ∧ (State.laterError s dom).net = s.net ∧ (State.laterError s
    dom).links = s.links ∧ (State.laterError s dom).svc = s.svc := by
  unfold State.laterError
  refine ⟨?_, ?_, ?_, ?_, ?_, ?_, ?_, ?_, ?_, ?_, ?_, ?_, ?_, ?_⟩ <;> (repeat' first
    | with_reducible rfl | simp only [State.ite_frame, ite_self] | (intro _ _)
    | with_reducible refine (foldl_proj _ _ ?_ _ _).trans ?_ | with_reducible refine (foldl_fst _ _ ?_ _ _).trans ?_
    | with_reducible refine (foldl_run _ _ ?_ _ _).trans ?_ | split)
@[simp] theorem State.modDie_frame (s : State) (d : Nat) (f : Sequencer → Sequencer) : (State.modDie s d f).pending = s.pending
    ∧ (State.modDie s d f).draws = s.draws ∧ (State.modDie s d f).aon = s.aon ∧ (State.modDie s d f).time = s.time ∧
    (State.modDie s d f).persist = s.persist ∧ (State.modDie s d f).flash = s.flash ∧ (State.modDie s d f).streams = s.streams
    ∧ (State.modDie s d f).cores = s.cores ∧ (State.modDie s d f).ctxs = s.ctxs ∧ (State.modDie s d f).mem = s.mem ∧
    (State.modDie s d f).clotha = s.clotha ∧ (State.modDie s d f).net = s.net ∧ (State.modDie s d f).links = s.links ∧
    (State.modDie s d f).svc = s.svc := by
  unfold State.modDie
  refine ⟨?_, ?_, ?_, ?_, ?_, ?_, ?_, ?_, ?_, ?_, ?_, ?_, ?_, ?_⟩ <;> (repeat' first
    | with_reducible rfl | simp only [State.ite_frame, ite_self] | (intro _ _)
    | with_reducible refine (foldl_proj _ _ ?_ _ _).trans ?_ | with_reducible refine (foldl_fst _ _ ?_ _ _).trans ?_
    | with_reducible refine (foldl_run _ _ ?_ _ _).trans ?_ | split)
@[simp] theorem State.modSeq_frame (s : State) (c : Nat) (f : Sequencer → Sequencer) : (State.modSeq s c f).pending = s.pending
    ∧ (State.modSeq s c f).draws = s.draws ∧ (State.modSeq s c f).aon = s.aon ∧ (State.modSeq s c f).time = s.time ∧
    (State.modSeq s c f).persist = s.persist ∧ (State.modSeq s c f).flash = s.flash ∧ (State.modSeq s c f).streams = s.streams
    ∧ (State.modSeq s c f).ctxs = s.ctxs ∧ (State.modSeq s c f).mem = s.mem ∧ (State.modSeq s c f).recov = s.recov ∧
    (State.modSeq s c f).clotha = s.clotha ∧ (State.modSeq s c f).net = s.net ∧ (State.modSeq s c f).links = s.links ∧
    (State.modSeq s c f).svc = s.svc := by
  unfold State.modSeq
  refine ⟨?_, ?_, ?_, ?_, ?_, ?_, ?_, ?_, ?_, ?_, ?_, ?_, ?_, ?_⟩ <;> (repeat' first
    | with_reducible rfl | simp only [State.ite_frame, ite_self, State.modCore_frame] | (intro _ _)
    | with_reducible refine (foldl_proj _ _ ?_ _ _).trans ?_ | with_reducible refine (foldl_fst _ _ ?_ _ _).trans ?_
    | with_reducible refine (foldl_run _ _ ?_ _ _).trans ?_ | split)
@[simp] theorem State.markCore_frame (s : State) (c : Nat) : (State.markCore s c).pending = s.pending ∧ (State.markCore s
    c).draws = s.draws ∧ (State.markCore s c).aon = s.aon ∧ (State.markCore s c).time = s.time ∧ (State.markCore s c).persist =
    s.persist ∧ (State.markCore s c).flash = s.flash ∧ (State.markCore s c).cores = s.cores ∧ (State.markCore s c).ctxs =
    s.ctxs ∧ (State.markCore s c).mem = s.mem ∧ (State.markCore s c).recov = s.recov ∧ (State.markCore s c).clotha = s.clotha ∧
    (State.markCore s c).net = s.net ∧ (State.markCore s c).links = s.links ∧ (State.markCore s c).svc = s.svc := by
  unfold State.markCore
  refine ⟨?_, ?_, ?_, ?_, ?_, ?_, ?_, ?_, ?_, ?_, ?_, ?_, ?_, ?_⟩ <;> (repeat' first
    | with_reducible rfl | simp only [State.ite_frame, ite_self, State.markCause_frame] | (intro _ _)
    | with_reducible refine (foldl_proj _ _ ?_ _ _).trans ?_ | with_reducible refine (foldl_fst _ _ ?_ _ _).trans ?_
    | with_reducible refine (foldl_run _ _ ?_ _ _).trans ?_ | split)
@[simp] theorem State.takeSample_frame (s : State) (c : Nat) (level : Nat) (cause : Nat) (kind : Nat) (unit : Nat) :
    (State.takeSample s c level cause kind unit).pending = s.pending ∧ (State.takeSample s c level cause kind unit).draws =
    s.draws ∧ (State.takeSample s c level cause kind unit).aon = s.aon ∧ (State.takeSample s c level cause kind unit).time =
    s.time ∧ (State.takeSample s c level cause kind unit).persist = s.persist ∧ (State.takeSample s c level cause kind
    unit).flash = s.flash ∧ (State.takeSample s c level cause kind unit).streams = s.streams ∧ (State.takeSample s c level
    cause kind unit).ctxs = s.ctxs ∧ (State.takeSample s c level cause kind unit).mem = s.mem ∧ (State.takeSample s c level
    cause kind unit).clotha = s.clotha ∧ (State.takeSample s c level cause kind unit).net = s.net ∧ (State.takeSample s c level
    cause kind unit).links = s.links ∧ (State.takeSample s c level cause kind unit).svc = s.svc := by
  unfold State.takeSample
  refine ⟨?_, ?_, ?_, ?_, ?_, ?_, ?_, ?_, ?_, ?_, ?_, ?_, ?_⟩ <;> (repeat' first
    | with_reducible rfl | simp only [State.ite_frame, ite_self, State.logEvent_frame, State.modSeq_frame] | (intro _ _)
    | with_reducible refine (foldl_proj _ _ ?_ _ _).trans ?_ | with_reducible refine (foldl_fst _ _ ?_ _ _).trans ?_
    | with_reducible refine (foldl_run _ _ ?_ _ _).trans ?_ | split)
@[simp] theorem State.modDump_frame (s : State) (i : Nat) (f : Dump → Dump) : (State.modDump s i f).pending = s.pending ∧
    (State.modDump s i f).draws = s.draws ∧ (State.modDump s i f).aon = s.aon ∧ (State.modDump s i f).time = s.time ∧
    (State.modDump s i f).persist = s.persist ∧ (State.modDump s i f).flash = s.flash ∧ (State.modDump s i f).streams =
    s.streams ∧ (State.modDump s i f).cores = s.cores ∧ (State.modDump s i f).ctxs = s.ctxs ∧ (State.modDump s i f).mem = s.mem
    ∧ (State.modDump s i f).clotha = s.clotha ∧ (State.modDump s i f).net = s.net ∧ (State.modDump s i f).links = s.links ∧
    (State.modDump s i f).svc = s.svc := by
  unfold State.modDump
  refine ⟨?_, ?_, ?_, ?_, ?_, ?_, ?_, ?_, ?_, ?_, ?_, ?_, ?_, ?_⟩ <;> (repeat' first
    | with_reducible rfl | simp only [State.ite_frame, ite_self] | (intro _ _)
    | with_reducible refine (foldl_proj _ _ ?_ _ _).trans ?_ | with_reducible refine (foldl_fst _ _ ?_ _ _).trans ?_
    | with_reducible refine (foldl_run _ _ ?_ _ _).trans ?_ | split)
@[simp] theorem State.endSample_frame (s : State) (c : Nat) : (State.endSample s c).pending = s.pending ∧ (State.endSample s
    c).draws = s.draws ∧ (State.endSample s c).aon = s.aon ∧ (State.endSample s c).time = s.time ∧ (State.endSample s
    c).persist = s.persist ∧ (State.endSample s c).flash = s.flash ∧ (State.endSample s c).streams = s.streams ∧
    (State.endSample s c).ctxs = s.ctxs ∧ (State.endSample s c).mem = s.mem ∧ (State.endSample s c).clotha = s.clotha ∧
    (State.endSample s c).net = s.net ∧ (State.endSample s c).links = s.links ∧ (State.endSample s c).svc = s.svc := by
  unfold State.endSample
  refine ⟨?_, ?_, ?_, ?_, ?_, ?_, ?_, ?_, ?_, ?_, ?_, ?_, ?_⟩ <;> (repeat' first
    | with_reducible rfl | simp only [State.ite_frame, ite_self, State.modDump_frame, State.modSeq_frame] | (intro _ _)
    | with_reducible refine (foldl_proj _ _ ?_ _ _).trans ?_ | with_reducible refine (foldl_fst _ _ ?_ _ _).trans ?_
    | with_reducible refine (foldl_run _ _ ?_ _ _).trans ?_ | split)
@[simp] theorem State.returnTakes_frame (s : State) (c : Nat) : (State.returnTakes s c).pending = s.pending ∧
    (State.returnTakes s c).draws = s.draws ∧ (State.returnTakes s c).aon = s.aon ∧ (State.returnTakes s c).time = s.time ∧
    (State.returnTakes s c).persist = s.persist ∧ (State.returnTakes s c).flash = s.flash ∧ (State.returnTakes s c).streams =
    s.streams ∧ (State.returnTakes s c).ctxs = s.ctxs ∧ (State.returnTakes s c).mem = s.mem ∧ (State.returnTakes s c).recov =
    s.recov ∧ (State.returnTakes s c).clotha = s.clotha ∧ (State.returnTakes s c).net = s.net ∧ (State.returnTakes s c).links =
    s.links ∧ (State.returnTakes s c).svc = s.svc := by
  unfold State.returnTakes
  refine ⟨?_, ?_, ?_, ?_, ?_, ?_, ?_, ?_, ?_, ?_, ?_, ?_, ?_, ?_⟩ <;> (repeat' first
    | with_reducible rfl | simp only [State.ite_frame, ite_self, State.modCores_frame] | (intro _ _)
    | with_reducible refine (foldl_proj _ _ ?_ _ _).trans ?_ | with_reducible refine (foldl_fst _ _ ?_ _ _).trans ?_
    | with_reducible refine (foldl_run _ _ ?_ _ _).trans ?_ | split)
@[simp] theorem State.returnCredits_frame (s : State) (c : Nat) : (State.returnCredits s c).pending = s.pending ∧
    (State.returnCredits s c).draws = s.draws ∧ (State.returnCredits s c).aon = s.aon ∧ (State.returnCredits s c).time = s.time
    ∧ (State.returnCredits s c).persist = s.persist ∧ (State.returnCredits s c).flash = s.flash ∧ (State.returnCredits s
    c).streams = s.streams ∧ (State.returnCredits s c).ctxs = s.ctxs ∧ (State.returnCredits s c).mem = s.mem ∧
    (State.returnCredits s c).recov = s.recov ∧ (State.returnCredits s c).clotha = s.clotha ∧ (State.returnCredits s c).net =
    s.net ∧ (State.returnCredits s c).links = s.links ∧ (State.returnCredits s c).svc = s.svc := by
  unfold State.returnCredits
  refine ⟨?_, ?_, ?_, ?_, ?_, ?_, ?_, ?_, ?_, ?_, ?_, ?_, ?_, ?_⟩ <;> (repeat' first
    | with_reducible rfl | simp only [State.ite_frame, ite_self, State.modCores_frame] | (intro _ _)
    | with_reducible refine (foldl_proj _ _ ?_ _ _).trans ?_ | with_reducible refine (foldl_fst _ _ ?_ _ _).trans ?_
    | with_reducible refine (foldl_run _ _ ?_ _ _).trans ?_ | split)
@[simp] theorem State.fence_frame (s : State) (c : Nat) : (State.fence s c).pending = s.pending ∧ (State.fence s c).draws =
    s.draws ∧ (State.fence s c).aon = s.aon ∧ (State.fence s c).time = s.time ∧ (State.fence s c).persist = s.persist ∧
    (State.fence s c).flash = s.flash ∧ (State.fence s c).streams = s.streams ∧ (State.fence s c).ctxs = s.ctxs ∧ (State.fence
    s c).mem = s.mem ∧ (State.fence s c).recov = s.recov ∧ (State.fence s c).clotha = s.clotha ∧ (State.fence s c).net = s.net
    ∧ (State.fence s c).links = s.links ∧ (State.fence s c).svc = s.svc := by
  unfold State.fence
  refine ⟨?_, ?_, ?_, ?_, ?_, ?_, ?_, ?_, ?_, ?_, ?_, ?_, ?_, ?_⟩ <;> (repeat' first
    | with_reducible rfl
    | simp only [State.ite_frame, ite_self, State.purgeItems_frame, State.requeue_frame, State.returnCredits_frame,
      State.returnTakes_frame, State.modCore_frame] | (intro _ _) | with_reducible refine (foldl_proj _ _ ?_ _ _).trans ?_
    | with_reducible refine (foldl_fst _ _ ?_ _ _).trans ?_ | with_reducible refine (foldl_run _ _ ?_ _ _).trans ?_ | split)
@[simp] theorem State.markUncovered_frame (s : State) (c : Nat) (last : Nat) (gap : Bool) : (State.markUncovered s c last
    gap).pending = s.pending ∧ (State.markUncovered s c last gap).draws = s.draws ∧ (State.markUncovered s c last gap).aon =
    s.aon ∧ (State.markUncovered s c last gap).time = s.time ∧ (State.markUncovered s c last gap).persist = s.persist ∧
    (State.markUncovered s c last gap).flash = s.flash ∧ (State.markUncovered s c last gap).cores = s.cores ∧
    (State.markUncovered s c last gap).ctxs = s.ctxs ∧ (State.markUncovered s c last gap).mem = s.mem ∧ (State.markUncovered s
    c last gap).recov = s.recov ∧ (State.markUncovered s c last gap).clotha = s.clotha ∧ (State.markUncovered s c last gap).net
    = s.net ∧ (State.markUncovered s c last gap).links = s.links ∧ (State.markUncovered s c last gap).svc = s.svc := by
  unfold State.markUncovered
  refine ⟨?_, ?_, ?_, ?_, ?_, ?_, ?_, ?_, ?_, ?_, ?_, ?_, ?_, ?_⟩ <;> (repeat' first
    | with_reducible rfl | simp only [State.ite_frame, ite_self, State.markCause_frame] | (intro _ _)
    | with_reducible refine (foldl_proj _ _ ?_ _ _).trans ?_ | with_reducible refine (foldl_fst _ _ ?_ _ _).trans ?_
    | with_reducible refine (foldl_run _ _ ?_ _ _).trans ?_ | split)
@[simp] theorem State.beginCore_frame (s : State) (c : Nat) (last : Nat) (level : Nat) (cause : Nat) (kind : Nat) (unit : Nat)
    (byDie : Bool) : (State.beginCore s c last level cause kind unit byDie).pending = s.pending ∧ (State.beginCore s c last
    level cause kind unit byDie).draws = s.draws ∧ (State.beginCore s c last level cause kind unit byDie).aon = s.aon ∧
    (State.beginCore s c last level cause kind unit byDie).time = s.time ∧ (State.beginCore s c last level cause kind unit
    byDie).persist = s.persist ∧ (State.beginCore s c last level cause kind unit byDie).flash = s.flash ∧ (State.beginCore s c
    last level cause kind unit byDie).ctxs = s.ctxs ∧ (State.beginCore s c last level cause kind unit byDie).mem = s.mem ∧
    (State.beginCore s c last level cause kind unit byDie).clotha = s.clotha ∧ (State.beginCore s c last level cause kind unit
    byDie).net = s.net ∧ (State.beginCore s c last level cause kind unit byDie).links = s.links ∧ (State.beginCore s c last
    level cause kind unit byDie).svc = s.svc := by
  unfold State.beginCore
  refine ⟨?_, ?_, ?_, ?_, ?_, ?_, ?_, ?_, ?_, ?_, ?_, ?_⟩ <;> (repeat' first
    | with_reducible rfl
    | simp only [State.ite_frame, ite_self, State.takeSample_frame, State.modSeq_frame, State.markUncovered_frame,
      State.fence_frame] | (intro _ _) | with_reducible refine (foldl_proj _ _ ?_ _ _).trans ?_
    | with_reducible refine (foldl_fst _ _ ?_ _ _).trans ?_ | with_reducible refine (foldl_run _ _ ?_ _ _).trans ?_ | split)
@[simp] theorem State.declareCore_frame (s : State) (c : Nat) (last : Nat) (cause : Nat) (kind : Nat) (unit : Nat) :
    (State.declareCore s c last cause kind unit).pending = s.pending ∧ (State.declareCore s c last cause kind unit).draws =
    s.draws ∧ (State.declareCore s c last cause kind unit).time = s.time ∧ (State.declareCore s c last cause kind unit).persist
    = s.persist ∧ (State.declareCore s c last cause kind unit).flash = s.flash ∧ (State.declareCore s c last cause kind
    unit).ctxs = s.ctxs ∧ (State.declareCore s c last cause kind unit).mem = s.mem ∧ (State.declareCore s c last cause kind
    unit).clotha = s.clotha ∧ (State.declareCore s c last cause kind unit).net = s.net ∧ (State.declareCore s c last cause kind
    unit).links = s.links ∧ (State.declareCore s c last cause kind unit).svc = s.svc := by
  unfold State.declareCore
  refine ⟨?_, ?_, ?_, ?_, ?_, ?_, ?_, ?_, ?_, ?_, ?_⟩ <;> (repeat' first
    | with_reducible rfl
    | simp only [State.ite_frame, ite_self, State.beginCore_frame, State.alertSet_frame, State.queueError_frame]
    | (intro _ _) | with_reducible refine (foldl_proj _ _ ?_ _ _).trans ?_
    | with_reducible refine (foldl_fst _ _ ?_ _ _).trans ?_ | with_reducible refine (foldl_run _ _ ?_ _ _).trans ?_ | split)
@[simp] theorem State.declareDie_frame (s : State) (d : Nat) (cause : Nat) (kind : Nat) (unit : Nat) : (State.declareDie s d
    cause kind unit).pending = s.pending ∧ (State.declareDie s d cause kind unit).draws = s.draws ∧ (State.declareDie s d cause
    kind unit).time = s.time ∧ (State.declareDie s d cause kind unit).persist = s.persist ∧ (State.declareDie s d cause kind
    unit).flash = s.flash ∧ (State.declareDie s d cause kind unit).ctxs = s.ctxs ∧ (State.declareDie s d cause kind unit).mem =
    s.mem ∧ (State.declareDie s d cause kind unit).clotha = s.clotha ∧ (State.declareDie s d cause kind unit).net = s.net ∧
    (State.declareDie s d cause kind unit).links = s.links ∧ (State.declareDie s d cause kind unit).svc = s.svc := by
  unfold State.declareDie
  refine ⟨?_, ?_, ?_, ?_, ?_, ?_, ?_, ?_, ?_, ?_, ?_⟩ <;> (repeat' first
    | with_reducible rfl
    | simp only [State.ite_frame, ite_self, State.beginCore_frame, State.fence_frame, State.modSeq_frame, State.modDie_frame,
      State.markCause_frame, State.alertSet_frame, State.queueError_frame] | (intro _ _)
    | with_reducible refine (foldl_proj _ _ ?_ _ _).trans ?_ | with_reducible refine (foldl_fst _ _ ?_ _ _).trans ?_
    | with_reducible refine (foldl_run _ _ ?_ _ _).trans ?_ | split)
@[simp] theorem State.declareModule_frame (s : State) (cause : Nat) : (State.declareModule s cause).pending = s.pending ∧
    (State.declareModule s cause).draws = s.draws := by
  unfold State.declareModule
  refine ⟨?_, ?_⟩ <;> (repeat' first
    | with_reducible rfl
    | simp only [State.ite_frame, ite_self, moduleReset_frame, State.endSample_frame, State.alertSet_frame] | (intro _ _)
    | with_reducible refine (foldl_proj _ _ ?_ _ _).trans ?_ | with_reducible refine (foldl_fst _ _ ?_ _ _).trans ?_
    | with_reducible refine (foldl_run _ _ ?_ _ _).trans ?_ | split)
@[simp] theorem State.noteHang_frame (s : State) (c : Nat) (u : DroneUnit) : (State.noteHang s c u).pending = s.pending ∧
    (State.noteHang s c u).draws = s.draws ∧ (State.noteHang s c u).time = s.time ∧ (State.noteHang s c u).flash = s.flash ∧
    (State.noteHang s c u).ctxs = s.ctxs ∧ (State.noteHang s c u).mem = s.mem ∧ (State.noteHang s c u).net = s.net ∧
    (State.noteHang s c u).links = s.links ∧ (State.noteHang s c u).svc = s.svc := by
  unfold State.noteHang
  refine ⟨?_, ?_, ?_, ?_, ?_, ?_, ?_, ?_, ?_⟩ <;> (repeat' first
    | with_reducible rfl
    | simp only [State.ite_frame, ite_self, State.modCore_frame, State.quarantine_frame, State.alertSet_frame,
      State.queueError_frame] | (intro _ _) | with_reducible refine (foldl_proj _ _ ?_ _ _).trans ?_
    | with_reducible refine (foldl_fst _ _ ?_ _ _).trans ?_ | with_reducible refine (foldl_run _ _ ?_ _ _).trans ?_ | split)
@[simp] theorem State.escalate_frame (s : State) (core : Nat) (event : Nat) (kind : Nat) (index : Nat) (unit : Nat) :
    (State.escalate s core event kind index unit).pending = s.pending ∧ (State.escalate s core event kind index unit).draws =
    s.draws := by
  unfold State.escalate
  refine ⟨?_, ?_⟩ <;> (repeat' first
    | with_reducible rfl
    | simp only [State.ite_frame, ite_self, State.declareDie_frame, State.firstError_frame, State.laterError_frame,
      State.declareModule_frame] | (intro _ _) | with_reducible refine (foldl_proj _ _ ?_ _ _).trans ?_
    | with_reducible refine (foldl_fst _ _ ?_ _ _).trans ?_ | with_reducible refine (foldl_run _ _ ?_ _ _).trans ?_ | split)
@[simp] theorem State.requestReset_frame (s : State) (c : Nat) (sc : Nat) : (State.requestReset s c sc).pending = s.pending ∧
    (State.requestReset s c sc).draws = s.draws ∧ (State.requestReset s c sc).time = s.time ∧ (State.requestReset s c
    sc).persist = s.persist ∧ (State.requestReset s c sc).flash = s.flash ∧ (State.requestReset s c sc).ctxs = s.ctxs ∧
    (State.requestReset s c sc).mem = s.mem ∧ (State.requestReset s c sc).clotha = s.clotha ∧ (State.requestReset s c sc).net =
    s.net ∧ (State.requestReset s c sc).links = s.links ∧ (State.requestReset s c sc).svc = s.svc := by
  unfold State.requestReset
  refine ⟨?_, ?_, ?_, ?_, ?_, ?_, ?_, ?_, ?_, ?_, ?_⟩ <;> (repeat' first
    | with_reducible rfl | simp only [State.ite_frame, ite_self, State.declareCore_frame, State.firstError_frame]
    | (intro _ _) | with_reducible refine (foldl_proj _ _ ?_ _ _).trans ?_
    | with_reducible refine (foldl_fst _ _ ?_ _ _).trans ?_ | with_reducible refine (foldl_run _ _ ?_ _ _).trans ?_ | split)
@[simp] theorem State.resetCore_frame (s : State) (c : Nat) : (State.resetCore s c).pending = s.pending ∧ (State.resetCore s
    c).draws = s.draws ∧ (State.resetCore s c).aon = s.aon ∧ (State.resetCore s c).time = s.time ∧ (State.resetCore s
    c).persist = s.persist ∧ (State.resetCore s c).flash = s.flash ∧ (State.resetCore s c).streams = s.streams ∧
    (State.resetCore s c).ctxs = s.ctxs ∧ (State.resetCore s c).mem = s.mem ∧ (State.resetCore s c).clotha = s.clotha ∧
    (State.resetCore s c).net = s.net ∧ (State.resetCore s c).links = s.links ∧ (State.resetCore s c).svc = s.svc := by
  unfold State.resetCore
  refine ⟨?_, ?_, ?_, ?_, ?_, ?_, ?_, ?_, ?_, ?_, ?_, ?_, ?_⟩ <;> (repeat' first
    | with_reducible rfl | simp only [State.ite_frame, ite_self, State.endSample_frame, State.modCore_frame] | (intro _ _)
    | with_reducible refine (foldl_proj _ _ ?_ _ _).trans ?_ | with_reducible refine (foldl_fst _ _ ?_ _ _).trans ?_
    | with_reducible refine (foldl_run _ _ ?_ _ _).trans ?_ | split)
@[simp] theorem State.discardCtx_frame (s : State) (i : Nat) (ct : Ctx) (c : Nat) : (State.discardCtx s i ct c).pending =
    s.pending ∧ (State.discardCtx s i ct c).draws = s.draws ∧ (State.discardCtx s i ct c).aon = s.aon ∧ (State.discardCtx s i
    ct c).time = s.time ∧ (State.discardCtx s i ct c).persist = s.persist ∧ (State.discardCtx s i ct c).flash = s.flash ∧
    (State.discardCtx s i ct c).streams = s.streams ∧ (State.discardCtx s i ct c).recov = s.recov ∧ (State.discardCtx s i ct
    c).clotha = s.clotha ∧ (State.discardCtx s i ct c).net = s.net ∧ (State.discardCtx s i ct c).links = s.links ∧
    (State.discardCtx s i ct c).svc = s.svc := by
  unfold State.discardCtx
  refine ⟨?_, ?_, ?_, ?_, ?_, ?_, ?_, ?_, ?_, ?_, ?_, ?_⟩ <;> (repeat' first
    | with_reducible rfl
    | simp only [State.ite_frame, ite_self, State.dropWaits_frame, State.writeRecord_frame, State.modCtx_frame]
    | (intro _ _) | with_reducible refine (foldl_proj _ _ ?_ _ _).trans ?_
    | with_reducible refine (foldl_fst _ _ ?_ _ _).trans ?_ | with_reducible refine (foldl_run _ _ ?_ _ _).trans ?_ | split)
@[simp] theorem State.recovered_frame (s : State) (r : ReadyStep) : (State.recovered s r).pending = s.pending ∧
    (State.recovered s r).draws = s.draws ∧ (State.recovered s r).aon = s.aon ∧ (State.recovered s r).time = s.time ∧
    (State.recovered s r).persist = s.persist ∧ (State.recovered s r).flash = s.flash ∧ (State.recovered s r).cores = s.cores ∧
    (State.recovered s r).ctxs = s.ctxs ∧ (State.recovered s r).mem = s.mem ∧ (State.recovered s r).recov = s.recov ∧
    (State.recovered s r).clotha = s.clotha ∧ (State.recovered s r).net = s.net ∧ (State.recovered s r).links = s.links ∧
    (State.recovered s r).svc = s.svc := by
  unfold State.recovered
  refine ⟨?_, ?_, ?_, ?_, ?_, ?_, ?_, ?_, ?_, ?_, ?_, ?_, ?_, ?_⟩ <;> (repeat' first
    | with_reducible rfl | simp only [State.ite_frame, ite_self, State.modChunk_frame, State.modStats_frame] | (intro _ _)
    | with_reducible refine (foldl_proj _ _ ?_ _ _).trans ?_ | with_reducible refine (foldl_fst _ _ ?_ _ _).trans ?_
    | with_reducible refine (foldl_run _ _ ?_ _ _).trans ?_ | split)
@[simp] theorem State.returnFenced_frame (s : State) (c : Nat) : (State.returnFenced s c).pending = s.pending ∧
    (State.returnFenced s c).draws = s.draws ∧ (State.returnFenced s c).aon = s.aon ∧ (State.returnFenced s c).time = s.time ∧
    (State.returnFenced s c).persist = s.persist ∧ (State.returnFenced s c).flash = s.flash ∧ (State.returnFenced s c).clotha =
    s.clotha ∧ (State.returnFenced s c).net = s.net ∧ (State.returnFenced s c).links = s.links := by
  unfold State.returnFenced
  refine ⟨?_, ?_, ?_, ?_, ?_, ?_, ?_, ?_, ?_⟩ <;> (repeat' first
    | with_reducible rfl
    | simp only [State.ite_frame, ite_self, State.modCore_frame, State.leaveFlight_frame, State.returnSteps_frame,
      State.recovered_frame] | (intro _ _) | with_reducible refine (foldl_proj _ _ ?_ _ _).trans ?_
    | with_reducible refine (foldl_fst _ _ ?_ _ _).trans ?_ | with_reducible refine (foldl_run _ _ ?_ _ _).trans ?_ | split)
@[simp] theorem State.resumeCore_frame (s : State) (c : Nat) : (State.resumeCore s c).pending = s.pending ∧ (State.resumeCore s
    c).draws = s.draws ∧ (State.resumeCore s c).aon = s.aon ∧ (State.resumeCore s c).time = s.time ∧ (State.resumeCore s
    c).persist = s.persist ∧ (State.resumeCore s c).flash = s.flash ∧ (State.resumeCore s c).clotha = s.clotha ∧
    (State.resumeCore s c).net = s.net ∧ (State.resumeCore s c).links = s.links := by
  unfold State.resumeCore
  refine ⟨?_, ?_, ?_, ?_, ?_, ?_, ?_, ?_, ?_⟩ <;> (repeat' first
    | with_reducible rfl
    | simp only [State.ite_frame, ite_self, State.discardCtx_frame, State.modCore_frame, State.recovered_frame,
      State.returnSteps_frame, State.jobStepDone_frame, State.returnFenced_frame] | (intro _ _)
    | with_reducible refine (foldl_proj _ _ ?_ _ _).trans ?_ | with_reducible refine (foldl_fst _ _ ?_ _ _).trans ?_
    | with_reducible refine (foldl_run _ _ ?_ _ _).trans ?_ | split)
@[simp] theorem State.modChan_frame (s : State) (core : Nat) (n : Nat) (f : Channel → Channel) : (State.modChan s core n
    f).pending = s.pending ∧ (State.modChan s core n f).draws = s.draws ∧ (State.modChan s core n f).aon = s.aon ∧
    (State.modChan s core n f).time = s.time ∧ (State.modChan s core n f).persist = s.persist ∧ (State.modChan s core n
    f).flash = s.flash ∧ (State.modChan s core n f).streams = s.streams ∧ (State.modChan s core n f).ctxs = s.ctxs ∧
    (State.modChan s core n f).mem = s.mem ∧ (State.modChan s core n f).recov = s.recov ∧ (State.modChan s core n f).clotha =
    s.clotha ∧ (State.modChan s core n f).net = s.net ∧ (State.modChan s core n f).links = s.links ∧ (State.modChan s core n
    f).svc = s.svc := by
  unfold State.modChan
  refine ⟨?_, ?_, ?_, ?_, ?_, ?_, ?_, ?_, ?_, ?_, ?_, ?_, ?_, ?_⟩ <;> (repeat' first
    | with_reducible rfl | simp only [State.ite_frame, ite_self, State.modCore_frame] | (intro _ _)
    | with_reducible refine (foldl_proj _ _ ?_ _ _).trans ?_ | with_reducible refine (foldl_fst _ _ ?_ _ _).trans ?_
    | with_reducible refine (foldl_run _ _ ?_ _ _).trans ?_ | split)
@[simp] theorem State.beatWrite_frame (s : State) (core : Nat) (c : Channel) (p : Nat) (bs : List Byte) (poison : Bool) :
    (State.beatWrite s core c p bs poison).pending = s.pending ∧ (State.beatWrite s core c p bs poison).draws = s.draws ∧
    (State.beatWrite s core c p bs poison).aon = s.aon ∧ (State.beatWrite s core c p bs poison).time = s.time ∧
    (State.beatWrite s core c p bs poison).persist = s.persist ∧ (State.beatWrite s core c p bs poison).flash = s.flash ∧
    (State.beatWrite s core c p bs poison).streams = s.streams ∧ (State.beatWrite s core c p bs poison).ctxs = s.ctxs ∧
    (State.beatWrite s core c p bs poison).clotha = s.clotha ∧ (State.beatWrite s core c p bs poison).net = s.net ∧
    (State.beatWrite s core c p bs poison).links = s.links ∧ (State.beatWrite s core c p bs poison).svc = s.svc := by
  unfold State.beatWrite
  refine ⟨?_, ?_, ?_, ?_, ?_, ?_, ?_, ?_, ?_, ?_, ?_, ?_⟩ <;> (repeat' first
    | with_reducible rfl | simp only [State.ite_frame, ite_self, State.hbmWriteAs_frame, State.bufWrite_frame]
    | (intro _ _) | with_reducible refine (foldl_proj _ _ ?_ _ _).trans ?_
    | with_reducible refine (foldl_fst _ _ ?_ _ _).trans ?_ | with_reducible refine (foldl_run _ _ ?_ _ _).trans ?_ | split)
@[simp] theorem State.pieceWrite_frame (s : State) (core : Nat) (c : Channel) (q : Piece) : (State.pieceWrite s core c
    q).pending = s.pending ∧ (State.pieceWrite s core c q).draws = s.draws ∧ (State.pieceWrite s core c q).aon = s.aon ∧
    (State.pieceWrite s core c q).time = s.time ∧ (State.pieceWrite s core c q).persist = s.persist ∧ (State.pieceWrite s core
    c q).flash = s.flash ∧ (State.pieceWrite s core c q).streams = s.streams ∧ (State.pieceWrite s core c q).ctxs = s.ctxs ∧
    (State.pieceWrite s core c q).clotha = s.clotha ∧ (State.pieceWrite s core c q).net = s.net ∧ (State.pieceWrite s core c
    q).links = s.links ∧ (State.pieceWrite s core c q).svc = s.svc := by
  unfold State.pieceWrite
  refine ⟨?_, ?_, ?_, ?_, ?_, ?_, ?_, ?_, ?_, ?_, ?_, ?_⟩ <;> (repeat' first
    | with_reducible rfl | simp only [State.ite_frame, ite_self, State.beatWrite_frame] | (intro _ _)
    | with_reducible refine (foldl_proj _ _ ?_ _ _).trans ?_ | with_reducible refine (foldl_fst _ _ ?_ _ _).trans ?_
    | with_reducible refine (foldl_run _ _ ?_ _ _).trans ?_ | split)
@[simp] theorem State.startPass_frame (s : State) (core : Nat) (n : Nat) (desc : BitVec 256) (ctx : Nat) (seq : Nat) :
    (State.startPass s core n desc ctx seq).pending = s.pending ∧ (State.startPass s core n desc ctx seq).draws = s.draws ∧
    (State.startPass s core n desc ctx seq).aon = s.aon ∧ (State.startPass s core n desc ctx seq).time = s.time ∧
    (State.startPass s core n desc ctx seq).persist = s.persist ∧ (State.startPass s core n desc ctx seq).flash = s.flash ∧
    (State.startPass s core n desc ctx seq).streams = s.streams ∧ (State.startPass s core n desc ctx seq).ctxs = s.ctxs ∧
    (State.startPass s core n desc ctx seq).mem = s.mem ∧ (State.startPass s core n desc ctx seq).recov = s.recov ∧
    (State.startPass s core n desc ctx seq).clotha = s.clotha ∧ (State.startPass s core n desc ctx seq).net = s.net ∧
    (State.startPass s core n desc ctx seq).links = s.links ∧ (State.startPass s core n desc ctx seq).svc = s.svc := by
  unfold State.startPass
  refine ⟨?_, ?_, ?_, ?_, ?_, ?_, ?_, ?_, ?_, ?_, ?_, ?_, ?_, ?_⟩ <;> (repeat' first
    | with_reducible rfl | simp only [State.ite_frame, ite_self, State.modCore_frame] | (intro _ _)
    | with_reducible refine (foldl_proj _ _ ?_ _ _).trans ?_ | with_reducible refine (foldl_fst _ _ ?_ _ _).trans ?_
    | with_reducible refine (foldl_run _ _ ?_ _ _).trans ?_ | split)
@[simp] theorem State.returnPlainCredit_frame (s : State) (core : Nat) (n : Nat) : (State.returnPlainCredit s core n).pending =
    s.pending ∧ (State.returnPlainCredit s core n).draws = s.draws ∧ (State.returnPlainCredit s core n).aon = s.aon ∧
    (State.returnPlainCredit s core n).time = s.time ∧ (State.returnPlainCredit s core n).persist = s.persist ∧
    (State.returnPlainCredit s core n).flash = s.flash ∧ (State.returnPlainCredit s core n).streams = s.streams ∧
    (State.returnPlainCredit s core n).ctxs = s.ctxs ∧ (State.returnPlainCredit s core n).mem = s.mem ∧
    (State.returnPlainCredit s core n).recov = s.recov ∧ (State.returnPlainCredit s core n).clotha = s.clotha ∧
    (State.returnPlainCredit s core n).net = s.net ∧ (State.returnPlainCredit s core n).links = s.links ∧
    (State.returnPlainCredit s core n).svc = s.svc := by
  unfold State.returnPlainCredit
  refine ⟨?_, ?_, ?_, ?_, ?_, ?_, ?_, ?_, ?_, ?_, ?_, ?_, ?_, ?_⟩ <;> (repeat' first
    | with_reducible rfl | simp only [State.ite_frame, ite_self, State.modCore_frame] | (intro _ _)
    | with_reducible refine (foldl_proj _ _ ?_ _ _).trans ?_ | with_reducible refine (foldl_fst _ _ ?_ _ _).trans ?_
    | with_reducible refine (foldl_run _ _ ?_ _ _).trans ?_ | split)
@[simp] theorem State.nextPass_frame (s : State) (core : Nat) (n : Nat) : (State.nextPass s core n).pending = s.pending ∧
    (State.nextPass s core n).draws = s.draws ∧ (State.nextPass s core n).aon = s.aon ∧ (State.nextPass s core n).time = s.time
    ∧ (State.nextPass s core n).persist = s.persist ∧ (State.nextPass s core n).flash = s.flash ∧ (State.nextPass s core
    n).streams = s.streams ∧ (State.nextPass s core n).ctxs = s.ctxs ∧ (State.nextPass s core n).mem = s.mem ∧ (State.nextPass
    s core n).recov = s.recov ∧ (State.nextPass s core n).clotha = s.clotha ∧ (State.nextPass s core n).net = s.net ∧
    (State.nextPass s core n).links = s.links ∧ (State.nextPass s core n).svc = s.svc := by
  unfold State.nextPass
  refine ⟨?_, ?_, ?_, ?_, ?_, ?_, ?_, ?_, ?_, ?_, ?_, ?_, ?_, ?_⟩ <;> (repeat' first
    | with_reducible rfl
    | simp only [State.ite_frame, ite_self, State.freeChannel_frame, State.startPass_frame, State.modChan_frame]
    | (intro _ _) | with_reducible refine (foldl_proj _ _ ?_ _ _).trans ?_
    | with_reducible refine (foldl_fst _ _ ?_ _ _).trans ?_ | with_reducible refine (foldl_run _ _ ?_ _ _).trans ?_ | split)
@[simp] theorem State.endPass_frame (s : State) (core : Nat) (n : Nat) : (State.endPass s core n).pending = s.pending ∧
    (State.endPass s core n).draws = s.draws ∧ (State.endPass s core n).aon = s.aon ∧ (State.endPass s core n).time = s.time ∧
    (State.endPass s core n).persist = s.persist ∧ (State.endPass s core n).flash = s.flash ∧ (State.endPass s core n).streams
    = s.streams ∧ (State.endPass s core n).ctxs = s.ctxs ∧ (State.endPass s core n).mem = s.mem ∧ (State.endPass s core
    n).recov = s.recov ∧ (State.endPass s core n).clotha = s.clotha ∧ (State.endPass s core n).net = s.net ∧ (State.endPass s
    core n).links = s.links ∧ (State.endPass s core n).svc = s.svc := by
  unfold State.endPass
  refine ⟨?_, ?_, ?_, ?_, ?_, ?_, ?_, ?_, ?_, ?_, ?_, ?_, ?_, ?_⟩ <;> (repeat' first
    | with_reducible rfl
    | simp only [State.ite_frame, ite_self, State.modChan_frame, State.nextPass_frame, State.semsetSignal_frame,
      State.returnPlainCredit_frame] | (intro _ _) | with_reducible refine (foldl_proj _ _ ?_ _ _).trans ?_
    | with_reducible refine (foldl_fst _ _ ?_ _ _).trans ?_ | with_reducible refine (foldl_run _ _ ?_ _ _).trans ?_ | split)
@[simp] theorem State.dstFilled_frame (s : State) (core : Nat) (c : Channel) (q : Nat) : (State.dstFilled s core c q).pending =
    s.pending ∧ (State.dstFilled s core c q).draws = s.draws ∧ (State.dstFilled s core c q).aon = s.aon ∧ (State.dstFilled s
    core c q).time = s.time ∧ (State.dstFilled s core c q).persist = s.persist ∧ (State.dstFilled s core c q).flash = s.flash ∧
    (State.dstFilled s core c q).streams = s.streams ∧ (State.dstFilled s core c q).ctxs = s.ctxs ∧ (State.dstFilled s core c
    q).mem = s.mem ∧ (State.dstFilled s core c q).recov = s.recov ∧ (State.dstFilled s core c q).clotha = s.clotha ∧
    (State.dstFilled s core c q).net = s.net ∧ (State.dstFilled s core c q).links = s.links ∧ (State.dstFilled s core c q).svc
    = s.svc := by
  unfold State.dstFilled
  refine ⟨?_, ?_, ?_, ?_, ?_, ?_, ?_, ?_, ?_, ?_, ?_, ?_, ?_, ?_⟩ <;> (repeat' first
    | with_reducible rfl | simp only [State.ite_frame, ite_self, State.modHandle_frame, State.fillSlot_frame] | (intro _ _)
    | with_reducible refine (foldl_proj _ _ ?_ _ _).trans ?_ | with_reducible refine (foldl_fst _ _ ?_ _ _).trans ?_
    | with_reducible refine (foldl_run _ _ ?_ _ _).trans ?_ | split)
@[simp] theorem State.spendCredit_frame (s : State) (core : Nat) (c : Channel) (o : CreditHolder) (q : Nat) :
    (State.spendCredit s core c o q).pending = s.pending ∧ (State.spendCredit s core c o q).draws = s.draws ∧
    (State.spendCredit s core c o q).aon = s.aon ∧ (State.spendCredit s core c o q).time = s.time ∧ (State.spendCredit s core c
    o q).persist = s.persist ∧ (State.spendCredit s core c o q).flash = s.flash ∧ (State.spendCredit s core c o q).streams =
    s.streams ∧ (State.spendCredit s core c o q).ctxs = s.ctxs ∧ (State.spendCredit s core c o q).mem = s.mem ∧
    (State.spendCredit s core c o q).recov = s.recov ∧ (State.spendCredit s core c o q).clotha = s.clotha ∧ (State.spendCredit
    s core c o q).net = s.net ∧ (State.spendCredit s core c o q).links = s.links ∧ (State.spendCredit s core c o q).svc = s.svc
    := by
  unfold State.spendCredit
  refine ⟨?_, ?_, ?_, ?_, ?_, ?_, ?_, ?_, ?_, ?_, ?_, ?_, ?_, ?_⟩ <;> (repeat' first
    | with_reducible rfl | simp only [State.ite_frame, ite_self, State.modCore_frame] | (intro _ _)
    | with_reducible refine (foldl_proj _ _ ?_ _ _).trans ?_ | with_reducible refine (foldl_fst _ _ ?_ _ _).trans ?_
    | with_reducible refine (foldl_run _ _ ?_ _ _).trans ?_ | split)
@[simp] theorem State.askCredit_frame (s : State) (core : Nat) (n : Nat) (c : Channel) : (State.askCredit s core n c).pending =
    s.pending ∧ (State.askCredit s core n c).draws = s.draws ∧ (State.askCredit s core n c).aon = s.aon ∧ (State.askCredit s
    core n c).time = s.time ∧ (State.askCredit s core n c).persist = s.persist ∧ (State.askCredit s core n c).flash = s.flash ∧
    (State.askCredit s core n c).streams = s.streams ∧ (State.askCredit s core n c).ctxs = s.ctxs ∧ (State.askCredit s core n
    c).mem = s.mem ∧ (State.askCredit s core n c).recov = s.recov ∧ (State.askCredit s core n c).clotha = s.clotha ∧
    (State.askCredit s core n c).net = s.net ∧ (State.askCredit s core n c).links = s.links ∧ (State.askCredit s core n c).svc
    = s.svc := by
  unfold State.askCredit
  refine ⟨?_, ?_, ?_, ?_, ?_, ?_, ?_, ?_, ?_, ?_, ?_, ?_, ?_, ?_⟩ <;> (repeat' first
    | with_reducible rfl | simp only [State.ite_frame, ite_self, State.modChan_frame, State.modCore_frame] | (intro _ _)
    | with_reducible refine (foldl_proj _ _ ?_ _ _).trans ?_ | with_reducible refine (foldl_fst _ _ ?_ _ _).trans ?_
    | with_reducible refine (foldl_run _ _ ?_ _ _).trans ?_ | split)
@[simp] theorem State.failRing_frame (s : State) (core : Nat) (n : Nat) (c : Channel) (x0 : List Nat) : (State.failRing s core
    n c x0).pending = s.pending ∧ (State.failRing s core n c x0).draws = s.draws ∧ (State.failRing s core n c x0).aon = s.aon ∧
    (State.failRing s core n c x0).time = s.time ∧ (State.failRing s core n c x0).persist = s.persist ∧ (State.failRing s core
    n c x0).flash = s.flash ∧ (State.failRing s core n c x0).streams = s.streams ∧ (State.failRing s core n c x0).ctxs = s.ctxs
    ∧ (State.failRing s core n c x0).mem = s.mem ∧ (State.failRing s core n c x0).recov = s.recov ∧ (State.failRing s core n c
    x0).clotha = s.clotha ∧ (State.failRing s core n c x0).net = s.net ∧ (State.failRing s core n c x0).links = s.links ∧
    (State.failRing s core n c x0).svc = s.svc := by
  induction x0 generalizing s <;> unfold State.failRing <;> (refine ⟨?_, ?_, ?_, ?_, ?_, ?_, ?_, ?_, ?_, ?_, ?_, ?_, ?_,
      ?_⟩ <;> (repeat' first
    | with_reducible rfl
    | simp only [State.ite_frame, ite_self, State.modChan_frame, State.bufWrite_frame, State.dstFilled_frame,
      State.askCredit_frame, State.spendCredit_frame, *] | (intro _ _)
    | with_reducible refine (foldl_proj _ _ ?_ _ _).trans ?_ | with_reducible refine (foldl_fst _ _ ?_ _ _).trans ?_
    | with_reducible refine (foldl_run _ _ ?_ _ _).trans ?_ | split))
@[simp] theorem State.failChannel_frame (s : State) (core : Nat) (n : Nat) (code : Word16) : (State.failChannel s core n
    code).pending = s.pending ∧ (State.failChannel s core n code).draws = s.draws ∧ (State.failChannel s core n code).aon =
    s.aon ∧ (State.failChannel s core n code).time = s.time ∧ (State.failChannel s core n code).persist = s.persist ∧
    (State.failChannel s core n code).flash = s.flash ∧ (State.failChannel s core n code).streams = s.streams ∧
    (State.failChannel s core n code).clotha = s.clotha ∧ (State.failChannel s core n code).net = s.net ∧ (State.failChannel s
    core n code).links = s.links ∧ (State.failChannel s core n code).svc = s.svc := by
  unfold State.failChannel
  refine ⟨?_, ?_, ?_, ?_, ?_, ?_, ?_, ?_, ?_, ?_, ?_⟩ <;> (repeat' first
    | with_reducible rfl
    | simp only [State.ite_frame, ite_self, State.pieceWrite_frame, State.beatWrite_frame, State.dropCredits_frame,
      State.returnPlainCredit_frame, State.semsetSignal_frame, State.writeRecord_frame, State.modCore_frame,
      State.modChan_frame, State.failRing_frame, State.markFenced_frame, State.logEvent_frame] | (intro _ _)
    | with_reducible refine (foldl_proj _ _ ?_ _ _).trans ?_ | with_reducible refine (foldl_fst _ _ ?_ _ _).trans ?_
    | with_reducible refine (foldl_run _ _ ?_ _ _).trans ?_ | split)
@[simp] theorem State.rearm_frame (s : State) (core : Nat) (c : Cmd) : (State.rearm s core c).pending = s.pending ∧
    (State.rearm s core c).draws = s.draws ∧ (State.rearm s core c).aon = s.aon ∧ (State.rearm s core c).time = s.time ∧
    (State.rearm s core c).persist = s.persist ∧ (State.rearm s core c).flash = s.flash ∧ (State.rearm s core c).streams =
    s.streams ∧ (State.rearm s core c).clotha = s.clotha ∧ (State.rearm s core c).net = s.net ∧ (State.rearm s core c).links =
    s.links := by
  unfold State.rearm
  refine ⟨?_, ?_, ?_, ?_, ?_, ?_, ?_, ?_, ?_, ?_⟩ <;> (repeat' first
    | with_reducible rfl
    | simp only [State.ite_frame, ite_self, State.modCmd_frame, State.nextPass_frame, State.modChan_frame,
      State.logEvent_frame, State.modCore_frame, State.rejectRunning_frame] | (intro _ _)
    | with_reducible refine (foldl_proj _ _ ?_ _ _).trans ?_ | with_reducible refine (foldl_fst _ _ ?_ _ _).trans ?_
    | with_reducible refine (foldl_run _ _ ?_ _ _).trans ?_ | split)
@[simp] theorem State.poolWait_frame (s : State) (core : Nat) (n : Nat) : (State.poolWait s core n).pending = s.pending ∧
    (State.poolWait s core n).draws = s.draws ∧ (State.poolWait s core n).aon = s.aon ∧ (State.poolWait s core n).time = s.time
    ∧ (State.poolWait s core n).persist = s.persist ∧ (State.poolWait s core n).flash = s.flash ∧ (State.poolWait s core
    n).streams = s.streams ∧ (State.poolWait s core n).ctxs = s.ctxs ∧ (State.poolWait s core n).mem = s.mem ∧ (State.poolWait
    s core n).recov = s.recov ∧ (State.poolWait s core n).clotha = s.clotha ∧ (State.poolWait s core n).net = s.net ∧
    (State.poolWait s core n).links = s.links ∧ (State.poolWait s core n).svc = s.svc := by
  unfold State.poolWait
  refine ⟨?_, ?_, ?_, ?_, ?_, ?_, ?_, ?_, ?_, ?_, ?_, ?_, ?_, ?_⟩ <;> (repeat' first
    | with_reducible rfl | simp only [State.ite_frame, ite_self, State.modChan_frame] | (intro _ _)
    | with_reducible refine (foldl_proj _ _ ?_ _ _).trans ?_ | with_reducible refine (foldl_fst _ _ ?_ _ _).trans ?_
    | with_reducible refine (foldl_run _ _ ?_ _ _).trans ?_ | split)
@[simp] theorem State.takeSlot_frame (s : State) (core : Nat) (n : Nat) (c : Channel) (q : Nat) : (State.takeSlot s core n c
    q).1.pending = s.pending ∧ (State.takeSlot s core n c q).1.draws = s.draws ∧ (State.takeSlot s core n c q).1.aon = s.aon ∧
    (State.takeSlot s core n c q).1.time = s.time ∧ (State.takeSlot s core n c q).1.persist = s.persist ∧ (State.takeSlot s
    core n c q).1.flash = s.flash ∧ (State.takeSlot s core n c q).1.streams = s.streams ∧ (State.takeSlot s core n c q).1.ctxs
    = s.ctxs ∧ (State.takeSlot s core n c q).1.mem = s.mem ∧ (State.takeSlot s core n c q).1.recov = s.recov ∧ (State.takeSlot
    s core n c q).1.clotha = s.clotha ∧ (State.takeSlot s core n c q).1.net = s.net ∧ (State.takeSlot s core n c q).1.links =
    s.links ∧ (State.takeSlot s core n c q).1.svc = s.svc := by
  unfold State.takeSlot
  refine ⟨?_, ?_, ?_, ?_, ?_, ?_, ?_, ?_, ?_, ?_, ?_, ?_, ?_, ?_⟩ <;> (repeat' first
    | with_reducible rfl
    | simp only [State.ite_frame, ite_self, State.spendCredit_frame, State.askCredit_frame, State.modChan_frame,
      State.poolTake_frame, State.poolWait_frame] | (intro _ _) | with_reducible refine (foldl_proj _ _ ?_ _ _).trans ?_
    | with_reducible refine (foldl_fst _ _ ?_ _ _).trans ?_ | with_reducible refine (foldl_run _ _ ?_ _ _).trans ?_ | split)
@[simp] theorem State.pieceReady_frame (s : State) (core : Nat) (n : Nat) (c : Channel) : (State.pieceReady s core n
    c).1.pending = s.pending ∧ (State.pieceReady s core n c).1.draws = s.draws ∧ (State.pieceReady s core n c).1.aon = s.aon ∧
    (State.pieceReady s core n c).1.time = s.time ∧ (State.pieceReady s core n c).1.persist = s.persist ∧ (State.pieceReady s
    core n c).1.flash = s.flash ∧ (State.pieceReady s core n c).1.streams = s.streams ∧ (State.pieceReady s core n c).1.ctxs =
    s.ctxs ∧ (State.pieceReady s core n c).1.mem = s.mem ∧ (State.pieceReady s core n c).1.recov = s.recov ∧ (State.pieceReady
    s core n c).1.clotha = s.clotha ∧ (State.pieceReady s core n c).1.net = s.net ∧ (State.pieceReady s core n c).1.links =
    s.links ∧ (State.pieceReady s core n c).1.svc = s.svc := by
  unfold State.pieceReady
  refine ⟨?_, ?_, ?_, ?_, ?_, ?_, ?_, ?_, ?_, ?_, ?_, ?_, ?_, ?_⟩ <;> (repeat' first
    | with_reducible rfl
    | simp only [State.ite_frame, ite_self, State.takeTag_frame, State.takeSlot_frame, State.askCredit_frame] | (intro _ _)
    | with_reducible refine (foldl_proj _ _ ?_ _ _).trans ?_ | with_reducible refine (foldl_fst _ _ ?_ _ _).trans ?_
    | with_reducible refine (foldl_run _ _ ?_ _ _).trans ?_ | split)
@[simp] theorem State.issuePiece_frame (s : State) (core : Nat) (n : Nat) (c : Channel) (errs : BoreErrs) : (State.issuePiece s
    core n c errs).pending = s.pending ∧ (State.issuePiece s core n c errs).draws = s.draws ∧ (State.issuePiece s core n c
    errs).aon = s.aon ∧ (State.issuePiece s core n c errs).time = s.time ∧ (State.issuePiece s core n c errs).persist =
    s.persist ∧ (State.issuePiece s core n c errs).flash = s.flash ∧ (State.issuePiece s core n c errs).streams = s.streams ∧
    (State.issuePiece s core n c errs).ctxs = s.ctxs ∧ (State.issuePiece s core n c errs).recov = s.recov ∧ (State.issuePiece s
    core n c errs).clotha = s.clotha ∧ (State.issuePiece s core n c errs).net = s.net ∧ (State.issuePiece s core n c
    errs).links = s.links ∧ (State.issuePiece s core n c errs).svc = s.svc := by
  unfold State.issuePiece
  refine ⟨?_, ?_, ?_, ?_, ?_, ?_, ?_, ?_, ?_, ?_, ?_, ?_, ?_⟩ <;> (repeat' first
    | with_reducible rfl
    | simp only [State.ite_frame, ite_self, State.modChan_frame, State.takeTag_frame, State.wcReads_frame,
      State.boreFinds_frame, State.drainSlot_frame, State.progress_frame] | (intro _ _)
    | with_reducible refine (foldl_proj _ _ ?_ _ _).trans ?_ | with_reducible refine (foldl_fst _ _ ?_ _ _).trans ?_
    | with_reducible refine (foldl_run _ _ ?_ _ _).trans ?_ | split)
@[simp] theorem State.grantPool_frame (s : State) (core : Nat) (n : Nat) : (State.grantPool s core n).pending = s.pending ∧
    (State.grantPool s core n).draws = s.draws ∧ (State.grantPool s core n).aon = s.aon ∧ (State.grantPool s core n).time =
    s.time ∧ (State.grantPool s core n).persist = s.persist ∧ (State.grantPool s core n).flash = s.flash ∧ (State.grantPool s
    core n).streams = s.streams ∧ (State.grantPool s core n).ctxs = s.ctxs ∧ (State.grantPool s core n).mem = s.mem ∧
    (State.grantPool s core n).recov = s.recov ∧ (State.grantPool s core n).clotha = s.clotha ∧ (State.grantPool s core n).net
    = s.net ∧ (State.grantPool s core n).links = s.links ∧ (State.grantPool s core n).svc = s.svc := by
  unfold State.grantPool
  refine ⟨?_, ?_, ?_, ?_, ?_, ?_, ?_, ?_, ?_, ?_, ?_, ?_, ?_, ?_⟩ <;> (repeat' first
    | with_reducible rfl | simp only [State.ite_frame, ite_self, State.modChan_frame, State.poolTake_frame] | (intro _ _)
    | with_reducible refine (foldl_proj _ _ ?_ _ _).trans ?_ | with_reducible refine (foldl_fst _ _ ?_ _ _).trans ?_
    | with_reducible refine (foldl_run _ _ ?_ _ _).trans ?_ | split)
@[simp] theorem State.drainCheck_frame (s : State) : (State.drainCheck s).pending = s.pending ∧ (State.drainCheck s).draws =
    s.draws ∧ (State.drainCheck s).time = s.time ∧ (State.drainCheck s).persist = s.persist ∧ (State.drainCheck s).flash =
    s.flash ∧ (State.drainCheck s).streams = s.streams ∧ (State.drainCheck s).cores = s.cores ∧ (State.drainCheck s).ctxs =
    s.ctxs ∧ (State.drainCheck s).mem = s.mem ∧ (State.drainCheck s).recov = s.recov ∧ (State.drainCheck s).clotha = s.clotha ∧
    (State.drainCheck s).net = s.net ∧ (State.drainCheck s).links = s.links ∧ (State.drainCheck s).svc = s.svc := by
  unfold State.drainCheck
  refine ⟨?_, ?_, ?_, ?_, ?_, ?_, ?_, ?_, ?_, ?_, ?_, ?_, ?_, ?_⟩ <;> (repeat' first
    | with_reducible rfl | simp only [State.ite_frame, ite_self] | (intro _ _)
    | with_reducible refine (foldl_proj _ _ ?_ _ _).trans ?_ | with_reducible refine (foldl_fst _ _ ?_ _ _).trans ?_
    | with_reducible refine (foldl_run _ _ ?_ _ _).trans ?_ | split)
@[simp] theorem State.admitEvent_frame (s : State) (id : Nat) (code : Word16) (core : Nat) : (State.admitEvent s id code
    core).pending = s.pending ∧ (State.admitEvent s id code core).draws = s.draws ∧ (State.admitEvent s id code core).aon =
    s.aon ∧ (State.admitEvent s id code core).time = s.time ∧ (State.admitEvent s id code core).persist = s.persist ∧
    (State.admitEvent s id code core).flash = s.flash ∧ (State.admitEvent s id code core).streams = s.streams ∧
    (State.admitEvent s id code core).cores = s.cores ∧ (State.admitEvent s id code core).ctxs = s.ctxs ∧ (State.admitEvent s
    id code core).mem = s.mem ∧ (State.admitEvent s id code core).clotha = s.clotha ∧ (State.admitEvent s id code core).net =
    s.net ∧ (State.admitEvent s id code core).links = s.links ∧ (State.admitEvent s id code core).svc = s.svc := by
  unfold State.admitEvent
  refine ⟨?_, ?_, ?_, ?_, ?_, ?_, ?_, ?_, ?_, ?_, ?_, ?_, ?_, ?_⟩ <;> (repeat' first
    | with_reducible rfl | simp only [State.ite_frame, ite_self, State.logEvent_frame] | (intro _ _)
    | with_reducible refine (foldl_proj _ _ ?_ _ _).trans ?_ | with_reducible refine (foldl_fst _ _ ?_ _ _).trans ?_
    | with_reducible refine (foldl_run _ _ ?_ _ _).trans ?_ | split)
@[simp] theorem State.submitJob_frame (s : State) (v : List Byte) (slot : Nat) (p : Package) : (State.submitJob s v slot
    p).pending = s.pending ∧ (State.submitJob s v slot p).draws = s.draws ∧ (State.submitJob s v slot p).aon = s.aon ∧
    (State.submitJob s v slot p).time = s.time ∧ (State.submitJob s v slot p).persist = s.persist ∧ (State.submitJob s v slot
    p).flash = s.flash ∧ (State.submitJob s v slot p).streams = s.streams ∧ (State.submitJob s v slot p).ctxs = s.ctxs ∧
    (State.submitJob s v slot p).mem = s.mem ∧ (State.submitJob s v slot p).recov = s.recov ∧ (State.submitJob s v slot
    p).clotha = s.clotha ∧ (State.submitJob s v slot p).net = s.net ∧ (State.submitJob s v slot p).links = s.links := by
  unfold State.submitJob
  refine ⟨?_, ?_, ?_, ?_, ?_, ?_, ?_, ?_, ?_, ?_, ?_, ?_, ?_⟩ <;> (repeat' first
    | with_reducible rfl | simp only [State.ite_frame, ite_self, State.queueJob_frame] | (intro _ _)
    | with_reducible refine (foldl_proj _ _ ?_ _ _).trans ?_ | with_reducible refine (foldl_fst _ _ ?_ _ _).trans ?_
    | with_reducible refine (foldl_run _ _ ?_ _ _).trans ?_ | split)
@[simp] theorem State.cancelJob_frame (s : State) (id : Nat) : (State.cancelJob s id).pending = s.pending ∧ (State.cancelJob s
    id).draws = s.draws ∧ (State.cancelJob s id).aon = s.aon ∧ (State.cancelJob s id).time = s.time ∧ (State.cancelJob s
    id).persist = s.persist ∧ (State.cancelJob s id).flash = s.flash ∧ (State.cancelJob s id).streams = s.streams ∧
    (State.cancelJob s id).ctxs = s.ctxs ∧ (State.cancelJob s id).mem = s.mem ∧ (State.cancelJob s id).clotha = s.clotha ∧
    (State.cancelJob s id).net = s.net ∧ (State.cancelJob s id).links = s.links := by
  unfold State.cancelJob
  refine ⟨?_, ?_, ?_, ?_, ?_, ?_, ?_, ?_, ?_, ?_, ?_, ?_⟩ <;> (repeat' first
    | with_reducible rfl
    | simp only [State.ite_frame, ite_self, State.modCores_frame, State.modJob_frame, State.logFw_frame] | (intro _ _)
    | with_reducible refine (foldl_proj _ _ ?_ _ _).trans ?_ | with_reducible refine (foldl_fst _ _ ?_ _ _).trans ?_
    | with_reducible refine (foldl_run _ _ ?_ _ _).trans ?_ | split)
@[simp] theorem State.releaseEngines_frame (s : State) (core : Nat) (mask : Nat) : (State.releaseEngines s core mask).pending =
    s.pending ∧ (State.releaseEngines s core mask).draws = s.draws ∧ (State.releaseEngines s core mask).aon = s.aon ∧
    (State.releaseEngines s core mask).time = s.time ∧ (State.releaseEngines s core mask).flash = s.flash ∧
    (State.releaseEngines s core mask).ctxs = s.ctxs ∧ (State.releaseEngines s core mask).mem = s.mem ∧ (State.releaseEngines s
    core mask).net = s.net ∧ (State.releaseEngines s core mask).links = s.links ∧ (State.releaseEngines s core mask).svc =
    s.svc := by
  unfold State.releaseEngines
  refine ⟨?_, ?_, ?_, ?_, ?_, ?_, ?_, ?_, ?_, ?_⟩ <;> (repeat' first
    | with_reducible rfl
    | simp only [State.ite_frame, ite_self, State.modCore_frame, State.checkOvercommit_frame, State.commitPersist_frame]
    | (intro _ _) | with_reducible refine (foldl_proj _ _ ?_ _ _).trans ?_
    | with_reducible refine (foldl_fst _ _ ?_ _ _).trans ?_ | with_reducible refine (foldl_run _ _ ?_ _ _).trans ?_ | split)
@[simp] theorem State.putSrtp_frame (s : State) (slot : Nat) (tenant : Nat) (keys : List Byte) : (State.putSrtp s slot tenant
    keys).pending = s.pending ∧ (State.putSrtp s slot tenant keys).draws = s.draws ∧ (State.putSrtp s slot tenant keys).aon =
    s.aon ∧ (State.putSrtp s slot tenant keys).time = s.time ∧ (State.putSrtp s slot tenant keys).persist = s.persist ∧
    (State.putSrtp s slot tenant keys).flash = s.flash ∧ (State.putSrtp s slot tenant keys).streams = s.streams ∧
    (State.putSrtp s slot tenant keys).cores = s.cores ∧ (State.putSrtp s slot tenant keys).ctxs = s.ctxs ∧ (State.putSrtp s
    slot tenant keys).mem = s.mem ∧ (State.putSrtp s slot tenant keys).recov = s.recov ∧ (State.putSrtp s slot tenant
    keys).clotha = s.clotha ∧ (State.putSrtp s slot tenant keys).links = s.links ∧ (State.putSrtp s slot tenant keys).svc =
    s.svc := by
  unfold State.putSrtp
  refine ⟨?_, ?_, ?_, ?_, ?_, ?_, ?_, ?_, ?_, ?_, ?_, ?_, ?_, ?_⟩ <;> (repeat' first
    | with_reducible rfl | simp only [State.ite_frame, ite_self] | (intro _ _)
    | with_reducible refine (foldl_proj _ _ ?_ _ _).trans ?_ | with_reducible refine (foldl_fst _ _ ?_ _ _).trans ?_
    | with_reducible refine (foldl_run _ _ ?_ _ _).trans ?_ | split)
@[simp] theorem State.startDrain_frame (s : State) (ms : Nat) : (State.startDrain s ms).pending = s.pending ∧ (State.startDrain
    s ms).draws = s.draws ∧ (State.startDrain s ms).time = s.time ∧ (State.startDrain s ms).persist = s.persist ∧
    (State.startDrain s ms).flash = s.flash ∧ (State.startDrain s ms).streams = s.streams ∧ (State.startDrain s ms).ctxs =
    s.ctxs ∧ (State.startDrain s ms).mem = s.mem ∧ (State.startDrain s ms).clotha = s.clotha ∧ (State.startDrain s ms).net =
    s.net ∧ (State.startDrain s ms).links = s.links := by
  unfold State.startDrain
  refine ⟨?_, ?_, ?_, ?_, ?_, ?_, ?_, ?_, ?_, ?_, ?_⟩ <;> (repeat' first
    | with_reducible rfl | simp only [State.ite_frame, ite_self, State.drainCheck_frame, State.cancelJob_frame]
    | (intro _ _) | with_reducible refine (foldl_proj _ _ ?_ _ _).trans ?_
    | with_reducible refine (foldl_fst _ _ ?_ _ _).trans ?_ | with_reducible refine (foldl_run _ _ ?_ _ _).trans ?_ | split)
@[simp] theorem State.grantFrame_frame (s : State) (port : Nat) (media : Bool) : (State.grantFrame s port media).pending =
    s.pending ∧ (State.grantFrame s port media).aon = s.aon ∧ (State.grantFrame s port media).time = s.time ∧ (State.grantFrame
    s port media).flash = s.flash ∧ (State.grantFrame s port media).cores = s.cores ∧ (State.grantFrame s port media).ctxs =
    s.ctxs ∧ (State.grantFrame s port media).links = s.links ∧ (State.grantFrame s port media).svc = s.svc := by
  unfold State.grantFrame
  refine ⟨?_, ?_, ?_, ?_, ?_, ?_, ?_, ?_⟩ <;> (repeat' first
    | with_reducible rfl
    | simp only [State.ite_frame, ite_self, State.modPort_frame, State.takeMedia_frame, State.receive_frame] | (intro _ _)
    | with_reducible refine (foldl_proj _ _ ?_ _ _).trans ?_ | with_reducible refine (foldl_fst _ _ ?_ _ _).trans ?_
    | with_reducible refine (foldl_run _ _ ?_ _ _).trans ?_ | split)
@[simp] theorem State.loaderStalls_frame (s : State) (core : Nat) (e : Nat) : (State.loaderStalls s core e).pending = s.pending
    ∧ (State.loaderStalls s core e).draws = s.draws ∧ (State.loaderStalls s core e).aon = s.aon ∧ (State.loaderStalls s core
    e).time = s.time ∧ (State.loaderStalls s core e).persist = s.persist ∧ (State.loaderStalls s core e).flash = s.flash ∧
    (State.loaderStalls s core e).streams = s.streams ∧ (State.loaderStalls s core e).ctxs = s.ctxs ∧ (State.loaderStalls s
    core e).mem = s.mem ∧ (State.loaderStalls s core e).recov = s.recov ∧ (State.loaderStalls s core e).clotha = s.clotha ∧
    (State.loaderStalls s core e).net = s.net ∧ (State.loaderStalls s core e).links = s.links ∧ (State.loaderStalls s core
    e).svc = s.svc := by
  unfold State.loaderStalls
  refine ⟨?_, ?_, ?_, ?_, ?_, ?_, ?_, ?_, ?_, ?_, ?_, ?_, ?_, ?_⟩ <;> (repeat' first
    | with_reducible rfl | simp only [State.ite_frame, ite_self, State.modEngine_frame] | (intro _ _)
    | with_reducible refine (foldl_proj _ _ ?_ _ _).trans ?_ | with_reducible refine (foldl_fst _ _ ?_ _ _).trans ?_
    | with_reducible refine (foldl_run _ _ ?_ _ _).trans ?_ | split)
@[simp] theorem State.answerRead_frame (s : State) (r : Req) (b : Bulk) (off : Nat) (wrapped : Bool) (data : List Byte) :
    (State.answerRead s r b off wrapped data).pending = s.pending ∧ (State.answerRead s r b off wrapped data).aon = s.aon ∧
    (State.answerRead s r b off wrapped data).time = s.time ∧ (State.answerRead s r b off wrapped data).persist = s.persist ∧
    (State.answerRead s r b off wrapped data).flash = s.flash ∧ (State.answerRead s r b off wrapped data).streams = s.streams ∧
    (State.answerRead s r b off wrapped data).cores = s.cores ∧ (State.answerRead s r b off wrapped data).ctxs = s.ctxs ∧
    (State.answerRead s r b off wrapped data).mem = s.mem ∧ (State.answerRead s r b off wrapped data).recov = s.recov ∧
    (State.answerRead s r b off wrapped data).links = s.links ∧ (State.answerRead s r b off wrapped data).svc = s.svc := by
  unfold State.answerRead
  refine ⟨?_, ?_, ?_, ?_, ?_, ?_, ?_, ?_, ?_, ?_, ?_, ?_⟩ <;> (repeat' first
    | with_reducible rfl | simp only [State.ite_frame, ite_self, State.respond_frame] | (intro _ _)
    | with_reducible refine (foldl_proj _ _ ?_ _ _).trans ?_ | with_reducible refine (foldl_fst _ _ ?_ _ _).trans ?_
    | with_reducible refine (foldl_run _ _ ?_ _ _).trans ?_ | split)
@[simp] theorem State.bulkFails_frame (s : State) (r : Req) (b : Bulk) (code : Word16) : (State.bulkFails s r b code).pending =
    s.pending ∧ (State.bulkFails s r b code).aon = s.aon ∧ (State.bulkFails s r b code).time = s.time ∧ (State.bulkFails s r b
    code).persist = s.persist ∧ (State.bulkFails s r b code).flash = s.flash ∧ (State.bulkFails s r b code).streams = s.streams
    ∧ (State.bulkFails s r b code).cores = s.cores ∧ (State.bulkFails s r b code).ctxs = s.ctxs ∧ (State.bulkFails s r b
    code).mem = s.mem ∧ (State.bulkFails s r b code).recov = s.recov ∧ (State.bulkFails s r b code).links = s.links ∧
    (State.bulkFails s r b code).svc = s.svc := by
  unfold State.bulkFails
  refine ⟨?_, ?_, ?_, ?_, ?_, ?_, ?_, ?_, ?_, ?_, ?_, ?_⟩ <;> (repeat' first
    | with_reducible rfl | simp only [State.ite_frame, ite_self, State.respond_frame] | (intro _ _)
    | with_reducible refine (foldl_proj _ _ ?_ _ _).trans ?_ | with_reducible refine (foldl_fst _ _ ?_ _ _).trans ?_
    | with_reducible refine (foldl_run _ _ ?_ _ _).trans ?_ | split)
@[simp] theorem State.placeSegment_frame (s : State) (part : Nat) (x0 : Option SegmentDone) : (State.placeSegment s part
    x0).pending = s.pending ∧ (State.placeSegment s part x0).draws = s.draws ∧ (State.placeSegment s part x0).aon = s.aon ∧
    (State.placeSegment s part x0).time = s.time ∧ (State.placeSegment s part x0).persist = s.persist ∧ (State.placeSegment s
    part x0).flash = s.flash ∧ (State.placeSegment s part x0).streams = s.streams ∧ (State.placeSegment s part x0).cores =
    s.cores ∧ (State.placeSegment s part x0).ctxs = s.ctxs ∧ (State.placeSegment s part x0).recov = s.recov ∧
    (State.placeSegment s part x0).clotha = s.clotha ∧ (State.placeSegment s part x0).net = s.net ∧ (State.placeSegment s part
    x0).links = s.links ∧ (State.placeSegment s part x0).svc = s.svc := by
  unfold State.placeSegment
  refine ⟨?_, ?_, ?_, ?_, ?_, ?_, ?_, ?_, ?_, ?_, ?_, ?_, ?_, ?_⟩ <;> (repeat' first
    | with_reducible rfl | simp only [State.ite_frame, ite_self, State.hbmWrite_frame] | (intro _ _)
    | with_reducible refine (foldl_proj _ _ ?_ _ _).trans ?_ | with_reducible refine (foldl_fst _ _ ?_ _ _).trans ?_
    | with_reducible refine (foldl_run _ _ ?_ _ _).trans ?_ | split)
@[simp] theorem State.addCtx_frame (s : State) (part : Nat) (slot : Option Nat) (i : CtxInit) : (State.addCtx s part slot
    i).pending = s.pending ∧ (State.addCtx s part slot i).draws = s.draws ∧ (State.addCtx s part slot i).aon = s.aon ∧
    (State.addCtx s part slot i).time = s.time ∧ (State.addCtx s part slot i).persist = s.persist ∧ (State.addCtx s part slot
    i).flash = s.flash ∧ (State.addCtx s part slot i).streams = s.streams ∧ (State.addCtx s part slot i).mem = s.mem ∧
    (State.addCtx s part slot i).recov = s.recov ∧ (State.addCtx s part slot i).clotha = s.clotha ∧ (State.addCtx s part slot
    i).net = s.net ∧ (State.addCtx s part slot i).links = s.links := by
  unfold State.addCtx
  refine ⟨?_, ?_, ?_, ?_, ?_, ?_, ?_, ?_, ?_, ?_, ?_, ?_⟩ <;> (repeat' first
    | with_reducible rfl | simp only [State.ite_frame, ite_self, State.install_frame, State.modCore_frame] | (intro _ _)
    | with_reducible refine (foldl_proj _ _ ?_ _ _).trans ?_ | with_reducible refine (foldl_fst _ _ ?_ _ _).trans ?_
    | with_reducible refine (foldl_run _ _ ?_ _ _).trans ?_ | split)
@[simp] theorem State.dropCtx_frame (s : State) (id : Nat) (core : Nat) : (State.dropCtx s id core).pending = s.pending ∧
    (State.dropCtx s id core).draws = s.draws ∧ (State.dropCtx s id core).aon = s.aon ∧ (State.dropCtx s id core).time = s.time
    ∧ (State.dropCtx s id core).persist = s.persist ∧ (State.dropCtx s id core).flash = s.flash ∧ (State.dropCtx s id
    core).streams = s.streams ∧ (State.dropCtx s id core).mem = s.mem ∧ (State.dropCtx s id core).recov = s.recov ∧
    (State.dropCtx s id core).clotha = s.clotha ∧ (State.dropCtx s id core).net = s.net ∧ (State.dropCtx s id core).links =
    s.links := by
  unfold State.dropCtx
  refine ⟨?_, ?_, ?_, ?_, ?_, ?_, ?_, ?_, ?_, ?_, ?_, ?_⟩ <;> (repeat' first
    | with_reducible rfl
    | simp only [State.ite_frame, ite_self, State.quietCtx_frame, State.modCore_frame, State.uninstall_frame] | (intro _ _)
    | with_reducible refine (foldl_proj _ _ ?_ _ _).trans ?_ | with_reducible refine (foldl_fst _ _ ?_ _ _).trans ?_
    | with_reducible refine (foldl_run _ _ ?_ _ _).trans ?_ | split)
@[simp] theorem State.dropCtxs_frame (s : State) (p : Ctx → Bool) : (State.dropCtxs s p).pending = s.pending ∧ (State.dropCtxs
    s p).draws = s.draws ∧ (State.dropCtxs s p).aon = s.aon ∧ (State.dropCtxs s p).time = s.time ∧ (State.dropCtxs s p).persist
    = s.persist ∧ (State.dropCtxs s p).flash = s.flash ∧ (State.dropCtxs s p).streams = s.streams ∧ (State.dropCtxs s p).mem =
    s.mem ∧ (State.dropCtxs s p).recov = s.recov ∧ (State.dropCtxs s p).clotha = s.clotha ∧ (State.dropCtxs s p).net = s.net ∧
    (State.dropCtxs s p).links = s.links := by
  unfold State.dropCtxs
  refine ⟨?_, ?_, ?_, ?_, ?_, ?_, ?_, ?_, ?_, ?_, ?_, ?_⟩ <;> (repeat' first
    | with_reducible rfl | simp only [State.ite_frame, ite_self, State.dropCtx_frame] | (intro _ _)
    | with_reducible refine (foldl_proj _ _ ?_ _ _).trans ?_ | with_reducible refine (foldl_fst _ _ ?_ _ _).trans ?_
    | with_reducible refine (foldl_run _ _ ?_ _ _).trans ?_ | split)
@[simp] theorem State.placePart_frame (s : State) (n : Nat) (r : PartRec) (ch : PartChoice) (ext : List (Nat × Nat)) :
    (State.placePart s n r ch ext).pending = s.pending ∧ (State.placePart s n r ch ext).draws = s.draws ∧ (State.placePart s n
    r ch ext).aon = s.aon ∧ (State.placePart s n r ch ext).time = s.time ∧ (State.placePart s n r ch ext).persist = s.persist ∧
    (State.placePart s n r ch ext).flash = s.flash ∧ (State.placePart s n r ch ext).streams = s.streams ∧ (State.placePart s n
    r ch ext).recov = s.recov ∧ (State.placePart s n r ch ext).clotha = s.clotha ∧ (State.placePart s n r ch ext).net = s.net ∧
    (State.placePart s n r ch ext).links = s.links := by
  unfold State.placePart
  refine ⟨?_, ?_, ?_, ?_, ?_, ?_, ?_, ?_, ?_, ?_, ?_⟩ <;> (repeat' first
    | with_reducible rfl
    | simp only [State.ite_frame, ite_self, State.install_frame, State.modCore_frame, State.addCtx_frame] | (intro _ _)
    | with_reducible refine (foldl_proj _ _ ?_ _ _).trans ?_ | with_reducible refine (foldl_fst _ _ ?_ _ _).trans ?_
    | with_reducible refine (foldl_run _ _ ?_ _ _).trans ?_ | split)
@[simp] theorem State.createPart_frame (s : State) (n : Nat) (r : PartRec) (ch : PartChoice) : (State.createPart s n r
    ch).pending = s.pending ∧ (State.createPart s n r ch).draws = s.draws ∧ (State.createPart s n r ch).aon = s.aon ∧
    (State.createPart s n r ch).time = s.time ∧ (State.createPart s n r ch).flash = s.flash ∧ (State.createPart s n r
    ch).streams = s.streams ∧ (State.createPart s n r ch).clotha = s.clotha ∧ (State.createPart s n r ch).net = s.net ∧
    (State.createPart s n r ch).links = s.links := by
  unfold State.createPart
  refine ⟨?_, ?_, ?_, ?_, ?_, ?_, ?_, ?_, ?_⟩ <;> (repeat' first
    | with_reducible rfl | simp only [State.ite_frame, ite_self, State.placePart_frame, State.logFw_frame] | (intro _ _)
    | with_reducible refine (foldl_proj _ _ ?_ _ _).trans ?_ | with_reducible refine (foldl_fst _ _ ?_ _ _).trans ?_
    | with_reducible refine (foldl_run _ _ ?_ _ _).trans ?_ | split)
@[simp] theorem State.destroyPart_frame (s : State) (n : Nat) (r : PartRec) : (State.destroyPart s n r).pending = s.pending ∧
    (State.destroyPart s n r).draws = s.draws ∧ (State.destroyPart s n r).aon = s.aon ∧ (State.destroyPart s n r).time = s.time
    ∧ (State.destroyPart s n r).flash = s.flash ∧ (State.destroyPart s n r).streams = s.streams ∧ (State.destroyPart s n
    r).clotha = s.clotha ∧ (State.destroyPart s n r).net = s.net ∧ (State.destroyPart s n r).links = s.links := by
  unfold State.destroyPart
  refine ⟨?_, ?_, ?_, ?_, ?_, ?_, ?_, ?_, ?_⟩ <;> (repeat' first
    | with_reducible rfl
    | simp only [State.ite_frame, ite_self, State.dropCtxs_frame, State.modCore_frame, State.logFw_frame,
      State.uninstall_frame] | (intro _ _) | with_reducible refine (foldl_proj _ _ ?_ _ _).trans ?_
    | with_reducible refine (foldl_fst _ _ ?_ _ _).trans ?_ | with_reducible refine (foldl_run _ _ ?_ _ _).trans ?_ | split)
@[simp] theorem State.acceptLoad_frame (s : State) (slot : Nat) (m : ModelSlot) (p : Package) (l : List CtxInit) :
    (State.acceptLoad s slot m p l).pending = s.pending ∧ (State.acceptLoad s slot m p l).draws = s.draws ∧ (State.acceptLoad s
    slot m p l).aon = s.aon ∧ (State.acceptLoad s slot m p l).time = s.time ∧ (State.acceptLoad s slot m p l).persist =
    s.persist ∧ (State.acceptLoad s slot m p l).flash = s.flash ∧ (State.acceptLoad s slot m p l).streams = s.streams ∧
    (State.acceptLoad s slot m p l).mem = s.mem ∧ (State.acceptLoad s slot m p l).clotha = s.clotha ∧ (State.acceptLoad s slot
    m p l).net = s.net ∧ (State.acceptLoad s slot m p l).links = s.links := by
  unfold State.acceptLoad
  refine ⟨?_, ?_, ?_, ?_, ?_, ?_, ?_, ?_, ?_, ?_, ?_⟩ <;> (repeat' first
    | with_reducible rfl
    | simp only [State.ite_frame, ite_self, State.install_frame, State.uninstall_frame, State.logFw_frame,
      State.addCtx_frame] | (intro _ _) | with_reducible refine (foldl_proj _ _ ?_ _ _).trans ?_
    | with_reducible refine (foldl_fst _ _ ?_ _ _).trans ?_ | with_reducible refine (foldl_run _ _ ?_ _ _).trans ?_ | split)
@[simp] theorem State.logSecure_frame (s : State) (event : Nat) (code : Nat) (detail : List (Nat × Int)) : (State.logSecure s
    event code detail).pending = s.pending ∧ (State.logSecure s event code detail).draws = s.draws ∧ (State.logSecure s event
    code detail).aon = s.aon ∧ (State.logSecure s event code detail).time = s.time ∧ (State.logSecure s event code
    detail).persist = s.persist ∧ (State.logSecure s event code detail).flash = s.flash ∧ (State.logSecure s event code
    detail).streams = s.streams ∧ (State.logSecure s event code detail).cores = s.cores ∧ (State.logSecure s event code
    detail).ctxs = s.ctxs ∧ (State.logSecure s event code detail).mem = s.mem ∧ (State.logSecure s event code detail).clotha =
    s.clotha ∧ (State.logSecure s event code detail).net = s.net ∧ (State.logSecure s event code detail).links = s.links ∧
    (State.logSecure s event code detail).svc = s.svc := by
  unfold State.logSecure
  refine ⟨?_, ?_, ?_, ?_, ?_, ?_, ?_, ?_, ?_, ?_, ?_, ?_, ?_, ?_⟩ <;> (repeat' first
    | with_reducible rfl | simp only [State.ite_frame, ite_self, State.logEvent_frame] | (intro _ _)
    | with_reducible refine (foldl_proj _ _ ?_ _ _).trans ?_ | with_reducible refine (foldl_fst _ _ ?_ _ _).trans ?_
    | with_reducible refine (foldl_run _ _ ?_ _ _).trans ?_ | split)
@[simp] theorem State.enrol_frame (s : State) (v : List Byte) : (State.enrol s v).pending = s.pending ∧ (State.enrol s v).draws
    = s.draws ∧ (State.enrol s v).aon = s.aon ∧ (State.enrol s v).time = s.time ∧ (State.enrol s v).flash = s.flash ∧
    (State.enrol s v).streams = s.streams ∧ (State.enrol s v).cores = s.cores ∧ (State.enrol s v).ctxs = s.ctxs ∧ (State.enrol
    s v).mem = s.mem ∧ (State.enrol s v).clotha = s.clotha ∧ (State.enrol s v).net = s.net ∧ (State.enrol s v).links = s.links
    ∧ (State.enrol s v).svc = s.svc := by
  unfold State.enrol
  refine ⟨?_, ?_, ?_, ?_, ?_, ?_, ?_, ?_, ?_, ?_, ?_, ?_, ?_⟩ <;> (repeat' first
    | with_reducible rfl | simp only [State.ite_frame, ite_self, State.logSecure_frame] | (intro _ _)
    | with_reducible refine (foldl_proj _ _ ?_ _ _).trans ?_ | with_reducible refine (foldl_fst _ _ ?_ _ _).trans ?_
    | with_reducible refine (foldl_run _ _ ?_ _ _).trans ?_ | split)
@[simp] theorem State.forgetKeys_frame (s : State) (p : Nat → Bool) : (State.forgetKeys s p).pending = s.pending ∧
    (State.forgetKeys s p).draws = s.draws ∧ (State.forgetKeys s p).aon = s.aon ∧ (State.forgetKeys s p).time = s.time ∧
    (State.forgetKeys s p).persist = s.persist ∧ (State.forgetKeys s p).flash = s.flash ∧ (State.forgetKeys s p).streams =
    s.streams ∧ (State.forgetKeys s p).cores = s.cores ∧ (State.forgetKeys s p).ctxs = s.ctxs ∧ (State.forgetKeys s p).mem =
    s.mem ∧ (State.forgetKeys s p).recov = s.recov ∧ (State.forgetKeys s p).net = s.net ∧ (State.forgetKeys s p).links =
    s.links ∧ (State.forgetKeys s p).svc = s.svc := by
  unfold State.forgetKeys
  refine ⟨?_, ?_, ?_, ?_, ?_, ?_, ?_, ?_, ?_, ?_, ?_, ?_, ?_, ?_⟩ <;> (repeat' first
    | with_reducible rfl | simp only [State.ite_frame, ite_self] | (intro _ _)
    | with_reducible refine (foldl_proj _ _ ?_ _ _).trans ?_ | with_reducible refine (foldl_fst _ _ ?_ _ _).trans ?_
    | with_reducible refine (foldl_run _ _ ?_ _ _).trans ?_ | split)
@[simp] theorem State.revoke_frame (s : State) (id : Nat) : (State.revoke s id).pending = s.pending ∧ (State.revoke s id).draws
    = s.draws ∧ (State.revoke s id).aon = s.aon ∧ (State.revoke s id).time = s.time ∧ (State.revoke s id).flash = s.flash ∧
    (State.revoke s id).streams = s.streams ∧ (State.revoke s id).cores = s.cores ∧ (State.revoke s id).ctxs = s.ctxs ∧
    (State.revoke s id).mem = s.mem ∧ (State.revoke s id).net = s.net ∧ (State.revoke s id).links = s.links ∧ (State.revoke s
    id).svc = s.svc := by
  unfold State.revoke
  refine ⟨?_, ?_, ?_, ?_, ?_, ?_, ?_, ?_, ?_, ?_, ?_, ?_⟩ <;> (repeat' first
    | with_reducible rfl | simp only [State.ite_frame, ite_self, State.logSecure_frame, State.forgetKeys_frame]
    | (intro _ _) | with_reducible refine (foldl_proj _ _ ?_ _ _).trans ?_
    | with_reducible refine (foldl_fst _ _ ?_ _ _).trans ?_ | with_reducible refine (foldl_run _ _ ?_ _ _).trans ?_ | split)
@[simp] theorem State.dropLinkKeys_frame (s : State) : (State.dropLinkKeys s).pending = s.pending ∧ (State.dropLinkKeys
    s).draws = s.draws ∧ (State.dropLinkKeys s).aon = s.aon ∧ (State.dropLinkKeys s).time = s.time ∧ (State.dropLinkKeys
    s).persist = s.persist ∧ (State.dropLinkKeys s).flash = s.flash ∧ (State.dropLinkKeys s).clotha = s.clotha ∧
    (State.dropLinkKeys s).net = s.net := by
  unfold State.dropLinkKeys
  refine ⟨?_, ?_, ?_, ?_, ?_, ?_, ?_, ?_⟩ <;> (repeat' first
    | with_reducible rfl | simp only [State.ite_frame, ite_self, State.linkGoDown_frame] | (intro _ _)
    | with_reducible refine (foldl_proj _ _ ?_ _ _).trans ?_ | with_reducible refine (foldl_fst _ _ ?_ _ _).trans ?_
    | with_reducible refine (foldl_run _ _ ?_ _ _).trans ?_ | split)
@[simp] theorem State.decommission_frame (s : State) : (State.decommission s).pending = s.pending ∧ (State.decommission
    s).draws = s.draws ∧ (State.decommission s).aon = s.aon ∧ (State.decommission s).time = s.time ∧ (State.decommission
    s).flash = s.flash := by
  unfold State.decommission
  refine ⟨?_, ?_, ?_, ?_, ?_⟩ <;> (repeat' first
    | with_reducible rfl | simp only [State.ite_frame, ite_self, State.dropLinkKeys_frame, State.forgetKeys_frame]
    | (intro _ _) | with_reducible refine (foldl_proj _ _ ?_ _ _).trans ?_
    | with_reducible refine (foldl_fst _ _ ?_ _ _).trans ?_ | with_reducible refine (foldl_run _ _ ?_ _ _).trans ?_ | split)
@[simp] theorem State.removeTenant_frame (s : State) (slot : Nat) (id : Nat) : (State.removeTenant s slot id).pending =
    s.pending ∧ (State.removeTenant s slot id).draws = s.draws ∧ (State.removeTenant s slot id).aon = s.aon ∧
    (State.removeTenant s slot id).time = s.time ∧ (State.removeTenant s slot id).flash = s.flash ∧ (State.removeTenant s slot
    id).streams = s.streams ∧ (State.removeTenant s slot id).cores = s.cores ∧ (State.removeTenant s slot id).ctxs = s.ctxs ∧
    (State.removeTenant s slot id).mem = s.mem ∧ (State.removeTenant s slot id).links = s.links := by
  unfold State.removeTenant
  refine ⟨?_, ?_, ?_, ?_, ?_, ?_, ?_, ?_, ?_, ?_⟩ <;> (repeat' first
    | with_reducible rfl | simp only [State.ite_frame, ite_self, State.revoke_frame] | (intro _ _)
    | with_reducible refine (foldl_proj _ _ ?_ _ _).trans ?_ | with_reducible refine (foldl_fst _ _ ?_ _ _).trans ?_
    | with_reducible refine (foldl_run _ _ ?_ _ _).trans ?_ | split)
@[simp] theorem State.imageRejected_frame (s : State) (slot : Nat) (code : Word16) : (State.imageRejected s slot code).pending
    = s.pending ∧ (State.imageRejected s slot code).draws = s.draws ∧ (State.imageRejected s slot code).aon = s.aon ∧
    (State.imageRejected s slot code).time = s.time ∧ (State.imageRejected s slot code).persist = s.persist ∧
    (State.imageRejected s slot code).flash = s.flash ∧ (State.imageRejected s slot code).streams = s.streams ∧
    (State.imageRejected s slot code).cores = s.cores ∧ (State.imageRejected s slot code).ctxs = s.ctxs ∧ (State.imageRejected
    s slot code).mem = s.mem ∧ (State.imageRejected s slot code).clotha = s.clotha ∧ (State.imageRejected s slot code).net =
    s.net ∧ (State.imageRejected s slot code).links = s.links ∧ (State.imageRejected s slot code).svc = s.svc := by
  unfold State.imageRejected
  refine ⟨?_, ?_, ?_, ?_, ?_, ?_, ?_, ?_, ?_, ?_, ?_, ?_, ?_, ?_⟩ <;> (repeat' first
    | with_reducible rfl | simp only [State.ite_frame, ite_self, State.logSecure_frame] | (intro _ _)
    | with_reducible refine (foldl_proj _ _ ?_ _ _).trans ?_ | with_reducible refine (foldl_fst _ _ ?_ _ _).trans ?_
    | with_reducible refine (foldl_run _ _ ?_ _ _).trans ?_ | split)
@[simp] theorem State.activate_frame (s : State) (slot : Nat) : (State.activate s slot).pending = s.pending ∧ (State.activate s
    slot).draws = s.draws ∧ (State.activate s slot).time = s.time ∧ (State.activate s slot).flash = s.flash ∧ (State.activate s
    slot).streams = s.streams ∧ (State.activate s slot).cores = s.cores ∧ (State.activate s slot).ctxs = s.ctxs ∧
    (State.activate s slot).mem = s.mem ∧ (State.activate s slot).net = s.net ∧ (State.activate s slot).links = s.links := by
  unfold State.activate
  refine ⟨?_, ?_, ?_, ?_, ?_, ?_, ?_, ?_, ?_, ?_⟩ <;> (repeat' first
    | with_reducible rfl | simp only [State.ite_frame, ite_self, State.logSecure_frame] | (intro _ _)
    | with_reducible refine (foldl_proj _ _ ?_ _ _).trans ?_ | with_reducible refine (foldl_fst _ _ ?_ _ _).trans ?_
    | with_reducible refine (foldl_run _ _ ?_ _ _).trans ?_ | split)
@[simp] theorem State.mgmtRead_frame (s : State) (a : Nat) (n : Nat) : (State.mgmtRead s a n).pending = s.pending ∧
    (State.mgmtRead s a n).draws = s.draws ∧ (State.mgmtRead s a n).aon = s.aon ∧ (State.mgmtRead s a n).time = s.time ∧
    (State.mgmtRead s a n).persist = s.persist ∧ (State.mgmtRead s a n).flash = s.flash ∧ (State.mgmtRead s a n).streams =
    s.streams ∧ (State.mgmtRead s a n).cores = s.cores ∧ (State.mgmtRead s a n).ctxs = s.ctxs ∧ (State.mgmtRead s a n).mem =
    s.mem ∧ (State.mgmtRead s a n).recov = s.recov ∧ (State.mgmtRead s a n).net = s.net ∧ (State.mgmtRead s a n).links =
    s.links ∧ (State.mgmtRead s a n).svc = s.svc := by
  unfold State.mgmtRead
  refine ⟨?_, ?_, ?_, ?_, ?_, ?_, ?_, ?_, ?_, ?_, ?_, ?_, ?_, ?_⟩ <;> (repeat' first
    | with_reducible rfl | simp only [State.ite_frame, ite_self] | (intro _ _)
    | with_reducible refine (foldl_proj _ _ ?_ _ _).trans ?_ | with_reducible refine (foldl_fst _ _ ?_ _ _).trans ?_
    | with_reducible refine (foldl_run _ _ ?_ _ _).trans ?_ | split)
@[simp] theorem State.modTel_frame (s : State) (map : Nat) (f : TelState → TelState) : (State.modTel s map f).pending =
    s.pending ∧ (State.modTel s map f).draws = s.draws ∧ (State.modTel s map f).aon = s.aon ∧ (State.modTel s map f).time =
    s.time ∧ (State.modTel s map f).persist = s.persist ∧ (State.modTel s map f).flash = s.flash ∧ (State.modTel s map
    f).streams = s.streams ∧ (State.modTel s map f).cores = s.cores ∧ (State.modTel s map f).ctxs = s.ctxs ∧ (State.modTel s
    map f).mem = s.mem ∧ (State.modTel s map f).recov = s.recov ∧ (State.modTel s map f).net = s.net ∧ (State.modTel s map
    f).links = s.links ∧ (State.modTel s map f).svc = s.svc := by
  unfold State.modTel
  refine ⟨?_, ?_, ?_, ?_, ?_, ?_, ?_, ?_, ?_, ?_, ?_, ?_, ?_, ?_⟩ <;> (repeat' first
    | with_reducible rfl | simp only [State.ite_frame, ite_self] | (intro _ _)
    | with_reducible refine (foldl_proj _ _ ?_ _ _).trans ?_ | with_reducible refine (foldl_fst _ _ ?_ _ _).trans ?_
    | with_reducible refine (foldl_run _ _ ?_ _ _).trans ?_ | split)
@[simp] theorem State.sendTel_frame (s : State) (map : Nat) (m : Msg) : (State.sendTel s map m).pending = s.pending ∧
    (State.sendTel s map m).aon = s.aon ∧ (State.sendTel s map m).time = s.time ∧ (State.sendTel s map m).persist = s.persist ∧
    (State.sendTel s map m).flash = s.flash ∧ (State.sendTel s map m).streams = s.streams ∧ (State.sendTel s map m).cores =
    s.cores ∧ (State.sendTel s map m).ctxs = s.ctxs ∧ (State.sendTel s map m).mem = s.mem ∧ (State.sendTel s map m).recov =
    s.recov ∧ (State.sendTel s map m).links = s.links ∧ (State.sendTel s map m).svc = s.svc := by
  unfold State.sendTel
  refine ⟨?_, ?_, ?_, ?_, ?_, ?_, ?_, ?_, ?_, ?_, ?_, ?_⟩ <;> (repeat' first
    | with_reducible rfl | simp only [State.ite_frame, ite_self, State.draw_frame, State.modTel_frame, State.sendIp_frame]
    | (intro _ _) | with_reducible refine (foldl_proj _ _ ?_ _ _).trans ?_
    | with_reducible refine (foldl_fst _ _ ?_ _ _).trans ?_ | with_reducible refine (foldl_run _ _ ?_ _ _).trans ?_ | split)
@[simp] theorem State.skipTel_frame (s : State) (map : Nat) : (State.skipTel s map).pending = s.pending ∧ (State.skipTel s
    map).draws = s.draws ∧ (State.skipTel s map).aon = s.aon ∧ (State.skipTel s map).time = s.time ∧ (State.skipTel s
    map).persist = s.persist ∧ (State.skipTel s map).flash = s.flash ∧ (State.skipTel s map).streams = s.streams ∧
    (State.skipTel s map).cores = s.cores ∧ (State.skipTel s map).ctxs = s.ctxs ∧ (State.skipTel s map).mem = s.mem ∧
    (State.skipTel s map).net = s.net ∧ (State.skipTel s map).links = s.links ∧ (State.skipTel s map).svc = s.svc := by
  unfold State.skipTel
  refine ⟨?_, ?_, ?_, ?_, ?_, ?_, ?_, ?_, ?_, ?_, ?_, ?_, ?_⟩ <;> (repeat' first
    | with_reducible rfl | simp only [State.ite_frame, ite_self, State.logFw_frame, State.modTel_frame] | (intro _ _)
    | with_reducible refine (foldl_proj _ _ ?_ _ _).trans ?_ | with_reducible refine (foldl_fst _ _ ?_ _ _).trans ?_
    | with_reducible refine (foldl_run _ _ ?_ _ _).trans ?_ | split)
@[simp] theorem State.sampleTel_frame (s : State) (map : Nat) (m : TelMap) (instant : Nat) (k : KeyRec) : (State.sampleTel s
    map m instant k).pending = s.pending ∧ (State.sampleTel s map m instant k).aon = s.aon ∧ (State.sampleTel s map m instant
    k).time = s.time ∧ (State.sampleTel s map m instant k).persist = s.persist ∧ (State.sampleTel s map m instant k).flash =
    s.flash ∧ (State.sampleTel s map m instant k).streams = s.streams ∧ (State.sampleTel s map m instant k).cores = s.cores ∧
    (State.sampleTel s map m instant k).ctxs = s.ctxs ∧ (State.sampleTel s map m instant k).mem = s.mem ∧ (State.sampleTel s
    map m instant k).recov = s.recov ∧ (State.sampleTel s map m instant k).links = s.links ∧ (State.sampleTel s map m instant
    k).svc = s.svc := by
  unfold State.sampleTel
  refine ⟨?_, ?_, ?_, ?_, ?_, ?_, ?_, ?_, ?_, ?_, ?_, ?_⟩ <;> (repeat' first
    | with_reducible rfl | simp only [State.ite_frame, ite_self, State.sendTel_frame, State.modTel_frame] | (intro _ _)
    | with_reducible refine (foldl_proj _ _ ?_ _ _).trans ?_ | with_reducible refine (foldl_fst _ _ ?_ _ _).trans ?_
    | with_reducible refine (foldl_run _ _ ?_ _ _).trans ?_ | split)
@[simp] theorem State.pickImage_frame (s : State) (check : Nat → ImageCheck) (x0 : List Nat) : (State.pickImage s check
    x0).1.pending = s.pending ∧ (State.pickImage s check x0).1.draws = s.draws ∧ (State.pickImage s check x0).1.aon = s.aon ∧
    (State.pickImage s check x0).1.time = s.time ∧ (State.pickImage s check x0).1.persist = s.persist ∧ (State.pickImage s
    check x0).1.flash = s.flash ∧ (State.pickImage s check x0).1.streams = s.streams ∧ (State.pickImage s check x0).1.cores =
    s.cores ∧ (State.pickImage s check x0).1.ctxs = s.ctxs ∧ (State.pickImage s check x0).1.mem = s.mem ∧ (State.pickImage s
    check x0).1.clotha = s.clotha ∧ (State.pickImage s check x0).1.net = s.net ∧ (State.pickImage s check x0).1.links = s.links
    ∧ (State.pickImage s check x0).1.svc = s.svc := by
  induction x0 generalizing s <;> unfold State.pickImage <;> (refine ⟨?_, ?_, ?_, ?_, ?_, ?_, ?_, ?_, ?_, ?_, ?_, ?_, ?_,
      ?_⟩ <;> (repeat' first
    | with_reducible rfl | simp only [State.ite_frame, ite_self, State.imageRejected_frame, *] | (intro _ _)
    | with_reducible refine (foldl_proj _ _ ?_ _ _).trans ?_ | with_reducible refine (foldl_fst _ _ ?_ _ _).trans ?_
    | with_reducible refine (foldl_run _ _ ?_ _ _).trans ?_ | split))
@[simp] theorem State.shutdownEvent_frame (s : State) : (State.shutdownEvent s).pending = s.pending ∧ (State.shutdownEvent
    s).draws = s.draws ∧ (State.shutdownEvent s).time = s.time ∧ (State.shutdownEvent s).persist = s.persist ∧
    (State.shutdownEvent s).flash = s.flash ∧ (State.shutdownEvent s).streams = s.streams ∧ (State.shutdownEvent s).cores =
    s.cores ∧ (State.shutdownEvent s).ctxs = s.ctxs ∧ (State.shutdownEvent s).mem = s.mem ∧ (State.shutdownEvent s).clotha =
    s.clotha ∧ (State.shutdownEvent s).net = s.net ∧ (State.shutdownEvent s).links = s.links ∧ (State.shutdownEvent s).svc =
    s.svc := by
  unfold State.shutdownEvent
  refine ⟨?_, ?_, ?_, ?_, ?_, ?_, ?_, ?_, ?_, ?_, ?_, ?_, ?_⟩ <;> (repeat' first
    | with_reducible rfl | simp only [State.ite_frame, ite_self, State.logFw_frame] | (intro _ _)
    | with_reducible refine (foldl_proj _ _ ?_ _ _).trans ?_ | with_reducible refine (foldl_fst _ _ ?_ _ _).trans ?_
    | with_reducible refine (foldl_run _ _ ?_ _ _).trans ?_ | split)
@[simp] theorem State.restoreValues_frame (s : State) (journalOk : Bool) : (State.restoreValues s journalOk).pending =
    s.pending ∧ (State.restoreValues s journalOk).draws = s.draws ∧ (State.restoreValues s journalOk).aon = s.aon ∧
    (State.restoreValues s journalOk).time = s.time ∧ (State.restoreValues s journalOk).flash = s.flash ∧ (State.restoreValues
    s journalOk).streams = s.streams ∧ (State.restoreValues s journalOk).cores = s.cores ∧ (State.restoreValues s
    journalOk).ctxs = s.ctxs ∧ (State.restoreValues s journalOk).mem = s.mem ∧ (State.restoreValues s journalOk).net = s.net ∧
    (State.restoreValues s journalOk).links = s.links ∧ (State.restoreValues s journalOk).svc = s.svc := by
  unfold State.restoreValues
  refine ⟨?_, ?_, ?_, ?_, ?_, ?_, ?_, ?_, ?_, ?_, ?_, ?_⟩ <;> (repeat' first
    | with_reducible rfl | simp only [State.ite_frame, ite_self, State.logFw_frame, State.commitPersist_frame]
    | (intro _ _) | with_reducible refine (foldl_proj _ _ ?_ _ _).trans ?_
    | with_reducible refine (foldl_fst _ _ ?_ _ _).trans ?_ | with_reducible refine (foldl_run _ _ ?_ _ _).trans ?_ | split)
@[simp] theorem State.startLinks_frame (s : State) : (State.startLinks s).pending = s.pending ∧ (State.startLinks s).draws =
    s.draws ∧ (State.startLinks s).aon = s.aon ∧ (State.startLinks s).time = s.time ∧ (State.startLinks s).persist = s.persist
    ∧ (State.startLinks s).flash = s.flash ∧ (State.startLinks s).streams = s.streams ∧ (State.startLinks s).cores = s.cores ∧
    (State.startLinks s).ctxs = s.ctxs ∧ (State.startLinks s).mem = s.mem ∧ (State.startLinks s).recov = s.recov ∧
    (State.startLinks s).clotha = s.clotha ∧ (State.startLinks s).net = s.net ∧ (State.startLinks s).svc = s.svc := by
  unfold State.startLinks
  refine ⟨?_, ?_, ?_, ?_, ?_, ?_, ?_, ?_, ?_, ?_, ?_, ?_, ?_, ?_⟩ <;> (repeat' first
    | with_reducible rfl | simp only [State.ite_frame, ite_self, State.modLink_frame] | (intro _ _)
    | with_reducible refine (foldl_proj _ _ ?_ _ _).trans ?_ | with_reducible refine (foldl_fst _ _ ?_ _ _).trans ?_
    | with_reducible refine (foldl_run _ _ ?_ _ _).trans ?_ | split)
@[simp] theorem State.firmwareUp_frame (s : State) (slot : Nat) : (State.firmwareUp s slot).pending = s.pending ∧
    (State.firmwareUp s slot).draws = s.draws ∧ (State.firmwareUp s slot).time = s.time ∧ (State.firmwareUp s slot).persist =
    s.persist ∧ (State.firmwareUp s slot).flash = s.flash ∧ (State.firmwareUp s slot).streams = s.streams ∧ (State.firmwareUp s
    slot).cores = s.cores ∧ (State.firmwareUp s slot).ctxs = s.ctxs ∧ (State.firmwareUp s slot).mem = s.mem ∧ (State.firmwareUp
    s slot).recov = s.recov ∧ (State.firmwareUp s slot).net = s.net ∧ (State.firmwareUp s slot).links = s.links := by
  unfold State.firmwareUp
  refine ⟨?_, ?_, ?_, ?_, ?_, ?_, ?_, ?_, ?_, ?_, ?_, ?_⟩ <;> (repeat' first
    | with_reducible rfl | simp only [State.ite_frame, ite_self] | (intro _ _)
    | with_reducible refine (foldl_proj _ _ ?_ _ _).trans ?_ | with_reducible refine (foldl_fst _ _ ?_ _ _).trans ?_
    | with_reducible refine (foldl_run _ _ ?_ _ _).trans ?_ | split)
@[simp] theorem VeEnv.reduce_frame (v : VeEnv) (m : VeRun) (w : Nat) (i : Nat) (poison : Bool) : (VeEnv.reduce v m w i
    poison).s.pending = m.s.pending ∧ (VeEnv.reduce v m w i poison).s.draws = m.s.draws ∧ (VeEnv.reduce v m w i poison).s.aon =
    m.s.aon ∧ (VeEnv.reduce v m w i poison).s.time = m.s.time ∧ (VeEnv.reduce v m w i poison).s.persist = m.s.persist ∧
    (VeEnv.reduce v m w i poison).s.flash = m.s.flash ∧ (VeEnv.reduce v m w i poison).s.streams = m.s.streams ∧ (VeEnv.reduce v
    m w i poison).s.cores = m.s.cores ∧ (VeEnv.reduce v m w i poison).s.ctxs = m.s.ctxs ∧ (VeEnv.reduce v m w i poison).s.mem =
    m.s.mem ∧ (VeEnv.reduce v m w i poison).s.recov = m.s.recov ∧ (VeEnv.reduce v m w i poison).s.clotha = m.s.clotha ∧
    (VeEnv.reduce v m w i poison).s.net = m.s.net ∧ (VeEnv.reduce v m w i poison).s.links = m.s.links ∧ (VeEnv.reduce v m w i
    poison).s.svc = m.s.svc := by
  unfold VeEnv.reduce
  refine ⟨?_, ?_, ?_, ?_, ?_, ?_, ?_, ?_, ?_, ?_, ?_, ?_, ?_, ?_, ?_⟩ <;> (repeat' first
    | with_reducible rfl | simp only [State.ite_frame, ite_self] | (intro _ _)
    | with_reducible refine (foldl_proj _ _ ?_ _ _).trans ?_ | with_reducible refine (foldl_fst _ _ ?_ _ _).trans ?_
    | with_reducible refine (foldl_run _ _ ?_ _ _).trans ?_ | split)
@[simp] theorem VeEnv.softmax_frame (v : VeEnv) (m : VeRun) (w : Nat) (i : Nat) (poison : Bool) : (VeEnv.softmax v m w i
    poison).s.pending = m.s.pending ∧ (VeEnv.softmax v m w i poison).s.draws = m.s.draws ∧ (VeEnv.softmax v m w i poison).s.aon
    = m.s.aon ∧ (VeEnv.softmax v m w i poison).s.time = m.s.time ∧ (VeEnv.softmax v m w i poison).s.persist = m.s.persist ∧
    (VeEnv.softmax v m w i poison).s.flash = m.s.flash ∧ (VeEnv.softmax v m w i poison).s.streams = m.s.streams ∧
    (VeEnv.softmax v m w i poison).s.cores = m.s.cores ∧ (VeEnv.softmax v m w i poison).s.ctxs = m.s.ctxs ∧ (VeEnv.softmax v m
    w i poison).s.mem = m.s.mem ∧ (VeEnv.softmax v m w i poison).s.recov = m.s.recov ∧ (VeEnv.softmax v m w i poison).s.clotha
    = m.s.clotha ∧ (VeEnv.softmax v m w i poison).s.net = m.s.net ∧ (VeEnv.softmax v m w i poison).s.links = m.s.links ∧
    (VeEnv.softmax v m w i poison).s.svc = m.s.svc := by
  unfold VeEnv.softmax
  refine ⟨?_, ?_, ?_, ?_, ?_, ?_, ?_, ?_, ?_, ?_, ?_, ?_, ?_, ?_, ?_⟩ <;> (repeat' first
    | with_reducible rfl | simp only [State.ite_frame, ite_self] | (intro _ _)
    | with_reducible refine (foldl_proj _ _ ?_ _ _).trans ?_ | with_reducible refine (foldl_fst _ _ ?_ _ _).trans ?_
    | with_reducible refine (foldl_run _ _ ?_ _ _).trans ?_ | split)
@[simp] theorem VeEnv.load_frame (v : VeEnv) (m : VeRun) (w : Nat) (i : Nat) : (VeEnv.load v m w i).s.pending = m.s.pending ∧
    (VeEnv.load v m w i).s.draws = m.s.draws ∧ (VeEnv.load v m w i).s.aon = m.s.aon ∧ (VeEnv.load v m w i).s.time = m.s.time ∧
    (VeEnv.load v m w i).s.persist = m.s.persist ∧ (VeEnv.load v m w i).s.flash = m.s.flash ∧ (VeEnv.load v m w i).s.streams =
    m.s.streams ∧ (VeEnv.load v m w i).s.cores = m.s.cores ∧ (VeEnv.load v m w i).s.ctxs = m.s.ctxs ∧ (VeEnv.load v m w
    i).s.mem = m.s.mem ∧ (VeEnv.load v m w i).s.recov = m.s.recov ∧ (VeEnv.load v m w i).s.clotha = m.s.clotha ∧ (VeEnv.load v
    m w i).s.net = m.s.net ∧ (VeEnv.load v m w i).s.links = m.s.links ∧ (VeEnv.load v m w i).s.svc = m.s.svc := by
  unfold VeEnv.load
  refine ⟨?_, ?_, ?_, ?_, ?_, ?_, ?_, ?_, ?_, ?_, ?_, ?_, ?_, ?_, ?_⟩ <;> (repeat' first
    | with_reducible rfl | simp only [State.ite_frame, ite_self] | (intro _ _)
    | with_reducible refine (foldl_proj _ _ ?_ _ _).trans ?_ | with_reducible refine (foldl_fst _ _ ?_ _ _).trans ?_
    | with_reducible refine (foldl_run _ _ ?_ _ _).trans ?_ | split)
@[simp] theorem VeEnv.store_frame (v : VeEnv) (m : VeRun) (w : Nat) (i : Nat) (poison : Bool) : (VeEnv.store v m w i
    poison).s.pending = m.s.pending ∧ (VeEnv.store v m w i poison).s.draws = m.s.draws ∧ (VeEnv.store v m w i poison).s.aon =
    m.s.aon ∧ (VeEnv.store v m w i poison).s.time = m.s.time ∧ (VeEnv.store v m w i poison).s.persist = m.s.persist ∧
    (VeEnv.store v m w i poison).s.flash = m.s.flash ∧ (VeEnv.store v m w i poison).s.streams = m.s.streams ∧ (VeEnv.store v m
    w i poison).s.ctxs = m.s.ctxs ∧ (VeEnv.store v m w i poison).s.mem = m.s.mem ∧ (VeEnv.store v m w i poison).s.recov =
    m.s.recov ∧ (VeEnv.store v m w i poison).s.clotha = m.s.clotha ∧ (VeEnv.store v m w i poison).s.net = m.s.net ∧
    (VeEnv.store v m w i poison).s.links = m.s.links ∧ (VeEnv.store v m w i poison).s.svc = m.s.svc := by
  unfold VeEnv.store
  refine ⟨?_, ?_, ?_, ?_, ?_, ?_, ?_, ?_, ?_, ?_, ?_, ?_, ?_, ?_⟩ <;> (repeat' first
    | with_reducible rfl | simp only [State.ite_frame, ite_self, State.putCodes_frame] | (intro _ _)
    | with_reducible refine (foldl_proj _ _ ?_ _ _).trans ?_ | with_reducible refine (foldl_fst _ _ ?_ _ _).trans ?_
    | with_reducible refine (foldl_run _ _ ?_ _ _).trans ?_ | split)
@[simp] theorem VeEnv.packMasked_frame (v : VeEnv) (s : State) (row : Nat) (extra : Nat) (poison : Bool) : (VeEnv.packMasked v
    s row extra poison).pending = s.pending ∧ (VeEnv.packMasked v s row extra poison).draws = s.draws ∧ (VeEnv.packMasked v s
    row extra poison).aon = s.aon ∧ (VeEnv.packMasked v s row extra poison).time = s.time ∧ (VeEnv.packMasked v s row extra
    poison).persist = s.persist ∧ (VeEnv.packMasked v s row extra poison).flash = s.flash ∧ (VeEnv.packMasked v s row extra
    poison).streams = s.streams ∧ (VeEnv.packMasked v s row extra poison).ctxs = s.ctxs ∧ (VeEnv.packMasked v s row extra
    poison).mem = s.mem ∧ (VeEnv.packMasked v s row extra poison).recov = s.recov ∧ (VeEnv.packMasked v s row extra
    poison).clotha = s.clotha ∧ (VeEnv.packMasked v s row extra poison).net = s.net ∧ (VeEnv.packMasked v s row extra
    poison).links = s.links ∧ (VeEnv.packMasked v s row extra poison).svc = s.svc := by
  unfold VeEnv.packMasked
  refine ⟨?_, ?_, ?_, ?_, ?_, ?_, ?_, ?_, ?_, ?_, ?_, ?_, ?_, ?_⟩ <;> (repeat' first
    | with_reducible rfl | simp only [State.ite_frame, ite_self, State.writeMasked_frame, State.zeroRange_frame]
    | (intro _ _) | with_reducible refine (foldl_proj _ _ ?_ _ _).trans ?_
    | with_reducible refine (foldl_fst _ _ ?_ _ _).trans ?_ | with_reducible refine (foldl_run _ _ ?_ _ _).trans ?_ | split)
@[simp] theorem VeEnv.packRow_frame (v : VeEnv) (w : Nat) (i : Nat) (poison : Bool) (m : VeRun) (r : Nat) : (VeEnv.packRow v w
    i poison m r).s.pending = m.s.pending ∧ (VeEnv.packRow v w i poison m r).s.draws = m.s.draws ∧ (VeEnv.packRow v w i poison
    m r).s.aon = m.s.aon ∧ (VeEnv.packRow v w i poison m r).s.time = m.s.time ∧ (VeEnv.packRow v w i poison m r).s.persist =
    m.s.persist ∧ (VeEnv.packRow v w i poison m r).s.flash = m.s.flash ∧ (VeEnv.packRow v w i poison m r).s.streams =
    m.s.streams ∧ (VeEnv.packRow v w i poison m r).s.ctxs = m.s.ctxs ∧ (VeEnv.packRow v w i poison m r).s.mem = m.s.mem ∧
    (VeEnv.packRow v w i poison m r).s.recov = m.s.recov ∧ (VeEnv.packRow v w i poison m r).s.clotha = m.s.clotha ∧
    (VeEnv.packRow v w i poison m r).s.net = m.s.net ∧ (VeEnv.packRow v w i poison m r).s.links = m.s.links ∧ (VeEnv.packRow v
    w i poison m r).s.svc = m.s.svc := by
  unfold VeEnv.packRow
  refine ⟨?_, ?_, ?_, ?_, ?_, ?_, ?_, ?_, ?_, ?_, ?_, ?_, ?_, ?_⟩ <;> (repeat' first
    | with_reducible rfl
    | simp only [State.ite_frame, ite_self, VeEnv.packMasked_frame, State.writeSegment_frame, State.putCodes_frame]
    | (intro _ _) | with_reducible refine (foldl_proj _ _ ?_ _ _).trans ?_
    | with_reducible refine (foldl_fst _ _ ?_ _ _).trans ?_ | with_reducible refine (foldl_run _ _ ?_ _ _).trans ?_ | split)
@[simp] theorem VeEnv.pack_frame (v : VeEnv) (m : VeRun) (w : Nat) (i : Nat) (poison : Bool) : (VeEnv.pack v m w i
    poison).s.pending = m.s.pending ∧ (VeEnv.pack v m w i poison).s.draws = m.s.draws ∧ (VeEnv.pack v m w i poison).s.aon =
    m.s.aon ∧ (VeEnv.pack v m w i poison).s.time = m.s.time ∧ (VeEnv.pack v m w i poison).s.persist = m.s.persist ∧ (VeEnv.pack
    v m w i poison).s.flash = m.s.flash ∧ (VeEnv.pack v m w i poison).s.streams = m.s.streams ∧ (VeEnv.pack v m w i
    poison).s.ctxs = m.s.ctxs ∧ (VeEnv.pack v m w i poison).s.mem = m.s.mem ∧ (VeEnv.pack v m w i poison).s.recov = m.s.recov ∧
    (VeEnv.pack v m w i poison).s.clotha = m.s.clotha ∧ (VeEnv.pack v m w i poison).s.net = m.s.net ∧ (VeEnv.pack v m w i
    poison).s.links = m.s.links ∧ (VeEnv.pack v m w i poison).s.svc = m.s.svc := by
  unfold VeEnv.pack
  refine ⟨?_, ?_, ?_, ?_, ?_, ?_, ?_, ?_, ?_, ?_, ?_, ?_, ?_, ?_⟩ <;> (repeat' first
    | with_reducible rfl | simp only [State.ite_frame, ite_self, VeEnv.packRow_frame] | (intro _ _)
    | with_reducible refine (foldl_proj _ _ ?_ _ _).trans ?_ | with_reducible refine (foldl_fst _ _ ?_ _ _).trans ?_
    | with_reducible refine (foldl_run _ _ ?_ _ _).trans ?_ | split)
@[simp] theorem VeEnv.chkst_frame (v : VeEnv) (m : VeRun) (w : Nat) (i : Nat) : (VeEnv.chkst v m w i).s.pending = m.s.pending ∧
    (VeEnv.chkst v m w i).s.draws = m.s.draws ∧ (VeEnv.chkst v m w i).s.aon = m.s.aon ∧ (VeEnv.chkst v m w i).s.time = m.s.time
    ∧ (VeEnv.chkst v m w i).s.persist = m.s.persist ∧ (VeEnv.chkst v m w i).s.flash = m.s.flash ∧ (VeEnv.chkst v m w
    i).s.streams = m.s.streams ∧ (VeEnv.chkst v m w i).s.ctxs = m.s.ctxs ∧ (VeEnv.chkst v m w i).s.mem = m.s.mem ∧ (VeEnv.chkst
    v m w i).s.recov = m.s.recov ∧ (VeEnv.chkst v m w i).s.clotha = m.s.clotha ∧ (VeEnv.chkst v m w i).s.net = m.s.net ∧
    (VeEnv.chkst v m w i).s.links = m.s.links ∧ (VeEnv.chkst v m w i).s.svc = m.s.svc := by
  unfold VeEnv.chkst
  refine ⟨?_, ?_, ?_, ?_, ?_, ?_, ?_, ?_, ?_, ?_, ?_, ?_, ?_, ?_⟩ <;> (repeat' first
    | with_reducible rfl | simp only [State.ite_frame, ite_self, State.bufWrite_frame] | (intro _ _)
    | with_reducible refine (foldl_proj _ _ ?_ _ _).trans ?_ | with_reducible refine (foldl_fst _ _ ?_ _ _).trans ?_
    | with_reducible refine (foldl_run _ _ ?_ _ _).trans ?_ | split)
@[simp] theorem VeEnv.mld_frame (v : VeEnv) (m : VeRun) (w : Nat) (i : Nat) : (VeEnv.mld v m w i).s.pending = m.s.pending ∧
    (VeEnv.mld v m w i).s.draws = m.s.draws ∧ (VeEnv.mld v m w i).s.aon = m.s.aon ∧ (VeEnv.mld v m w i).s.time = m.s.time ∧
    (VeEnv.mld v m w i).s.persist = m.s.persist ∧ (VeEnv.mld v m w i).s.flash = m.s.flash ∧ (VeEnv.mld v m w i).s.streams =
    m.s.streams ∧ (VeEnv.mld v m w i).s.cores = m.s.cores ∧ (VeEnv.mld v m w i).s.ctxs = m.s.ctxs ∧ (VeEnv.mld v m w i).s.mem =
    m.s.mem ∧ (VeEnv.mld v m w i).s.recov = m.s.recov ∧ (VeEnv.mld v m w i).s.clotha = m.s.clotha ∧ (VeEnv.mld v m w i).s.net =
    m.s.net ∧ (VeEnv.mld v m w i).s.links = m.s.links ∧ (VeEnv.mld v m w i).s.svc = m.s.svc := by
  unfold VeEnv.mld
  refine ⟨?_, ?_, ?_, ?_, ?_, ?_, ?_, ?_, ?_, ?_, ?_, ?_, ?_, ?_, ?_⟩ <;> (repeat' first
    | with_reducible rfl | simp only [State.ite_frame, ite_self] | (intro _ _)
    | with_reducible refine (foldl_proj _ _ ?_ _ _).trans ?_ | with_reducible refine (foldl_fst _ _ ?_ _ _).trans ?_
    | with_reducible refine (foldl_run _ _ ?_ _ _).trans ?_ | split)
@[simp] theorem VeEnv.flagst_frame (v : VeEnv) (m : VeRun) (w : Nat) (i : Nat) (poison : Bool) : (VeEnv.flagst v m w i
    poison).s.pending = m.s.pending ∧ (VeEnv.flagst v m w i poison).s.draws = m.s.draws ∧ (VeEnv.flagst v m w i poison).s.aon =
    m.s.aon ∧ (VeEnv.flagst v m w i poison).s.time = m.s.time ∧ (VeEnv.flagst v m w i poison).s.persist = m.s.persist ∧
    (VeEnv.flagst v m w i poison).s.flash = m.s.flash ∧ (VeEnv.flagst v m w i poison).s.streams = m.s.streams ∧ (VeEnv.flagst v
    m w i poison).s.ctxs = m.s.ctxs ∧ (VeEnv.flagst v m w i poison).s.mem = m.s.mem ∧ (VeEnv.flagst v m w i poison).s.recov =
    m.s.recov ∧ (VeEnv.flagst v m w i poison).s.clotha = m.s.clotha ∧ (VeEnv.flagst v m w i poison).s.net = m.s.net ∧
    (VeEnv.flagst v m w i poison).s.links = m.s.links ∧ (VeEnv.flagst v m w i poison).s.svc = m.s.svc := by
  unfold VeEnv.flagst
  refine ⟨?_, ?_, ?_, ?_, ?_, ?_, ?_, ?_, ?_, ?_, ?_, ?_, ?_, ?_⟩ <;> (repeat' first
    | with_reducible rfl | simp only [State.ite_frame, ite_self, State.bufWrite_frame] | (intro _ _)
    | with_reducible refine (foldl_proj _ _ ?_ _ _).trans ?_ | with_reducible refine (foldl_fst _ _ ?_ _ _).trans ?_
    | with_reducible refine (foldl_run _ _ ?_ _ _).trans ?_ | split)
@[simp] theorem VeEnv.exec_frame (v : VeEnv) (m : VeRun) (q : Nat × Nat) : (VeEnv.exec v m q).s.pending = m.s.pending ∧
    (VeEnv.exec v m q).s.draws = m.s.draws ∧ (VeEnv.exec v m q).s.aon = m.s.aon ∧ (VeEnv.exec v m q).s.time = m.s.time ∧
    (VeEnv.exec v m q).s.persist = m.s.persist ∧ (VeEnv.exec v m q).s.flash = m.s.flash ∧ (VeEnv.exec v m q).s.streams =
    m.s.streams ∧ (VeEnv.exec v m q).s.ctxs = m.s.ctxs ∧ (VeEnv.exec v m q).s.mem = m.s.mem ∧ (VeEnv.exec v m q).s.recov =
    m.s.recov ∧ (VeEnv.exec v m q).s.clotha = m.s.clotha ∧ (VeEnv.exec v m q).s.net = m.s.net ∧ (VeEnv.exec v m q).s.links =
    m.s.links ∧ (VeEnv.exec v m q).s.svc = m.s.svc := by
  unfold VeEnv.exec
  refine ⟨?_, ?_, ?_, ?_, ?_, ?_, ?_, ?_, ?_, ?_, ?_, ?_, ?_, ?_⟩ <;> (repeat' first
    | with_reducible rfl
    | simp only [State.ite_frame, ite_self, apply_ite VeRun.s, VeEnv.load_frame, VeEnv.store_frame, VeEnv.pack_frame,
      VeEnv.chkst_frame, VeEnv.mld_frame, VeEnv.flagst_frame, VeEnv.reduce_frame, VeEnv.softmax_frame] | (intro _ _)
    | with_reducible refine (foldl_proj _ _ ?_ _ _).trans ?_ | with_reducible refine (foldl_fst _ _ ?_ _ _).trans ?_
    | with_reducible refine (foldl_run _ _ ?_ _ _).trans ?_ | split)
@[simp] theorem State.veProgress_frame (s : State) (core : Nat) (e : Nat) (n : Nat) : (State.veProgress s core e n).pending =
    s.pending ∧ (State.veProgress s core e n).draws = s.draws ∧ (State.veProgress s core e n).aon = s.aon ∧ (State.veProgress s
    core e n).time = s.time ∧ (State.veProgress s core e n).persist = s.persist ∧ (State.veProgress s core e n).flash = s.flash
    ∧ (State.veProgress s core e n).streams = s.streams ∧ (State.veProgress s core e n).ctxs = s.ctxs ∧ (State.veProgress s
    core e n).mem = s.mem ∧ (State.veProgress s core e n).recov = s.recov ∧ (State.veProgress s core e n).clotha = s.clotha ∧
    (State.veProgress s core e n).net = s.net ∧ (State.veProgress s core e n).links = s.links ∧ (State.veProgress s core e
    n).svc = s.svc := by
  unfold State.veProgress
  refine ⟨?_, ?_, ?_, ?_, ?_, ?_, ?_, ?_, ?_, ?_, ?_, ?_, ?_, ?_⟩ <;> (repeat' first
    | with_reducible rfl | simp only [State.ite_frame, ite_self, State.progress_frame] | (intro _ _)
    | with_reducible refine (foldl_proj _ _ ?_ _ _).trans ?_ | with_reducible refine (foldl_fst _ _ ?_ _ _).trans ?_
    | with_reducible refine (foldl_run _ _ ?_ _ _).trans ?_ | split)
@[simp] theorem VeRun.release_frame (m : VeRun) (core : Nat) (e : Nat) : (VeRun.release m core e).s.pending = m.s.pending ∧
    (VeRun.release m core e).s.draws = m.s.draws ∧ (VeRun.release m core e).s.aon = m.s.aon ∧ (VeRun.release m core e).s.time =
    m.s.time ∧ (VeRun.release m core e).s.persist = m.s.persist ∧ (VeRun.release m core e).s.flash = m.s.flash ∧ (VeRun.release
    m core e).s.streams = m.s.streams ∧ (VeRun.release m core e).s.ctxs = m.s.ctxs ∧ (VeRun.release m core e).s.mem = m.s.mem ∧
    (VeRun.release m core e).s.recov = m.s.recov ∧ (VeRun.release m core e).s.clotha = m.s.clotha ∧ (VeRun.release m core
    e).s.net = m.s.net ∧ (VeRun.release m core e).s.links = m.s.links ∧ (VeRun.release m core e).s.svc = m.s.svc := by
  unfold VeRun.release
  refine ⟨?_, ?_, ?_, ?_, ?_, ?_, ?_, ?_, ?_, ?_, ?_, ?_, ?_, ?_⟩ <;> (repeat' first
    | with_reducible rfl | simp only [State.ite_frame, ite_self, State.modEngine_frame] | (intro _ _)
    | with_reducible refine (foldl_proj _ _ ?_ _ _).trans ?_ | with_reducible refine (foldl_fst _ _ ?_ _ _).trans ?_
    | with_reducible refine (foldl_run _ _ ?_ _ _).trans ?_ | split)
@[simp] theorem VeEnv.issue_frame (v : VeEnv) (core : Nat) (e : Nat) (errs : BoreErrs) (m : VeRun) (q : Nat × Nat) (slots :
    List (Nat × Nat × Bool)) : (VeEnv.issue v core e errs m q slots).s.pending = m.s.pending ∧ (VeEnv.issue v core e errs m q
    slots).s.draws = m.s.draws ∧ (VeEnv.issue v core e errs m q slots).s.aon = m.s.aon ∧ (VeEnv.issue v core e errs m q
    slots).s.time = m.s.time ∧ (VeEnv.issue v core e errs m q slots).s.persist = m.s.persist ∧ (VeEnv.issue v core e errs m q
    slots).s.flash = m.s.flash ∧ (VeEnv.issue v core e errs m q slots).s.streams = m.s.streams ∧ (VeEnv.issue v core e errs m q
    slots).s.ctxs = m.s.ctxs ∧ (VeEnv.issue v core e errs m q slots).s.mem = m.s.mem ∧ (VeEnv.issue v core e errs m q
    slots).s.recov = m.s.recov ∧ (VeEnv.issue v core e errs m q slots).s.clotha = m.s.clotha ∧ (VeEnv.issue v core e errs m q
    slots).s.net = m.s.net ∧ (VeEnv.issue v core e errs m q slots).s.links = m.s.links ∧ (VeEnv.issue v core e errs m q
    slots).s.svc = m.s.svc := by
  unfold VeEnv.issue
  refine ⟨?_, ?_, ?_, ?_, ?_, ?_, ?_, ?_, ?_, ?_, ?_, ?_, ?_, ?_⟩ <;> (repeat' first
    | with_reducible rfl
    | simp only [State.ite_frame, ite_self, VeRun.release_frame, State.boreFinds_frame, State.modCmdOf_frame,
      VeEnv.exec_frame, State.veProgress_frame] | (intro _ _) | with_reducible refine (foldl_proj _ _ ?_ _ _).trans ?_
    | with_reducible refine (foldl_fst _ _ ?_ _ _).trans ?_ | with_reducible refine (foldl_run _ _ ?_ _ _).trans ?_ | split)
@[simp] theorem tick_frame (s : State) : (tick s).pending = s.pending ∧ (tick s).persist = s.persist ∧ (tick s).flash = s.flash
    ∧ (tick s).streams = s.streams ∧ (tick s).cores = s.cores ∧ (tick s).ctxs = s.ctxs ∧ (tick s).mem = s.mem ∧ (tick s).recov
    = s.recov ∧ (tick s).clotha = s.clotha ∧ (tick s).net = s.net ∧ (tick s).links = s.links ∧ (tick s).svc = s.svc := by
  unfold tick
  refine ⟨?_, ?_, ?_, ?_, ?_, ?_, ?_, ?_, ?_, ?_, ?_, ?_⟩ <;> (repeat' first
    | with_reducible rfl | simp only [State.ite_frame, ite_self] | (intro _ _)
    | with_reducible refine (foldl_proj _ _ ?_ _ _).trans ?_ | with_reducible refine (foldl_fst _ _ ?_ _ _).trans ?_
    | with_reducible refine (foldl_run _ _ ?_ _ _).trans ?_ | split)
@[simp] theorem State.withFetchWord_frame (s : State) (nbits : Nat) (w : Nat) : (State.withFetchWord s nbits w).draws = s.draws
    ∧ (State.withFetchWord s nbits w).aon = s.aon ∧ (State.withFetchWord s nbits w).time = s.time ∧ (State.withFetchWord s
    nbits w).persist = s.persist ∧ (State.withFetchWord s nbits w).flash = s.flash ∧ (State.withFetchWord s nbits w).streams =
    s.streams ∧ (State.withFetchWord s nbits w).cores = s.cores ∧ (State.withFetchWord s nbits w).ctxs = s.ctxs ∧
    (State.withFetchWord s nbits w).mem = s.mem ∧ (State.withFetchWord s nbits w).recov = s.recov ∧ (State.withFetchWord s
    nbits w).clotha = s.clotha ∧ (State.withFetchWord s nbits w).net = s.net ∧ (State.withFetchWord s nbits w).links = s.links
    ∧ (State.withFetchWord s nbits w).svc = s.svc := by
  unfold State.withFetchWord
  refine ⟨?_, ?_, ?_, ?_, ?_, ?_, ?_, ?_, ?_, ?_, ?_, ?_, ?_, ?_⟩ <;> (repeat' first
    | with_reducible rfl | simp only [State.ite_frame, ite_self] | (intro _ _)
    | with_reducible refine (foldl_proj _ _ ?_ _ _).trans ?_ | with_reducible refine (foldl_fst _ _ ?_ _ _).trans ?_
    | with_reducible refine (foldl_run _ _ ?_ _ _).trans ?_ | split)
@[simp] theorem VeEnv.runSteps_frame (v : VeEnv) (core e : Nat) (errs : BoreErrs) (l : List (Nat × Nat)) (m : VeRun) :
    (v.runSteps core e errs l m).1.s.pending = m.s.pending ∧ (v.runSteps core e errs l m).1.s.draws = m.s.draws ∧ (v.runSteps
    core e errs l m).1.s.aon = m.s.aon ∧ (v.runSteps core e errs l m).1.s.time = m.s.time ∧ (v.runSteps core e errs l
    m).1.s.persist = m.s.persist ∧ (v.runSteps core e errs l m).1.s.flash = m.s.flash ∧ (v.runSteps core e errs l
    m).1.s.streams = m.s.streams ∧ (v.runSteps core e errs l m).1.s.ctxs = m.s.ctxs ∧ (v.runSteps core e errs l m).1.s.mem =
    m.s.mem ∧ (v.runSteps core e errs l m).1.s.recov = m.s.recov ∧ (v.runSteps core e errs l m).1.s.clotha = m.s.clotha ∧
    (v.runSteps core e errs l m).1.s.net = m.s.net ∧ (v.runSteps core e errs l m).1.s.links = m.s.links ∧ (v.runSteps core e
    errs l m).1.s.svc = m.s.svc := by
  induction l generalizing m with
  | nil => simp [VeEnv.runSteps]
  | cons q l ih => unfold VeEnv.runSteps; dsimp only; split <;> simp [ih]
@[simp] theorem State.endBody_frame (s : State) (core e : Nat) (v : VeEnv) (m : VeRun) (float : Bool) : (State.endBody s core e
    v m float).pending = m.s.pending ∧ (State.endBody s core e v m float).draws = m.s.draws ∧ (State.endBody s core e v m
    float).aon = m.s.aon ∧ (State.endBody s core e v m float).time = m.s.time ∧ (State.endBody s core e v m float).persist =
    m.s.persist ∧ (State.endBody s core e v m float).flash = m.s.flash ∧ (State.endBody s core e v m float).streams =
    m.s.streams ∧ (State.endBody s core e v m float).ctxs = m.s.ctxs ∧ (State.endBody s core e v m float).mem = m.s.mem ∧
    (State.endBody s core e v m float).recov = m.s.recov ∧ (State.endBody s core e v m float).clotha = m.s.clotha ∧
    (State.endBody s core e v m float).net = m.s.net ∧ (State.endBody s core e v m float).links = m.s.links ∧ (State.endBody s
    core e v m float).svc = m.s.svc := by
  unfold State.endBody
  dsimp only
  refine ⟨?_, ?_, ?_, ?_, ?_, ?_, ?_, ?_, ?_, ?_, ?_, ?_, ?_, ?_⟩ <;> (repeat' first
    | with_reducible rfl
    | simp only [State.ite_frame, ite_self, VeRun.release_frame, State.writeStats_frame, State.modEngine_frame,
      State.modCmdOf_frame, State.itemDone_frame] | split)
@[simp] theorem State.runBody_frame (s : State) (core e : Nat) (c : Cmd) (b : VeBody) (first : Bool) (errs : BoreErrs) :
    (State.runBody s core e c b first errs).pending = s.pending ∧ (State.runBody s core e c b first errs).aon = s.aon ∧
    (State.runBody s core e c b first errs).time = s.time ∧ (State.runBody s core e c b first errs).persist = s.persist ∧
    (State.runBody s core e c b first errs).flash = s.flash ∧ (State.runBody s core e c b first errs).streams = s.streams ∧
    (State.runBody s core e c b first errs).ctxs = s.ctxs ∧ (State.runBody s core e c b first errs).mem = s.mem ∧
    (State.runBody s core e c b first errs).recov = s.recov ∧ (State.runBody s core e c b first errs).clotha = s.clotha ∧
    (State.runBody s core e c b first errs).net = s.net ∧ (State.runBody s core e c b first errs).links = s.links ∧
    (State.runBody s core e c b first errs).svc = s.svc := by
  unfold State.runBody
  dsimp only
  refine ⟨?_, ?_, ?_, ?_, ?_, ?_, ?_, ?_, ?_, ?_, ?_, ?_, ?_⟩ <;> (repeat' first
    | with_reducible rfl
    | simp only [State.endBody_frame, State.modEngine_frame, VeEnv.runSteps_frame, State.ite_frame, ite_self] | split)

end Sys2Proof.Machine
end

