-- ==== Sys2Proof/Laws/Hbm.lean ====
section
/-! SUPPORT. HBM stays in its canonical form: one lemma for each operation that may write it. -/

set_option linter.unusedSimpArgs false
set_option linter.unusedTactic false
set_option linter.unreachableTactic false

namespace Sys2Proof.Machine

/-! ### Folds and the plain write -/

theorem foldl_hbm {β : Type} (f : State → β → State) (l : List β) (s : State)
    (h : ∀ t x, Memory.wf t.mem.hbm = true → Memory.wf (f t x).mem.hbm = true) (hs : Memory.wf s.mem.hbm = true) :
    Memory.wf (l.foldl f s).mem.hbm = true := by
  induction l generalizing s with
  | nil => exact hs
  | cons a l ih => exact ih _ (h s a hs)
theorem foldl_mem_hbm {β : Type} (f : MemSys → β → MemSys) (l : List β) (m : MemSys)
    (h : ∀ m x, Memory.wf m.hbm = true → Memory.wf (f m x).hbm = true) (hm : Memory.wf m.hbm = true) :
    Memory.wf (l.foldl f m).hbm = true := by
  induction l generalizing m with
  | nil => exact hm
  | cons a l ih => exact ih _ (h m a hm)
theorem foldl_dropExtent_hbm (l : List (Nat × Nat)) (m : MemSys) (h : Memory.wf m.hbm = true) :
    Memory.wf (l.foldl (fun (m : MemSys) q => m.dropExtent q.1 q.2) m).hbm = true :=
  foldl_mem_hbm _ _ _ (fun m _ h => m.dropExtent_wf _ _ h) h
theorem State.hbmWrite_hbm (s : State) (a : Nat) (bs : List Byte) (p : Bool) (h : Memory.wf s.mem.hbm = true) :
    Memory.wf (s.hbmWrite a bs p).mem.hbm = true := s.hbmWrite_wf a bs p h

/-! ### Operations -/

theorem State.writeRecord_hbm (s : State) (ctxId : Nat) (r : Completion) (hs : Memory.wf s.mem.hbm = true) : Memory.wf
    (State.writeRecord s ctxId r).mem.hbm = true := by
  unfold State.writeRecord
  repeat' first
    | with_reducible assumption | with_reducible apply State.hbmWrite_hbm
    | simp only [State.ite_frame, ite_self, State.modCtx_frame, State.hbmWrite_frame] | (intro _ _ _)
    | with_reducible refine foldl_hbm _ _ _ ?_ ?_ | with_reducible apply foldl_dropExtent_hbm | with_reducible rfl
    | exact wf_empty | split
theorem State.updateSlot_hbm (s : State) (addr : Nat) (scale : Word16) (constant : Bool) (a : Frac) (hs : Memory.wf s.mem.hbm =
    true) : Memory.wf (State.updateSlot s addr scale constant a).mem.hbm = true := by
  unfold State.updateSlot
  repeat' first
    | with_reducible assumption | with_reducible apply State.hbmWrite_hbm
    | simp only [State.ite_frame, ite_self, State.hbmWrite_frame] | (intro _ _ _)
    | with_reducible refine foldl_hbm _ _ _ ?_ ?_ | with_reducible apply foldl_dropExtent_hbm | with_reducible rfl
    | exact wf_empty | split
theorem State.kvCount_hbm (s : State) (part : Nat) (i : Nat) (hs : Memory.wf s.mem.hbm = true) : Memory.wf (State.kvCount s
    part i).mem.hbm = true := by
  unfold State.kvCount
  repeat' first
    | with_reducible assumption | simp only [State.ite_frame, ite_self] | (intro _ _ _)
    | with_reducible refine foldl_hbm _ _ _ ?_ ?_ | with_reducible apply foldl_dropExtent_hbm | with_reducible rfl
    | exact wf_empty | split
theorem State.roundLeaves_hbm (s : State) (core : Nat) (r : Round) (hs : Memory.wf s.mem.hbm = true) : Memory.wf
    (State.roundLeaves s core r).mem.hbm = true := by
  unfold State.roundLeaves
  repeat' first
    | with_reducible assumption | with_reducible apply State.updateSlot_hbm
    | simp only [State.ite_frame, ite_self, State.modCore_frame, State.addEvents_frame, State.modCtx_frame,
      State.jobStepDone_frame, State.updateSlot_frame, State.prepPoison_frame, State.publishTensors_frame,
      State.modChunk_frame] | (intro _ _ _) | with_reducible refine foldl_hbm _ _ _ ?_ ?_
    | with_reducible apply foldl_dropExtent_hbm | with_reducible rfl | exact wf_empty | split
theorem State.leaveFlight_hbm (s : State) (core : Nat) (hs : Memory.wf s.mem.hbm = true) : Memory.wf (State.leaveFlight s
    core).mem.hbm = true := by
  unfold State.leaveFlight
  repeat' first
    | with_reducible assumption | with_reducible apply State.roundLeaves_hbm
    | simp only [State.ite_frame, ite_self, State.roundLeaves_frame] | (intro _ _ _)
    | with_reducible refine foldl_hbm _ _ _ ?_ ?_ | with_reducible apply foldl_dropExtent_hbm | with_reducible rfl
    | exact wf_empty | split
theorem State.rejectWith_hbm (s : State) (ctxId : Nat) (r : Completion) (n : Nat) (prog : Option Nat) (hs : Memory.wf s.mem.hbm
    = true) : Memory.wf (State.rejectWith s ctxId r n prog).mem.hbm = true := by
  unfold State.rejectWith
  repeat' first
    | with_reducible assumption | with_reducible apply State.writeRecord_hbm
    | simp only [State.ite_frame, ite_self, State.writeRecord_frame, State.dropWaits_frame, State.modCtx_frame,
      State.modJob_frame, State.logEvent_frame] | (intro _ _ _) | with_reducible refine foldl_hbm _ _ _ ?_ ?_
    | with_reducible apply foldl_dropExtent_hbm | with_reducible rfl | exact wf_empty | split
theorem State.reject_hbm (s : State) (ctxId : Nat) (seq : Nat) (n : Nat) (code : Word16) (prog : Option Nat) (hs : Memory.wf
    s.mem.hbm = true) : Memory.wf (State.reject s ctxId seq n code prog).mem.hbm = true := by
  unfold State.reject
  repeat' first
    | with_reducible assumption | with_reducible apply State.rejectWith_hbm
    | simp only [State.ite_frame, ite_self, State.rejectWith_frame] | (intro _ _ _)
    | with_reducible refine foldl_hbm _ _ _ ?_ ?_ | with_reducible apply foldl_dropExtent_hbm | with_reducible rfl
    | exact wf_empty | split
theorem State.rejectRunning_hbm (s : State) (core : Nat) (c : Cmd) (code : Word16) (hs : Memory.wf s.mem.hbm = true) :
    Memory.wf (State.rejectRunning s core c code).mem.hbm = true := by
  unfold State.rejectRunning
  repeat' first
    | with_reducible assumption | with_reducible apply State.rejectWith_hbm
    | simp only [State.ite_frame, ite_self, State.purgeItems_frame, State.modCore_frame, State.charge_frame,
      State.rejectWith_frame] | (intro _ _ _) | with_reducible refine foldl_hbm _ _ _ ?_ ?_
    | with_reducible apply foldl_dropExtent_hbm | with_reducible rfl | exact wf_empty | split
theorem powerOff_hbm (s : State) (hs : Memory.wf s.mem.hbm = true) : Memory.wf (powerOff s).mem.hbm = true := by
  unfold powerOff
  repeat' first
    | with_reducible assumption | simp only [State.ite_frame, ite_self] | (intro _ _ _)
    | with_reducible refine foldl_hbm _ _ _ ?_ ?_ | with_reducible apply foldl_dropExtent_hbm | with_reducible rfl
    | exact wf_empty | split
theorem moduleReset_hbm (s : State) (cause : Nat) (hs : Memory.wf s.mem.hbm = true) : Memory.wf (moduleReset s cause).mem.hbm =
    true := by
  unfold moduleReset
  repeat' first
    | with_reducible assumption | with_reducible apply powerOff_hbm
    | simp only [State.ite_frame, ite_self, powerOff_frame, State.logEvent_frame] | (intro _ _ _)
    | with_reducible refine foldl_hbm _ _ _ ?_ ?_ | with_reducible apply foldl_dropExtent_hbm | with_reducible rfl
    | exact wf_empty | split
theorem shutdown_hbm (s : State) (causes : List (Nat × Nat × Int)) (hs : Memory.wf s.mem.hbm = true) : Memory.wf (shutdown s
    causes).mem.hbm = true := by
  unfold shutdown
  repeat' first
    | with_reducible assumption | with_reducible apply powerOff_hbm
    | simp only [State.ite_frame, ite_self, powerOff_frame, State.alertSet_frame] | (intro _ _ _)
    | with_reducible refine foldl_hbm _ _ _ ?_ ?_ | with_reducible apply foldl_dropExtent_hbm | with_reducible rfl
    | exact wf_empty | split
theorem trip_hbm (s : State) (causes : List (Nat × Nat × Int)) (hs : Memory.wf s.mem.hbm = true) : Memory.wf (trip s
    causes).mem.hbm = true := by
  unfold trip
  repeat' first
    | with_reducible assumption | with_reducible apply shutdown_hbm | simp only [State.ite_frame, ite_self, shutdown_frame]
    | (intro _ _ _) | with_reducible refine foldl_hbm _ _ _ ?_ ?_ | with_reducible apply foldl_dropExtent_hbm
    | with_reducible rfl | exact wf_empty | split
theorem startSequence_hbm (s : State) (hs : Memory.wf s.mem.hbm = true) : Memory.wf (startSequence s).mem.hbm = true := by
  unfold startSequence
  repeat' first
    | with_reducible assumption | with_reducible apply shutdown_hbm | simp only [State.ite_frame, ite_self, shutdown_frame]
    | (intro _ _ _) | with_reducible refine foldl_hbm _ _ _ ?_ ?_ | with_reducible apply foldl_dropExtent_hbm
    | with_reducible rfl | exact wf_empty | split
theorem tryStart_hbm (s : State) (hs : Memory.wf s.mem.hbm = true) : Memory.wf (tryStart s).mem.hbm = true := by
  unfold tryStart
  repeat' first
    | with_reducible assumption | with_reducible apply startSequence_hbm
    | simp only [State.ite_frame, ite_self, startSequence_frame] | (intro _ _ _)
    | with_reducible refine foldl_hbm _ _ _ ?_ ?_ | with_reducible apply foldl_dropExtent_hbm | with_reducible rfl
    | exact wf_empty | split
theorem State.after_hbm (s0 : State) (s : State) (core : Nat) (hs : Memory.wf s.mem.hbm = true) : Memory.wf (State.after s0 s
    core).mem.hbm = true := by
  unfold State.after
  repeat' first
    | with_reducible assumption | with_reducible apply State.leaveFlight_hbm
    | simp only [State.ite_frame, ite_self, State.orderYield_frame, State.leaveFlight_frame, State.settle_frame]
    | (intro _ _ _) | with_reducible refine foldl_hbm _ _ _ ?_ ?_ | with_reducible apply foldl_dropExtent_hbm
    | with_reducible rfl | exact wf_empty | split
theorem State.foldMaxAbs_hbm (s : State) (ct : Ctx) (c : Cmd) (hs : Memory.wf s.mem.hbm = true) : Memory.wf (State.foldMaxAbs s
    ct c).mem.hbm = true := by
  unfold State.foldMaxAbs
  repeat' first
    | with_reducible assumption | with_reducible apply State.updateSlot_hbm
    | simp only [State.ite_frame, ite_self, State.modCore_frame, State.updateSlot_frame] | (intro _ _ _)
    | with_reducible refine foldl_hbm _ _ _ ?_ ?_ | with_reducible apply foldl_dropExtent_hbm | with_reducible rfl
    | exact wf_empty | split
theorem State.appendFlush_hbm (s : State) (id : Nat) (ct : Ctx) (d : BitVec 512) (hs : Memory.wf s.mem.hbm = true) : Memory.wf
    (State.appendFlush s id ct d).mem.hbm = true := by
  unfold State.appendFlush
  repeat' first
    | with_reducible assumption | with_reducible apply State.hbmWrite_hbm
    | simp only [State.ite_frame, ite_self, State.modCtx_frame, State.hbmWrite_frame] | (intro _ _ _)
    | with_reducible refine foldl_hbm _ _ _ ?_ ?_ | with_reducible apply foldl_dropExtent_hbm | with_reducible rfl
    | exact wf_empty | split
theorem State.issueFlushes_hbm (s : State) (core : Nat) (l : List (Nat × BitVec 512)) (hs : Memory.wf s.mem.hbm = true) :
    Memory.wf (s.issueFlushes core l).mem.hbm = true := by
  induction l generalizing s with
  | nil => exact hs
  | cons q l ih =>
    unfold State.issueFlushes
    repeat' first
    | exact hs | exact ih _ hs | exact ih _ (State.appendFlush_hbm _ _ _ _ hs) | split
theorem State.swapOutFlush_hbm (s : State) (core out : Nat) (hs : Memory.wf s.mem.hbm = true) :
    Memory.wf (s.swapOutFlush core out).mem.hbm = true := by
  unfold State.swapOutFlush
  repeat' first
  | exact hs | exact State.issueFlushes_hbm _ _ _ hs | split
theorem State.countFlush_hbm (s : State) (part : Nat) (c : Cmd) (hs : Memory.wf s.mem.hbm = true) : Memory.wf (State.countFlush
    s part c).mem.hbm = true := by
  unfold State.countFlush
  repeat' first
    | with_reducible assumption | with_reducible apply State.kvCount_hbm
    | simp only [State.ite_frame, ite_self, State.kvCount_frame] | (intro _ _ _)
    | with_reducible refine foldl_hbm _ _ _ ?_ ?_ | with_reducible apply foldl_dropExtent_hbm | with_reducible rfl
    | exact wf_empty | split
theorem State.complete_hbm (s : State) (core : Nat) (ct : Ctx) (c : Cmd) (hs : Memory.wf s.mem.hbm = true) : Memory.wf
    (State.complete s core ct c).mem.hbm = true := by
  unfold State.complete
  repeat' first
    | with_reducible assumption | with_reducible apply State.foldMaxAbs_hbm | with_reducible apply State.countFlush_hbm
    | with_reducible apply State.writeRecord_hbm
    | simp only [State.ite_frame, ite_self, State.fillSlot_frame, State.drainSlot_frame, State.foldMaxAbs_frame,
      State.countFlush_frame, State.countNumeric_frame, State.modCore_frame, State.modCtx_frame, State.charge_frame,
      State.writeRecord_frame, State.modJob_frame, State.markFenced_frame, State.progress_frame, State.semsetSignal_frame]
    | (intro _ _ _) | with_reducible refine foldl_hbm _ _ _ ?_ ?_ | with_reducible apply foldl_dropExtent_hbm
    | with_reducible rfl | exact wf_empty | split
theorem State.makeRound_hbm (s : State) (core : Nat) (h : ReadyStep) (ctxId : Nat) (ct : Ctx) (hs : Memory.wf s.mem.hbm = true)
    : Memory.wf (State.makeRound s core h ctxId ct).mem.hbm = true := by
  unfold State.makeRound
  repeat' first
    | with_reducible assumption | with_reducible apply State.hbmWrite_hbm
    | simp only [State.ite_frame, ite_self, State.modCore_frame, State.modChunk_frame, State.modStream_frame,
      State.modCtx_frame, State.hbmWrite_frame] | (intro _ _ _) | with_reducible refine foldl_hbm _ _ _ ?_ ?_
    | with_reducible apply foldl_dropExtent_hbm | with_reducible rfl | exact wf_empty | split
theorem State.yieldRound_hbm (s : State) (core : Nat) (r : Round) (ct : Ctx) (hs : Memory.wf s.mem.hbm = true) : Memory.wf
    (State.yieldRound s core r ct).mem.hbm = true := by
  unfold State.yieldRound
  repeat' first
    | with_reducible assumption | with_reducible apply State.writeRecord_hbm
    | simp only [State.ite_frame, ite_self, State.writeRecord_frame, State.modCore_frame, State.discardQueue_frame,
      State.dropWaits_frame, State.modCtx_frame, State.dropCredits_frame, State.stopChannels_frame,
      State.returnSteps_frame] | (intro _ _ _) | with_reducible refine foldl_hbm _ _ _ ?_ ?_
    | with_reducible apply foldl_dropExtent_hbm | with_reducible rfl | exact wf_empty | split
theorem State.hbmCount_hbm (s : State) (stack : Nat) (i : Nat) (n : Nat) (hs : Memory.wf s.mem.hbm = true) : Memory.wf
    (State.hbmCount s stack i n).mem.hbm = true := by
  unfold State.hbmCount
  repeat' first
    | with_reducible assumption | simp only [State.ite_frame, ite_self] | (intro _ _ _)
    | with_reducible refine foldl_hbm _ _ _ ?_ ?_ | with_reducible apply foldl_dropExtent_hbm | with_reducible rfl
    | exact wf_empty | split
theorem State.poisonLines_hbm (s : State) (l : List Nat) (hs : Memory.wf s.mem.hbm = true) : Memory.wf (State.poisonLines s
    l).mem.hbm = true := by
  unfold State.poisonLines
  repeat' first
    | with_reducible assumption | simp only [State.ite_frame, ite_self] | (intro _ _ _)
    | with_reducible refine foldl_hbm _ _ _ ?_ ?_ | with_reducible apply foldl_dropExtent_hbm | with_reducible rfl
    | exact wf_empty | split
theorem State.hbmChecked_hbm (s : State) (a : Nat) (ecc : EccResult) (hs : Memory.wf s.mem.hbm = true) : Memory.wf
    (State.hbmChecked s a ecc).mem.hbm = true := by
  unfold State.hbmChecked
  repeat' first
    | with_reducible assumption | with_reducible apply State.hbmCount_hbm | with_reducible apply State.poisonLines_hbm
    | simp only [State.ite_frame, ite_self, State.hbmCount_frame, State.poisonLines_frame] | (intro _ _ _)
    | with_reducible refine foldl_hbm _ _ _ ?_ ?_ | with_reducible apply foldl_dropExtent_hbm | with_reducible rfl
    | exact wf_empty | split
theorem State.hbmStore_hbm (s : State) (a : Nat) (bs : List Byte) (poison : Bool) (hs : Memory.wf s.mem.hbm = true) : Memory.wf
    (State.hbmStore s a bs poison).mem.hbm = true := by
  unfold State.hbmStore
  repeat' first
    | with_reducible assumption | with_reducible apply State.hbmWrite_hbm | with_reducible apply State.hbmCount_hbm
    | simp only [State.ite_frame, ite_self, State.hbmWrite_frame, State.hbmCount_frame] | (intro _ _ _)
    | with_reducible refine foldl_hbm _ _ _ ?_ ?_ | with_reducible apply foldl_dropExtent_hbm | with_reducible rfl
    | exact wf_empty | split
theorem State.hbmWriteAs_hbm (s : State) (owner : Nat) (a : Nat) (bs : List Byte) (poison : Bool) (hs : Memory.wf s.mem.hbm =
    true) : Memory.wf (State.hbmWriteAs s owner a bs poison).mem.hbm = true := by
  unfold State.hbmWriteAs
  repeat' first
    | with_reducible assumption | with_reducible apply State.hbmStore_hbm
    | simp only [State.ite_frame, ite_self, State.rangeEvent_frame, State.hbmStore_frame] | (intro _ _ _)
    | with_reducible refine foldl_hbm _ _ _ ?_ ?_ | with_reducible apply foldl_dropExtent_hbm | with_reducible rfl
    | exact wf_empty | split
theorem State.wcRead_hbm (s : State) (line : Nat) (hs : Memory.wf s.mem.hbm = true) : Memory.wf (State.wcRead s line).mem.hbm =
    true := by
  unfold State.wcRead
  repeat' first
    | with_reducible assumption | simp only [State.ite_frame, ite_self] | (intro _ _ _)
    | with_reducible refine foldl_hbm _ _ _ ?_ ?_ | with_reducible apply foldl_dropExtent_hbm | with_reducible rfl
    | exact wf_empty | split
theorem State.wcReads_hbm (s : State) (a : Nat) (n : Nat) (hs : Memory.wf s.mem.hbm = true) : Memory.wf (State.wcReads s a
    n).mem.hbm = true := by
  unfold State.wcReads
  repeat' first
    | with_reducible assumption | with_reducible apply State.wcRead_hbm
    | simp only [State.ite_frame, ite_self, State.wcRead_frame] | (intro _ _ _)
    | with_reducible refine foldl_hbm _ _ _ ?_ ?_ | with_reducible apply foldl_dropExtent_hbm | with_reducible rfl
    | exact wf_empty | split
theorem State.walk_hbm (s : State) (core : Nat) (c : Cmd) (hs : Memory.wf s.mem.hbm = true) : Memory.wf (State.walk s core
    c).mem.hbm = true := by
  unfold State.walk
  repeat' first
    | with_reducible assumption | with_reducible apply State.wcReads_hbm | with_reducible apply State.kvCount_hbm
    | simp only [State.ite_frame, ite_self, State.wcReads_frame, State.progressBy_frame, State.gatherMember_frame,
      State.gatherCheck_frame, State.scoreBlock_frame, State.logEvent_frame, State.kvCount_frame, State.modCmd_frame]
    | (intro _ _ _) | with_reducible refine foldl_hbm _ _ _ ?_ ?_ | with_reducible apply foldl_dropExtent_hbm
    | with_reducible rfl | exact wf_empty | split
theorem State.walkStage_hbm (s : State) (ctx : Nat) (op : Nat) (hs : Memory.wf s.mem.hbm = true) : Memory.wf (State.walkStage s
    ctx op).mem.hbm = true := by
  unfold State.walkStage
  repeat' first
    | with_reducible assumption | with_reducible apply State.walk_hbm | with_reducible apply State.after_hbm
    | simp only [State.ite_frame, ite_self, State.takeTag_frame, State.walk_frame, State.after_frame,
      State.issueStage_frame] | (intro _ _ _) | with_reducible refine foldl_hbm _ _ _ ?_ ?_
    | with_reducible apply foldl_dropExtent_hbm | with_reducible rfl | exact wf_empty | split
theorem State.endWait_hbm (s : State) (l : Nat) (w : LinkWait) (data : Option (List Byte)) (code : Word16) (hs : Memory.wf
    s.mem.hbm = true) : Memory.wf (State.endWait s l w data code).mem.hbm = true := by
  unfold State.endWait
  repeat' first
    | with_reducible assumption | with_reducible apply State.hbmWriteAs_hbm
    | simp only [State.ite_frame, ite_self, State.modLink_frame, State.hbmWriteAs_frame, State.modLinkReq_frame]
    | (intro _ _ _) | with_reducible refine foldl_hbm _ _ _ ?_ ?_ | with_reducible apply foldl_dropExtent_hbm
    | with_reducible rfl | exact wf_empty | split
theorem State.pairRead_hbm (s : State) (l : Nat) (part : Nat) (ctx : Nat) (off : Nat) (dest : Nat) (n : Nat) (hs : Memory.wf
    s.mem.hbm = true) : Memory.wf (State.pairRead s l part ctx off dest n).mem.hbm = true := by
  unfold State.pairRead
  repeat' first
    | with_reducible assumption | simp only [State.ite_frame, ite_self, State.modLink_frame, State.linkSend_frame]
    | (intro _ _ _) | with_reducible refine foldl_hbm _ _ _ ?_ ?_ | with_reducible apply foldl_dropExtent_hbm
    | with_reducible rfl | exact wf_empty | split
theorem State.pairArrived_hbm (s : State) (core : Nat) (c : Cmd) (w : Walk) (q : PairRef) (l : Nat) (hs : Memory.wf s.mem.hbm =
    true) : Memory.wf (State.pairArrived s core c w q l).mem.hbm = true := by
  unfold State.pairArrived
  repeat' first
    | with_reducible assumption | with_reducible apply State.pairRead_hbm
    | simp only [State.ite_frame, ite_self, State.pairDone_frame, State.modWalk_frame, State.pairRead_frame]
    | (intro _ _ _) | with_reducible refine foldl_hbm _ _ _ ?_ ?_ | with_reducible apply foldl_dropExtent_hbm
    | with_reducible rfl | exact wf_empty | split
theorem State.pairLost_hbm (s : State) (ctx : Nat) (hs : Memory.wf s.mem.hbm = true) : Memory.wf (State.pairLost s ctx).mem.hbm
    = true := by
  unfold State.pairLost
  repeat' first
    | with_reducible assumption | with_reducible apply State.after_hbm
    | simp only [State.ite_frame, ite_self, State.after_frame, State.pairDone_frame] | (intro _ _ _)
    | with_reducible refine foldl_hbm _ _ _ ?_ ?_ | with_reducible apply foldl_dropExtent_hbm | with_reducible rfl
    | exact wf_empty | split
theorem State.linkGoDown_hbm (s : State) (l : Nat) (code : Word16) (hs : Memory.wf s.mem.hbm = true) : Memory.wf
    (State.linkGoDown s l code).mem.hbm = true := by
  unfold State.linkGoDown
  repeat' first
    | with_reducible assumption | with_reducible apply State.endWait_hbm | with_reducible apply State.pairLost_hbm
    | simp only [State.ite_frame, ite_self, State.endWait_frame, State.pairLost_frame, State.modLinkReq_frame,
      State.modLink_frame, State.markCause_frame, State.logEvent_frame] | (intro _ _ _)
    | with_reducible refine foldl_hbm _ _ _ ?_ ?_ | with_reducible apply foldl_dropExtent_hbm | with_reducible rfl
    | exact wf_empty | split
theorem State.linkReplay_hbm (s : State) (l : Nat) (lastGood : Nat) (hs : Memory.wf s.mem.hbm = true) : Memory.wf
    (State.linkReplay s l lastGood).mem.hbm = true := by
  unfold State.linkReplay
  repeat' first
    | with_reducible assumption | with_reducible apply State.linkGoDown_hbm
    | simp only [State.ite_frame, ite_self, State.modLink_frame, State.linkGoDown_frame, State.logEvent_frame]
    | (intro _ _ _) | with_reducible refine foldl_hbm _ _ _ ?_ ?_ | with_reducible apply foldl_dropExtent_hbm
    | with_reducible rfl | exact wf_empty | split
theorem State.linkUnauth_hbm (s : State) (l : Nat) (hs : Memory.wf s.mem.hbm = true) : Memory.wf (State.linkUnauth s l).mem.hbm
    = true := by
  unfold State.linkUnauth
  repeat' first
    | with_reducible assumption | with_reducible apply State.linkGoDown_hbm
    | simp only [State.ite_frame, ite_self, State.linkGoDown_frame] | (intro _ _ _)
    | with_reducible refine foldl_hbm _ _ _ ?_ ?_ | with_reducible apply foldl_dropExtent_hbm | with_reducible rfl
    | exact wf_empty | split
theorem State.sendNext_hbm (s : State) (l : Nat) (hs : Memory.wf s.mem.hbm = true) : Memory.wf (State.sendNext s l).mem.hbm =
    true := by
  unfold State.sendNext
  repeat' first
    | with_reducible assumption | simp only [State.ite_frame, ite_self, State.modLink_frame, State.linkSend_frame]
    | (intro _ _ _) | with_reducible refine foldl_hbm _ _ _ ?_ ?_ | with_reducible apply foldl_dropExtent_hbm
    | with_reducible rfl | exact wf_empty | split
theorem State.sendAll_hbm (s : State) (l n : Nat) (hs : Memory.wf s.mem.hbm = true) : Memory.wf (s.sendAll l n).mem.hbm = true := by
  induction n generalizing s with
  | zero => exact hs
  | succ n ih =>
    unfold State.sendAll
    dsimp only
    split
    · exact s.sendNext_hbm l hs
    · exact ih _ (s.sendNext_hbm l hs)
theorem State.closeChunk_hbm (s : State) (i : Nat) (x : StreamCtx) (g : PayShape) (at_ : Nat) (lag : Option Int) (hs :
    Memory.wf s.mem.hbm = true) : Memory.wf (State.closeChunk s i x g at_ lag).mem.hbm = true := by
  unfold State.closeChunk
  repeat' first
    | with_reducible assumption | with_reducible apply State.hbmWrite_hbm
    | simp only [State.ite_frame, ite_self, State.hbmWrite_frame, State.modStream_frame, State.modStats_frame,
      State.newKeys_frame, State.logEvent_frame] | (intro _ _ _) | with_reducible refine foldl_hbm _ _ _ ?_ ?_
    | with_reducible apply foldl_dropExtent_hbm | with_reducible rfl | exact wf_empty | split
theorem State.closeChunks_hbm (s : State) (i : Nat) (g : PayShape) (late : Bool) (now n : Nat) (hs : Memory.wf s.mem.hbm = true) :
    Memory.wf (s.closeChunks i g late now n).mem.hbm = true := by
  induction n generalizing s with
  | zero => exact hs
  | succ n ih =>
    unfold State.closeChunks
    repeat' first
    | exact hs | exact ih _ (State.closeChunk_hbm _ _ _ _ _ _ hs) | split
theorem State.fillRing_hbm (s : State) (x : StreamCtx) (g : PayShape) (a : Arrived) (hs : Memory.wf s.mem.hbm = true) :
    Memory.wf (State.fillRing s x g a).mem.hbm = true := by
  unfold State.fillRing
  repeat' first
    | with_reducible assumption | with_reducible apply State.hbmWrite_hbm
    | simp only [State.ite_frame, ite_self, State.hbmWrite_frame] | (intro _ _ _)
    | with_reducible refine foldl_hbm _ _ _ ?_ ?_ | with_reducible apply foldl_dropExtent_hbm | with_reducible rfl
    | exact wf_empty | split
theorem State.ingest_hbm (s : State) (i : Nat) (x : StreamCtx) (g : PayShape) (m : MediaIn) (at_ : Nat) (replay : Bool) (hs :
    Memory.wf s.mem.hbm = true) : Memory.wf (State.ingest s i x g m at_ replay).mem.hbm = true := by
  unfold State.ingest
  repeat' first
    | with_reducible assumption | with_reducible apply State.fillRing_hbm
    | simp only [State.ite_frame, ite_self, State.modStats_frame, State.markCause_frame, State.modStream_frame,
      State.fillRing_frame] | (intro _ _ _) | with_reducible refine foldl_hbm _ _ _ ?_ ?_
    | with_reducible apply foldl_dropExtent_hbm | with_reducible rfl | exact wf_empty | split
theorem State.mediaIn_hbm (s : State) (i : Nat) (x : StreamCtx) (p : Package) (bs : List Byte) (authOk : Bool) (at_ : Nat) (hs
    : Memory.wf s.mem.hbm = true) : Memory.wf (State.mediaIn s i x p bs authOk at_).mem.hbm = true := by
  unfold State.mediaIn
  repeat' first
    | with_reducible assumption | with_reducible apply State.closeChunks_hbm | with_reducible apply State.ingest_hbm
    | simp only [State.ite_frame, ite_self, State.srtpFail_frame, State.modStream_frame, State.markCause_frame]
    | (intro _ _ _) | with_reducible refine foldl_hbm _ _ _ ?_ ?_ | with_reducible rfl | split
theorem State.takeMedia_hbm (s : State) (port : Nat) (dst : Word16) (bs : List Byte) (authOk : Bool) (at_ : Nat) (hs :
    Memory.wf s.mem.hbm = true) : Memory.wf (State.takeMedia s port dst bs authOk at_).mem.hbm = true := by
  unfold State.takeMedia
  repeat' first
    | with_reducible assumption | with_reducible apply State.mediaIn_hbm | simp only [State.ite_frame, ite_self]
    | (intro _ _ _) | with_reducible refine foldl_hbm _ _ _ ?_ ?_ | with_reducible rfl | split
theorem State.writeObj_hbm (s : State) (index : Nat) (sub : Nat) (v : List Byte) (hs : Memory.wf s.mem.hbm = true) : Memory.wf
    (State.writeObj s index sub v).mem.hbm = true := by
  unfold State.writeObj
  repeat' first
    | with_reducible assumption | with_reducible apply State.linkGoDown_hbm
    | simp only [State.ite_frame, ite_self, State.holdClip_frame, State.restartTime_frame, State.linkGoDown_frame,
      State.checkOvercommit_frame] | (intro _ _ _) | with_reducible refine foldl_hbm _ _ _ ?_ ?_
    | with_reducible apply foldl_dropExtent_hbm | with_reducible rfl | exact wf_empty | split
theorem State.applyWrite_hbm (s : State) (r : Req) (c : Caller) (hs : Memory.wf s.mem.hbm = true) : Memory.wf (State.applyWrite
    s r c).mem.hbm = true := by
  unfold State.applyWrite
  repeat' first
    | with_reducible assumption | with_reducible apply State.writeObj_hbm
    | simp only [State.ite_frame, ite_self, State.respond_frame, State.writeObj_frame, State.respondCommitted_frame]
    | (intro _ _ _) | with_reducible refine foldl_hbm _ _ _ ?_ ?_ | with_reducible apply foldl_dropExtent_hbm
    | with_reducible rfl | exact wf_empty | split
theorem State.declareModule_hbm (s : State) (cause : Nat) (hs : Memory.wf s.mem.hbm = true) : Memory.wf (State.declareModule s
    cause).mem.hbm = true := by
  unfold State.declareModule
  repeat' first
    | with_reducible assumption | with_reducible apply moduleReset_hbm
    | simp only [State.ite_frame, ite_self, moduleReset_frame, State.endSample_frame, State.alertSet_frame] | (intro _ _ _)
    | with_reducible refine foldl_hbm _ _ _ ?_ ?_ | with_reducible apply foldl_dropExtent_hbm | with_reducible rfl
    | exact wf_empty | split
theorem State.escalate_hbm (s : State) (core : Nat) (event : Nat) (kind : Nat) (index : Nat) (unit : Nat) (hs : Memory.wf
    s.mem.hbm = true) : Memory.wf (State.escalate s core event kind index unit).mem.hbm = true := by
  unfold State.escalate
  repeat' first
    | with_reducible assumption | with_reducible apply State.declareModule_hbm
    | simp only [State.ite_frame, ite_self, State.declareDie_frame, State.firstError_frame, State.laterError_frame,
      State.declareModule_frame] | (intro _ _ _) | with_reducible refine foldl_hbm _ _ _ ?_ ?_
    | with_reducible apply foldl_dropExtent_hbm | with_reducible rfl | exact wf_empty | split
theorem State.discardCtx_hbm (s : State) (i : Nat) (ct : Ctx) (c : Nat) (hs : Memory.wf s.mem.hbm = true) : Memory.wf
    (State.discardCtx s i ct c).mem.hbm = true := by
  unfold State.discardCtx
  repeat' first
    | with_reducible assumption | with_reducible apply State.writeRecord_hbm
    | simp only [State.ite_frame, ite_self, State.dropWaits_frame, State.writeRecord_frame, State.modCtx_frame]
    | (intro _ _ _) | with_reducible refine foldl_hbm _ _ _ ?_ ?_ | with_reducible apply foldl_dropExtent_hbm
    | with_reducible rfl | exact wf_empty | split
theorem State.returnFenced_hbm (s : State) (c : Nat) (hs : Memory.wf s.mem.hbm = true) : Memory.wf (State.returnFenced s
    c).mem.hbm = true := by
  unfold State.returnFenced
  repeat' first
    | with_reducible assumption | with_reducible apply State.leaveFlight_hbm
    | simp only [State.ite_frame, ite_self, State.modCore_frame, State.leaveFlight_frame, State.returnSteps_frame,
      State.recovered_frame] | (intro _ _ _) | with_reducible refine foldl_hbm _ _ _ ?_ ?_
    | with_reducible apply foldl_dropExtent_hbm | with_reducible rfl | exact wf_empty | split
theorem State.resumeCore_hbm (s : State) (c : Nat) (hs : Memory.wf s.mem.hbm = true) : Memory.wf (State.resumeCore s c).mem.hbm
    = true := by
  unfold State.resumeCore
  repeat' first
    | with_reducible assumption | with_reducible apply State.discardCtx_hbm | with_reducible apply State.returnFenced_hbm
    | simp only [State.ite_frame, ite_self, State.discardCtx_frame, State.modCore_frame, State.recovered_frame,
      State.returnSteps_frame, State.jobStepDone_frame, State.returnFenced_frame] | (intro _ _ _)
    | with_reducible refine foldl_hbm _ _ _ ?_ ?_ | with_reducible apply foldl_dropExtent_hbm | with_reducible rfl
    | exact wf_empty | split
theorem State.beatWrite_hbm (s : State) (core : Nat) (c : Channel) (p : Nat) (bs : List Byte) (poison : Bool) (hs : Memory.wf
    s.mem.hbm = true) : Memory.wf (State.beatWrite s core c p bs poison).mem.hbm = true := by
  unfold State.beatWrite
  repeat' first
    | with_reducible assumption | with_reducible apply State.hbmWriteAs_hbm
    | simp only [State.ite_frame, ite_self, State.hbmWriteAs_frame, State.bufWrite_frame] | (intro _ _ _)
    | with_reducible refine foldl_hbm _ _ _ ?_ ?_ | with_reducible apply foldl_dropExtent_hbm | with_reducible rfl
    | exact wf_empty | split
theorem State.pieceWrite_hbm (s : State) (core : Nat) (c : Channel) (q : Piece) (hs : Memory.wf s.mem.hbm = true) : Memory.wf
    (State.pieceWrite s core c q).mem.hbm = true := by
  unfold State.pieceWrite
  repeat' first
    | with_reducible assumption | with_reducible apply State.beatWrite_hbm
    | simp only [State.ite_frame, ite_self, State.beatWrite_frame] | (intro _ _ _)
    | with_reducible refine foldl_hbm _ _ _ ?_ ?_ | with_reducible apply foldl_dropExtent_hbm | with_reducible rfl
    | exact wf_empty | split
theorem State.failChannel_hbm (s : State) (core : Nat) (n : Nat) (code : Word16) (hs : Memory.wf s.mem.hbm = true) : Memory.wf
    (State.failChannel s core n code).mem.hbm = true := by
  unfold State.failChannel
  repeat' first
    | with_reducible assumption | with_reducible apply State.pieceWrite_hbm | with_reducible apply State.beatWrite_hbm
    | with_reducible apply State.writeRecord_hbm
    | simp only [State.ite_frame, ite_self, State.pieceWrite_frame, State.beatWrite_frame, State.dropCredits_frame,
      State.returnPlainCredit_frame, State.semsetSignal_frame, State.writeRecord_frame, State.modCore_frame,
      State.modChan_frame, State.failRing_frame, State.markFenced_frame, State.logEvent_frame] | (intro _ _ _)
    | with_reducible refine foldl_hbm _ _ _ ?_ ?_ | with_reducible apply foldl_dropExtent_hbm | with_reducible rfl
    | exact wf_empty | split
theorem State.rearm_hbm (s : State) (core : Nat) (c : Cmd) (hs : Memory.wf s.mem.hbm = true) : Memory.wf (State.rearm s core
    c).mem.hbm = true := by
  unfold State.rearm
  repeat' first
    | with_reducible assumption | with_reducible apply State.rejectRunning_hbm
    | simp only [State.ite_frame, ite_self, State.modCmd_frame, State.nextPass_frame, State.modChan_frame,
      State.logEvent_frame, State.modCore_frame, State.rejectRunning_frame] | (intro _ _ _)
    | with_reducible refine foldl_hbm _ _ _ ?_ ?_ | with_reducible apply foldl_dropExtent_hbm | with_reducible rfl
    | exact wf_empty | split
theorem State.issuePiece_hbm (s : State) (core : Nat) (n : Nat) (c : Channel) (errs : BoreErrs) (hs : Memory.wf s.mem.hbm =
    true) : Memory.wf (State.issuePiece s core n c errs).mem.hbm = true := by
  unfold State.issuePiece
  repeat' first
    | with_reducible assumption | with_reducible apply State.wcReads_hbm
    | simp only [State.ite_frame, ite_self, State.modChan_frame, State.takeTag_frame, State.wcReads_frame,
      State.boreFinds_frame, State.drainSlot_frame, State.progress_frame] | (intro _ _ _)
    | with_reducible refine foldl_hbm _ _ _ ?_ ?_ | with_reducible apply foldl_dropExtent_hbm | with_reducible rfl
    | exact wf_empty | split
theorem State.grantFrame_hbm (s : State) (port : Nat) (media : Bool) (hs : Memory.wf s.mem.hbm = true) : Memory.wf
    (State.grantFrame s port media).mem.hbm = true := by
  unfold State.grantFrame
  repeat' first
    | with_reducible assumption | with_reducible apply State.takeMedia_hbm
    | simp only [State.ite_frame, ite_self, State.modPort_frame, State.receive_frame] | (intro _ _ _)
    | with_reducible refine foldl_hbm _ _ _ ?_ ?_ | with_reducible rfl | split
theorem State.placeSegment_hbm (s : State) (part : Nat) (x0 : Option SegmentDone) (hs : Memory.wf s.mem.hbm = true) : Memory.wf
    (State.placeSegment s part x0).mem.hbm = true := by
  unfold State.placeSegment
  repeat' first
    | with_reducible assumption | with_reducible apply State.hbmWrite_hbm
    | simp only [State.ite_frame, ite_self, State.hbmWrite_frame] | (intro _ _ _)
    | with_reducible refine foldl_hbm _ _ _ ?_ ?_ | with_reducible apply foldl_dropExtent_hbm | with_reducible rfl
    | exact wf_empty | split
theorem State.placePart_hbm (s : State) (n : Nat) (r : PartRec) (ch : PartChoice) (ext : List (Nat × Nat)) (hs : Memory.wf
    s.mem.hbm = true) : Memory.wf (State.placePart s n r ch ext).mem.hbm = true := by
  unfold State.placePart
  repeat' first
    | with_reducible assumption
    | simp only [State.ite_frame, ite_self, State.install_frame, State.modCore_frame, State.addCtx_frame] | (intro _ _ _)
    | with_reducible refine foldl_hbm _ _ _ ?_ ?_ | with_reducible apply foldl_dropExtent_hbm | with_reducible rfl
    | exact wf_empty | split
theorem State.createPart_hbm (s : State) (n : Nat) (r : PartRec) (ch : PartChoice) (hs : Memory.wf s.mem.hbm = true) :
    Memory.wf (State.createPart s n r ch).mem.hbm = true := by
  unfold State.createPart
  repeat' first
    | with_reducible assumption | with_reducible apply State.placePart_hbm
    | simp only [State.ite_frame, ite_self, State.placePart_frame, State.logFw_frame] | (intro _ _ _)
    | with_reducible refine foldl_hbm _ _ _ ?_ ?_ | with_reducible apply foldl_dropExtent_hbm | with_reducible rfl
    | exact wf_empty | split
theorem State.destroyPart_hbm (s : State) (n : Nat) (r : PartRec) (hs : Memory.wf s.mem.hbm = true) :
    Memory.wf (State.destroyPart s n r).mem.hbm = true := by
  unfold State.destroyPart
  simp only [State.dropCtxs_frame, State.logFw_frame, State.uninstall_frame]
  exact foldl_mem_hbm _ _ _ (fun m _ h => (m.dropExtent_wf _ _ h)) hs
theorem State.dropLinkKeys_hbm (s : State) (hs : Memory.wf s.mem.hbm = true) : Memory.wf (State.dropLinkKeys s).mem.hbm = true
    := by
  unfold State.dropLinkKeys
  repeat' first
    | with_reducible assumption | with_reducible apply State.linkGoDown_hbm
    | simp only [State.ite_frame, ite_self, State.linkGoDown_frame] | (intro _ _ _)
    | with_reducible refine foldl_hbm _ _ _ ?_ ?_ | with_reducible apply foldl_dropExtent_hbm | with_reducible rfl
    | exact wf_empty | split
theorem State.decommission_hbm (s : State) (hs : Memory.wf s.mem.hbm = true) : Memory.wf (State.decommission s).mem.hbm = true
    := by
  unfold State.decommission
  repeat' first
    | with_reducible assumption | with_reducible apply State.dropLinkKeys_hbm
    | simp only [State.ite_frame, ite_self, State.dropLinkKeys_frame, State.forgetKeys_frame] | (intro _ _ _)
    | with_reducible refine foldl_hbm _ _ _ ?_ ?_ | with_reducible apply foldl_dropExtent_hbm | with_reducible rfl
    | exact wf_empty | split

end Sys2Proof.Machine
end

