-- ==== Sys2Proof/Laws/PerInstr.lean ====
section
/-! SUPPORT. Facts about every command as syntax, one lemma for each constructor: no word of the table spells the command. -/

namespace Sys2Proof.Laws.NoWord

/-- No word spells the command: the table gives no row any bits. -/
def Statement (i : Instr) : Prop := ∀ nbits w, decodeTableWord nbits w ≠ some i

/-- The one reason for every constructor. -/
theorem none_spelled (i : Instr) : Statement i := fun _ _ h => nomatch h

theorem mediaPacket (port : Fin 2) (pkt : RxPacket) (authOk : Bool) : Statement (.mediaPacket port pkt authOk) := none_spelled _
theorem unmatchedDatagram (port : Fin 2) (pkt : RxPacket) : Statement (.unmatchedDatagram port pkt) := none_spelled _
theorem frameReceiveDrop (port : Fin 2) (why : FrameFault) : Statement (.frameReceiveDrop port why) := none_spelled _
theorem rxFifoWaitTimeout (port : Fin 2) : Statement (.rxFifoWaitTimeout port) := none_spelled _
theorem poolBufferGrant (pool : PoolSel) : Statement (.poolBufferGrant pool) := none_spelled _
theorem arpRequest (port : Fin 2) (senderMac : BitVec 48) (senderIp targetIp : BitVec 32) : Statement (.arpRequest port senderMac senderIp targetIp) := none_spelled _
theorem neighbourSolicitation (port : Fin 2) (senderMac : BitVec 48) (senderIp targetIp : IpAddr) : Statement (.neighbourSolicitation port senderMac senderIp targetIp) := none_spelled _
theorem icmpEchoRequest (port : Fin 2) (senderIp targetIp : IpAddr) (data : List Byte) : Statement (.icmpEchoRequest port senderIp targetIp data) := none_spelled _
theorem pauseFrame (port : Fin 2) (holdNs : Nat) (pfc : Bool) : Statement (.pauseFrame port holdNs pfc) := none_spelled _
theorem pauseExpiry (port : Fin 2) : Statement (.pauseExpiry port) := none_spelled _
theorem portLinkChange (port : Fin 2) (up : Bool) : Statement (.portLinkChange port up) := none_spelled _
theorem chunkCloseAtBoundary (stream : Fin 16384) : Statement (.chunkCloseAtBoundary stream) := none_spelled _
theorem lateLimitExpiry (stream : Fin 16384) : Statement (.lateLimitExpiry stream) := none_spelled _
theorem stepEligible (stream : Fin 16384) : Statement (.stepEligible stream) := none_spelled _
theorem roundForm (core : Fin 8) : Statement (.roundForm core) := none_spelled _
theorem roundYield (core : Fin 8) : Statement (.roundYield core) := none_spelled _
theorem roundEndStore (core : Fin 8) (prep : Fin 4) (value : Word64) : Statement (.roundEndStore core prep value) := none_spelled _
theorem checkpointReport (core : Fin 8) : Statement (.checkpointReport core) := none_spelled _
theorem chunkCommit (stream : Fin 16384) : Statement (.chunkCommit stream) := none_spelled _
theorem resultDelivered (port : Fin 2) : Statement (.resultDelivered port) := none_spelled _
theorem deadlineExpiry (stream : Fin 16384) : Statement (.deadlineExpiry stream) := none_spelled _
theorem streamContextFree (stream : Fin 16384) : Statement (.streamContextFree stream) := none_spelled _
theorem streamOpen (choice : OpenChoice) : Statement (.streamOpen choice) := none_spelled _
theorem streamClose : Statement (.streamClose) := none_spelled _
theorem clothaRequestReceive (port : Fin 2) (srcAddr : IpAddr) (srcPort : Word16) (msg : List Byte) (tagOk : Bool) : Statement (.clothaRequestReceive port srcAddr srcPort msg tagOk) := none_spelled _
theorem ping : Statement (.ping) := none_spelled _
theorem read : Statement (.read) := none_spelled _
theorem readTable : Statement (.readTable) := none_spelled _
theorem info : Statement (.info) := none_spelled _
theorem write : Statement (.write) := none_spelled _
theorem bulkReadDump : Statement (.bulkReadDump) := none_spelled _
theorem bulkReadEventLog : Statement (.bulkReadEventLog) := none_spelled _
theorem bulkReadFirmwareStaging : Statement (.bulkReadFirmwareStaging) := none_spelled _
theorem bulkWriteFirmwareStaging : Statement (.bulkWriteFirmwareStaging) := none_spelled _
theorem bulkWritePackageStaging (segment : Option SegmentDone) : Statement (.bulkWritePackageStaging segment) := none_spelled _
theorem flashCommitDone : Statement (.flashCommitDone) := none_spelled _
theorem partitionCreate (choice : PartChoice) : Statement (.partitionCreate choice) := none_spelled _
theorem partitionReady (p : Fin 8) : Statement (.partitionReady p) := none_spelled _
theorem partitionDestroy : Statement (.partitionDestroy) := none_spelled _
theorem jobSubmit : Statement (.jobSubmit) := none_spelled _
theorem jobCancel : Statement (.jobCancel) := none_spelled _
theorem meRelease : Statement (.meRelease) := none_spelled _
theorem resetCore (sc : Fin 4) : Statement (.resetCore sc) := none_spelled _
theorem dumpRelease : Statement (.dumpRelease) := none_spelled _
theorem restoreDefaults : Statement (.restoreDefaults) := none_spelled _
theorem keyEnrol (check : EnrolCheck) : Statement (.keyEnrol check) := none_spelled _
theorem keyRevoke : Statement (.keyRevoke) := none_spelled _
theorem decommission : Statement (.decommission) := none_spelled _
theorem tenantEnrol : Statement (.tenantEnrol) := none_spelled _
theorem tenantRemove : Statement (.tenantRemove) := none_spelled _
theorem fwVerify (check : ImageCheck) : Statement (.fwVerify check) := none_spelled _
theorem fwActivate : Statement (.fwActivate) := none_spelled _
theorem fwActivationTimeout : Statement (.fwActivationTimeout) := none_spelled _
theorem fwFloorRaise : Statement (.fwFloorRaise) := none_spelled _
theorem modelStage : Statement .modelStage := none_spelled _
theorem modelLoad (choice : LoadChoice) : Statement (.modelLoad choice) := none_spelled _
theorem modelRemove : Statement (.modelRemove) := none_spelled _
theorem attRequest : Statement (.attRequest) := none_spelled _
theorem srtpKeyWrite : Statement (.srtpKeyWrite) := none_spelled _
theorem ppsEpochWrite : Statement (.ppsEpochWrite) := none_spelled _
theorem timeSourceWrite : Statement (.timeSourceWrite) := none_spelled _
theorem alertClear : Statement (.alertClear) := none_spelled _
theorem powerDrain : Statement (.powerDrain) := none_spelled _
theorem drainGraceExpiry : Statement (.drainGraceExpiry) := none_spelled _
theorem telemetrySample (map : Fin 16) : Statement (.telemetrySample map) := none_spelled _
theorem mgmtRead (addr : Word32) (len : Nat) : Statement (.mgmtRead addr len) := none_spelled _
theorem telemetryWindowRead (map : Fin 16) : Statement (.telemetryWindowRead map) := none_spelled _
theorem mgmtWrite (addr : Word32) (bytes : List Byte) : Statement (.mgmtWrite addr bytes) := none_spelled _
theorem readStatus : Statement (.readStatus) := none_spelled _
theorem writeEnable : Statement (.writeEnable) := none_spelled _
theorem mgmtOtherCommand (command extension : Byte) : Statement (.mgmtOtherCommand command extension) := none_spelled _
theorem reqGo (tagOk : Bool) : Statement (.reqGo tagOk) := none_spelled _
theorem respAck : Statement (.respAck) := none_spelled _
theorem ptpMessage (port : Fin 2) (transport : PtpTransport) (msg : PtpMsg) : Statement (.ptpMessage port transport msg) := none_spelled _
theorem ppsInEdge : Statement (.ppsInEdge) := none_spelled _
theorem timeSourceTimeout : Statement (.timeSourceTimeout) := none_spelled _
theorem holdoverExpiry : Statement (.holdoverExpiry) := none_spelled _
theorem ppsOutPulse : Statement (.ppsOutPulse) := none_spelled _
theorem doorbell (core : Fin 8) (prep : Fin 4) (value : Word64) : Statement (.doorbell core prep value) := none_spelled _
theorem commandDispatch (core : Fin 8) : Statement (.commandDispatch core) := none_spelled _
theorem nop (ctx : Nat) : Statement (.nop ctx) := none_spelled _
theorem matmul (ctx : Nat) : Statement (.matmul ctx) := none_spelled _
theorem matmulGather (ctx : Nat) : Statement (.matmulGather ctx) := none_spelled _
theorem matmulScore (ctx : Nat) : Statement (.matmulScore ctx) := none_spelled _
theorem fence (ctx : Nat) : Statement (.fence ctx) := none_spelled _
theorem semWait (ctx : Nat) : Statement (.semWait ctx) := none_spelled _
theorem semSignal (ctx : Nat) : Statement (.semSignal ctx) := none_spelled _
theorem semaphoreOpApply (core : Fin 8) (index : Fin 4096) : Statement (.semaphoreOpApply core index) := none_spelled _
theorem semWaitTimeout (ctx : Nat) : Statement (.semWaitTimeout ctx) := none_spelled _
theorem creditAcquire (ctx : Nat) : Statement (.creditAcquire ctx) := none_spelled _
theorem creditRelease (ctx : Nat) : Statement (.creditRelease ctx) := none_spelled _
theorem creditGrant (target : Fin 8) (handle : Fin 256) : Statement (.creditGrant target handle) := none_spelled _
theorem creditTimeout (ctx : Nat) : Statement (.creditTimeout ctx) := none_spelled _
theorem streamStart (ctx : Nat) : Statement (.streamStart ctx) := none_spelled _
theorem streamRearm (ctx : Nat) : Statement (.streamRearm ctx) := none_spelled _
theorem streamStop (ctx : Nat) : Statement (.streamStop ctx) := none_spelled _
theorem vecRun (ctx : Nat) : Statement (.vecRun ctx) := none_spelled _
theorem checkpoint (ctx : Nat) : Statement (.checkpoint ctx) := none_spelled _
theorem commandComplete (ctx : Nat) : Statement (.commandComplete ctx) := none_spelled _
theorem stealGrant (core : Fin 8) (engine : Fin 16) : Statement (.stealGrant core engine) := none_spelled _
theorem workItemStart (core : Fin 8) (engine : Fin 16) : Statement (.workItemStart core engine) := none_spelled _
theorem accumulationDone (me : EngineId) (flips : AccFlips) (errs : BoreErrs) : Statement (.accumulationDone me flips errs) := none_spelled _
theorem segmentDone (me : EngineId) (flips addFlips : AccFlips) (errs : BoreErrs) : Statement (.segmentDone me flips addFlips errs) := none_spelled _
theorem mismatchAgeOut (core : Fin 8) (engine : Fin 16) : Statement (.mismatchAgeOut core engine) := none_spelled _
theorem conversionDone (me : EngineId) (errs : BoreErrs) : Statement (.conversionDone me errs) := none_spelled _
theorem veBodyEnd (me : EngineId) (errs : BoreErrs) : Statement (.veBodyEnd me errs) := none_spelled _
theorem codebookLoadStart (core : Fin 8) (engine : Fin 16) : Statement (.codebookLoadStart core engine) := none_spelled _
theorem codebookLoadDone (me : EngineId) (errs : BoreErrs) : Statement (.codebookLoadDone me errs) := none_spelled _
theorem extensionReadReturn (core : Fin 8) (engine : Fin 16) (ecc : EccResult) : Statement (.extensionReadReturn core engine ecc) := none_spelled _
theorem handleEntryStore (core : Fin 8) (prep : Fin 4) (addr : Fin 8704) (value : Word64) : Statement (.handleEntryStore core prep addr value) := none_spelled _
theorem pageFree (core : Fin 8) (prep : Fin 4) (value : Word64) : Statement (.pageFree core prep value) := none_spelled _
theorem pageRelease (p : Fin 8) : Statement (.pageRelease p) := none_spelled _
theorem prepFence (core : Fin 8) (prep : Fin 4) : Statement (.prepFence core prep) := none_spelled _
theorem linkRequest (core : Fin 8) (prep : Fin 4) (tail : Word16) : Statement (.linkRequest core prep tail) := none_spelled _
theorem linkRequestComplete (p : Fin 8) : Statement (.linkRequestComplete p) := none_spelled _
theorem spillPairRequest (ctx : Nat) : Statement (.spillPairRequest ctx) := none_spelled _
theorem spillWalkTimeout (ctx : Nat) : Statement (.spillWalkTimeout ctx) := none_spelled _
theorem channelPieceIssue (ch : ChannelId) (errs : BoreErrs) : Statement (.channelPieceIssue ch errs) := none_spelled _
theorem channelPieceWritten (core : Fin 8) (chan : Fin 64) (piece : Nat) : Statement (.channelPieceWritten core chan piece) := none_spelled _
theorem poolBufferTimeout (core : Fin 8) (chan : Fin 64) : Statement (.poolBufferTimeout core chan) := none_spelled _
theorem hbmRequest (die : Fin 2) (source : HbmId) (addr : BitVec 40) (op : HbmOp) (ecc : EccResult) : Statement (.hbmRequest die source addr op ecc) := none_spelled _
theorem windchestFill (slice : Fin 16) : Statement (.windchestFill slice) := none_spelled _
theorem scrubStep (stack : Fin 12) (ecc : EccResult) : Statement (.scrubStep stack ecc) := none_spelled _
theorem eventLogCommit : Statement (.eventLogCommit) := none_spelled _
theorem contextSwapStart (ctx : Nat) : Statement (.contextSwapStart ctx) := none_spelled _
theorem contextSwapDone (ctx : Nat) : Statement (.contextSwapDone ctx) := none_spelled _
theorem hangDetected (core : Fin 8) (unit : DroneUnit) : Statement (.hangDetected core unit) := none_spelled _
theorem dumpPartTimeout (core : Fin 8) (part : DumpPart) : Statement (.dumpPartTimeout core part) := none_spelled _
theorem fenceReadExpiry (core : Fin 8) : Statement (.fenceReadExpiry core) := none_spelled _
theorem fenceDrainComplete (dom : ResetDom) : Statement (.fenceDrainComplete dom) := none_spelled _
theorem computeResetDone (dom : ResetDom) : Statement (.computeResetDone dom) := none_spelled _
theorem resume (dom : ResetDom) : Statement (.resume dom) := none_spelled _
theorem lcServiceResume (core : Fin 8) : Statement (.lcServiceResume core) := none_spelled _
theorem clearanceIntervalEnd (stream : Fin 16384) : Statement (.clearanceIntervalEnd stream) := none_spelled _
theorem coreResetTimeout (core : Fin 8) (unit : DroneUnit) : Statement (.coreResetTimeout core unit) := none_spelled _
theorem dieResetTimeout (u : DieUnit) : Statement (.dieResetTimeout u) := none_spelled _
theorem linkFlitReceive (link : Fin 8) (flit : Flit) : Statement (.linkFlitReceive link flit) := none_spelled _
theorem linkNak (link : Fin 8) (lastGood : BitVec 12) : Statement (.linkNak link lastGood) := none_spelled _
theorem linkDown (link : Fin 8) : Statement (.linkDown link) := none_spelled _
theorem linkUp (link : Fin 8) : Statement (.linkUp link) := none_spelled _
theorem linkRetrainTimeout (link : Fin 8) : Statement (.linkRetrainTimeout link) := none_spelled _
theorem linkKeyExchange (link : Fin 8) (peerKey : List Byte) (sigOk : Bool) (peerSerial : List Byte) : Statement (.linkKeyExchange link peerKey sigOk peerSerial) := none_spelled _
theorem linkRekey (link : Fin 8) : Statement (.linkRekey link) := none_spelled _
theorem linkWriteMessage (link : Fin 8) (msg : LinkMsg) : Statement (.linkWriteMessage link msg) := none_spelled _
theorem linkReadRequest (link : Fin 8) (msg : LinkMsg) : Statement (.linkReadRequest link msg) := none_spelled _
theorem linkResponse (link : Fin 8) (msg : LinkMsg) : Statement (.linkResponse link msg) := none_spelled _
theorem linkWriteAckTimeout (link : Fin 8) (tag : BitVec 10) : Statement (.linkWriteAckTimeout link tag) := none_spelled _
theorem pwrEnHigh (straps : Straps) : Statement (.pwrEnHigh straps) := none_spelled _
theorem pwrEnLow : Statement (.pwrEnLow) := none_spelled _
theorem railGroupInRegulation : Statement (.railGroupInRegulation) := none_spelled _
theorem railSequenceTimeout : Statement (.railSequenceTimeout) := none_spelled _
theorem railFault (rail : Fin 9) (mv : Int) : Statement (.railFault rail mv) := none_spelled _
theorem modRstAssert : Statement (.modRstAssert) := none_spelled _
theorem modRstRelease (straps : Straps) : Statement (.modRstRelease straps) := none_spelled _
theorem inputTrip (overVolt : Bool) (mv : Int) : Statement (.inputTrip overVolt mv) := none_spelled _
theorem sensorSample (r : SensorReading) : Statement (.sensorSample r) := none_spelled _
theorem thermalTrip (sensor : Fin 25) (mC : Int) : Statement (.thermalTrip sensor mC) := none_spelled _
theorem bootRomCheck (slot0 slot1 : ImageCheck) : Statement (.bootRomCheck slot0 slot1) := none_spelled _
theorem hbmTrainingDone (allOk : Bool) : Statement (.hbmTrainingDone allOk) := none_spelled _
theorem serviceFirmwareStart (slot2 slot3 : ImageCheck) (journalOk : Bool) (parts : List (Nat × PartChoice)) : Statement (.serviceFirmwareStart slot2 slot3 journalOk parts) := none_spelled _
theorem moduleReady : Statement (.moduleReady) := none_spelled _
theorem standbySupplyUp (inputMv : Nat) : Statement (.standbySupplyUp inputMv) := none_spelled _
theorem standbySupplyLoss : Statement (.standbySupplyLoss) := none_spelled _
theorem pwrEnLowTimeElapsed : Statement (.pwrEnLowTimeElapsed) := none_spelled _
theorem railGroupBelowTenPercent : Statement (.railGroupBelowTenPercent) := none_spelled _
theorem keptResponseExpiry (keyId : Word16) (reqId : Word32) : Statement (.keptResponseExpiry keyId reqId) := none_spelled _
theorem srtpKeyOverlapExpiry (slot : Fin 4096) : Statement (.srtpKeyOverlapExpiry slot) := none_spelled _
theorem contextRecreate (init : CtxInit) : Statement (.contextRecreate init) := none_spelled _
theorem narrowViewAccess (core : Fin 8) (prep : Fin 4) (line : Fin 65536) (word : Fin 8) (store : Option Word64) (ecc : EccResult) : Statement (.narrowViewAccess core prep line word store ecc) := none_spelled _
theorem nextHopReply (port : Fin 2) (ip : IpAddr) (mac : BitVec 48) : Statement (.nextHopReply port ip mac) := none_spelled _
theorem delayRequest : Statement (.delayRequest) := none_spelled _

end Sys2Proof.Laws.NoWord
end

