-- ==== Sys2Proof/Laws/Requests.lean ====
section
/-! SUPPORT. What a command that takes a request does with it: the request leaves the queue, the command's own effect is
applied to the state without it, and the rest of the state is as it was. -/

namespace Sys2Proof.Machine

open Sys2Proof.Safety

/-- The state without the taken request differs from the state before in the queue of requests alone. -/
theorem takes_frame {s t : State} {k : Kind} {r : Req} {c : Caller} (h : Takes s k r c t) :
    ∃ l, t = { s with clotha := { s.clotha with queue := l } } := by
  obtain ⟨_, l, _, ht, _⟩ := h
  exact ⟨l, ht⟩

/-- A request that is taken is given to the command's effect. -/
theorem State.apply_takes {s t : State} {k : Kind} {r : Req} {c : Caller} (f : State → Req → Caller → State)
    (h : Takes s k r c t) : s.apply k f = f t r c := by
  obtain ⟨hd, l, hp, ht, hc⟩ := h
  subst ht
  unfold State.apply
  rw [if_neg (by simp [hd]), hp]
  dsimp only at hc ⊢
  rw [hc]

/-- An action whose entry passes the tests before its own is answered with what its effect says. -/
theorem State.act_takes {s t : State} {i j : Nat} {r : Req} {c : Caller} {e : Entry} (f : State → Caller → Entry → ActRes)
    (h : TakesAction s i j r c e t) : s.act i j f = answered (f t c e) r e := by
  obtain ⟨ht, he, ha, o, ho, hy, hl⟩ := h
  simp [State.act, State.apply_takes _ ht, he, ha, ho, hy, hl, answered, typeAt]

end Sys2Proof.Machine
end

