-- ==== Sys2Proof/WellFormed.lean ====
section
/-! DEFINITION. Which operands a command can carry: the widths and lengths that the spec gives to packets, messages, addresses,
records and sensors. The machine is total on every operand; a command from outside is well formed. -/

namespace Sys2Proof

/-- A UDP payload fits its datagram. -/
def rxPacketWf : RxPacket → Bool
  | .udp _ _ _ _ bs => decide (bs.length ≤ 65507)
  | .otherTransport | .fragmentOrExtension | .multicast | .vlanMismatch => true

/-- An HBM address has 40 bits (R461). -/
def addrWf (a : Nat) : Bool := decide (a < 2 ^ 40)

/-- Fields of a context image (R436). -/
def ctxInitWf (i : CtxInit) : Bool :=
  decide (i.ctxId < 0xFFFF) && decide (i.core < 8) && decide (i.cls < 3) && decide (i.prep < 4) && decide (i.tenant < 65536)
    && addrWf i.queueBase && decide (i.queueLog2 ≤ 8) && decide (i.cringLog2 ≤ 8) && addrWf i.cringBase && addrWf i.semsetBase
    && decide (i.semsetCount < 65536) && addrWf i.inboxBase && decide (i.stage < 256)

/-- Addresses that firmware gives a stream. -/
def openChoiceWf (c : OpenChoice) : Bool := addrWf c.stateAddr && addrWf c.shadowAddr && addrWf c.ringAddr

/-- Firmware's choices for a partition name extents, prep cores and semaphores that exist (R430, R463, R491). -/
def partChoiceWf (c : PartChoice) : Bool :=
  c.extents.all (fun q => decide (q.1 < 2) && decide (4 ≤ q.2) && decide (q.2 < 144)) && c.sysCtxs.all ctxInitWf
    && c.preps.all (fun q => decide (q.1 < 8) && decide (q.2 < 4))
    && c.semRange.all (fun q => decide (q.1 < 8) && decide (q.2.1 + q.2.2 ≤ 4096)) && addrWf c.releaseRing && addrWf c.linkRing

/-- Fields of a package's control section. -/
def packageWf (p : Package) : Bool :=
  decide (p.fmt < 16) && decide (p.dim < 65536) && decide (p.control.1 + p.control.2 ≤ 2 ^ 40) && p.links.all (fun l => decide (l < 8))
    && (match p.outKind with | none => true | some k => decide (2 ≤ k) && decide (k ≤ 4))

/-- A segment's number and place (R651, R653). -/
def segmentWf : Option SegmentDone → Bool
  | none => true
  | some g => decide (g.index < 262144) && addrWf g.addr && decide (g.addr + g.plain.length ≤ 2 ^ 40)

/-- Accumulator words lie in a tile of 64 rows and 33 columns, the check column included (R183, R209). -/
def flipsWf (l : AccFlips) : Bool := l.all (fun q => decide (q.1 < 64) && decide (q.2.1 < 33))

/-- A PTP message's domain, sequence number and timestamp (R24, R608). -/
def ptpMsgWf : PtpMsg → Bool
  | .announce _ d _ n => decide (d < 256) && decide (0 < n)
  | .sync _ d o => decide (d < 256) && decide (o < 2 ^ 64)
  | .syncTwoStep _ d q => decide (d < 256) && decide (q < 65536)
  | .followUp _ d q o => decide (d < 256) && decide (q < 65536) && decide (o < 2 ^ 64)
  | .delayResp _ d t => decide (d < 256) && decide (t < 2 ^ 64)

/-- An HBM request is for 1 to 4,096 bytes. -/
def hbmOpWf : HbmOp → Bool
  | .read n => decide (1 ≤ n) && decide (n ≤ 4096)
  | .write bs _ => decide (1 ≤ bs.length) && decide (bs.length ≤ 4096)

/-- A flit carries 242 payload bytes (R615). -/
def flitWf (f : Flit) : Bool := f.payload.length == 242

/-- A link message carries at most 4,096 bytes, or their coded form (R320, R624). -/
def linkMsgWf (m : LinkMsg) : Bool := decide (m.payload.length ≤ 4160)

/-- A reading of the 25 sensors (R681, R693). -/
def sensorReadingWf (r : SensorReading) : Bool := r.temps.length == 25

/-- A context has an identifier (R436). -/
def ctxIdWf (i : Nat) : Bool := decide (i < 0xFFFF)

/-- The command's operands are those that can come from outside. -/
def Instr.wf : Instr → Bool
  | .mediaPacket _ pkt _ | .unmatchedDatagram _ pkt => rxPacketWf pkt
  | .icmpEchoRequest _ _ _ data => decide (data.length ≤ 65507)
  | .clothaRequestReceive _ _ _ msg _ => decide (msg.length ≤ 65507)
  | .streamOpen c => openChoiceWf c
  | .bulkWritePackageStaging g => segmentWf g
  | .partitionCreate c => partChoiceWf c
  | .modelLoad c => packageWf c.pkg && c.ctxs.all ctxInitWf
  | .mgmtRead _ n => decide (1 ≤ n)
  | .mgmtWrite a bs => decide (1 ≤ bs.length) && (decide (0x10 ≤ a.toNat) || decide (a.toNat + bs.length ≤ 8))
  | .mgmtOtherCommand c e =>
    !((c == 0xEE && e == 0x11) || (c == 0x12 && e == 0xED) || (c == 0x05 && e == 0xFA) || (c == 0x06 && e == 0xF9))
  | .ptpMessage _ _ m => ptpMsgWf m
  | .nop i | .matmul i | .matmulGather i | .matmulScore i | .fence i | .semWait i | .semSignal i | .semWaitTimeout i
  | .creditAcquire i | .creditRelease i | .creditTimeout i | .streamStart i | .streamRearm i | .streamStop i | .vecRun i
  | .checkpoint i | .commandComplete i | .spillPairRequest i | .spillWalkTimeout i | .contextSwapStart i
  | .contextSwapDone i => ctxIdWf i
  | .accumulationDone _ f _ => flipsWf f
  | .segmentDone _ f g _ => flipsWf f && flipsWf g
  | .hbmRequest _ _ _ op _ => hbmOpWf op
  | .linkFlitReceive _ f => flitWf f
  | .linkKeyExchange _ k _ serial => k.length == 133 && serial.length == 16
  | .linkWriteMessage _ m | .linkReadRequest _ m | .linkResponse _ m => linkMsgWf m
  | .sensorSample r => sensorReadingWf r
  | .serviceFirmwareStart _ _ _ ps => ps.all (fun q => decide (q.1 < 8) && partChoiceWf q.2)
  | .contextRecreate i => ctxInitWf i
  | .frameReceiveDrop .. | .rxFifoWaitTimeout .. | .poolBufferGrant .. | .arpRequest .. | .neighbourSolicitation ..
  | .pauseFrame .. | .pauseExpiry .. | .portLinkChange .. | .chunkCloseAtBoundary .. | .lateLimitExpiry .. | .stepEligible ..
  | .roundForm .. | .roundYield .. | .roundEndStore .. | .checkpointReport .. | .chunkCommit .. | .resultDelivered ..
  | .deadlineExpiry .. | .streamContextFree .. | .streamClose | .ping | .read | .readTable | .info | .write | .bulkReadDump
  | .bulkReadEventLog | .bulkReadFirmwareStaging | .bulkWriteFirmwareStaging | .flashCommitDone | .partitionReady ..
  | .partitionDestroy | .jobSubmit | .jobCancel | .meRelease | .resetCore .. | .dumpRelease | .restoreDefaults | .keyEnrol ..
  | .keyRevoke | .decommission | .tenantEnrol | .tenantRemove | .fwVerify .. | .fwActivate | .fwActivationTimeout
  | .fwFloorRaise | .modelStage | .modelRemove | .attRequest | .srtpKeyWrite | .ppsEpochWrite | .timeSourceWrite | .alertClear
  | .powerDrain | .drainGraceExpiry | .telemetrySample .. | .telemetryWindowRead .. | .readStatus | .writeEnable | .reqGo ..
  | .respAck | .ppsInEdge | .timeSourceTimeout | .holdoverExpiry | .ppsOutPulse | .doorbell .. | .commandDispatch ..
  | .semaphoreOpApply .. | .creditGrant .. | .stealGrant .. | .workItemStart .. | .mismatchAgeOut .. | .conversionDone ..
  | .veBodyEnd .. | .codebookLoadStart .. | .codebookLoadDone .. | .extensionReadReturn .. | .handleEntryStore .. | .pageFree ..
  | .pageRelease .. | .prepFence .. | .linkRequest .. | .linkRequestComplete .. | .channelPieceIssue ..
  | .channelPieceWritten .. | .poolBufferTimeout .. | .windchestFill .. | .scrubStep .. | .eventLogCommit | .hangDetected ..
  | .dumpPartTimeout .. | .fenceReadExpiry .. | .fenceDrainComplete .. | .computeResetDone .. | .resume ..
  | .lcServiceResume .. | .clearanceIntervalEnd .. | .coreResetTimeout .. | .dieResetTimeout .. | .linkNak .. | .linkDown ..
  | .linkUp .. | .linkRetrainTimeout .. | .linkRekey .. | .linkWriteAckTimeout .. | .pwrEnHigh .. | .pwrEnLow
  | .railGroupInRegulation | .railSequenceTimeout | .railFault .. | .modRstAssert | .modRstRelease .. | .inputTrip ..
  | .thermalTrip .. | .bootRomCheck .. | .hbmTrainingDone .. | .moduleReady | .standbySupplyUp .. | .standbySupplyLoss
  | .pwrEnLowTimeElapsed | .railGroupBelowTenPercent | .keptResponseExpiry .. | .srtpKeyOverlapExpiry ..
  | .narrowViewAccess .. | .nextHopReply .. | .delayRequest => true

end Sys2Proof
end

