-- ==== Sys2Proof/Tests/Slice0.lean ====
section
/-! SUPPORT. Tests: the operand checks refuse ill-formed commands; concrete steps on a small state; and for each statement of
Obligations.lean states and operands that meet the hypotheses of each of its clauses. Expected values come from the rules. -/

namespace Sys2Proof.Tests

open Sys2Proof Sys2Proof.Machine Sys2Proof.Safety

set_option Elab.async false

/-! ### A small state: a module that runs, one partition of cores 0 to 3 for tenant 7, one resident model -/

def tCkpt : CkptEntry := { stage := 0, remPath := 50000, remCycles := 500000, fbPath := 0, fbCycles := 0, optCost := none, safeguarded := false, optFollows := false, wider := none }

def tTable : CostTable := { period := 2, fallback := false, e := [1000000], p := 100000, q := [10000], o := [4096], m := 0, xb := 0, hb := 0, lb1 := 0, lb2 := 0, s := 64, k := 0, y := 160, ckpts := [tCkpt] }

def tPkg : Package := { tenant := 7, modelId := 17, version := 1, minSf := 0, stages := [⟨1, 4⟩], hasFallback := false, layoutDeclared := false, tables := [tTable], frameStep := 0, dim := 0, fmt := 0, outKind := none, spill := none, links := [], slotTables := [], watched := [], flush := [], flushProg := none, control := (0,0), training := true, wideBytes := 4096, manifestHash := 0 }

def tPart : PartRec := { cores := 0x0F, tenant := 7, quota := [4, 0], ways := [2, 0], prepPerCore := 1, ctxPerCore := 16, createdNs := 0, releaseRing := 0x100000000, linkRing := 0x100020000 }

def tModel : ModelSlot := { state := 2, modelId := 17, part := 0, die := 0, bytes := 1048576, pkg := some tPkg }

def tKey (id role tenant : Nat) : KeyRec := { keyId := id, role := role, tenant := tenant, enrolledNs := 0, wrapped := [], high := 100, seen := 1, reserve := 0x100000 }

def tTenant : TenantRec := { tenant := 7, pkgKey := [] }

/-- An HBM context on core 0 for stage 0 of the model. -/
def tCtx : Ctx := { core := 0, part := 0, cls := 0, tenant := 7, queueBase := 0x101000000, cringBase := 0x101010000, slot := some 0 }

def tStream : StreamCtx := { period := 2, part := 0, core := 0, modelSlot := 0, tenant := 7, promise := 10000000, reserve := 1000000, lateLimit := 1000000, localPort := 5004, remoteAddr := 0xFFFFC0A80002, remotePort := 5004 }

def tChunk : Chunk := { idx := 0, accept := 10000000000, deadline := 10010000000, flags := 0 }

def tPortUp : Port := { up := true, hops := [(0xFFFFC0A80002, 0x0A0B0C0D0E0F)] }

def tComm : CommPort := { ipv6 := 0xFD000000000000000000000000000001, ipv6Prefix := 64, ipv4 := 0xC0A80001, ipv4Prefix := 24 }

/-- An active image of a KIND, with SVN 1. -/
def tImage (kind : Byte) : FwSlot := { state := 3, bytes := [(0, 0x47), (1, 0x4D), (2, 0x49), (3, 0x4C), (4, kind), (12, 1)] }

def rig : State :=
  { aon := { phase := .running, clock := 20000000000, pwrEn := true, lowSince := none, groups := 6, inputMv := 54000, boot := .ready, hubUp := true, ready := true, ligSlot := some 0, sfSlot := some 2 }
    time := { now := 10000000000, running := true, state := 2 }
    persist := { parts := [(0, tPart)], extents := [(4, 0), (5, 0), (6, 0), (7, 0)], tenants := [(0, tTenant)]
                 commPort := [(0, tComm), (1, tComm)], fwSlots := [(0, tImage 1), (2, tImage 2)], keys := [(1, tKey 1 1 0), (2, tKey 2 2 7), (3, tKey 3 3 0)] }
    cores := [(0, { preps := [(0, 0)] })]
    ctxs := [(5, tCtx)]
    clotha := { dictReady := true }
    net := { ports := [(0, tPortUp), (1, tPortUp)] }
    svc := { partReady := [0], models := [(0, tModel)], sfRunning := true } }

def withStream (s : State) (x : StreamCtx) : State := { s with streams := { s.streams with ctx := [(3, x)] } }

/-- A request of a key in the hub's queue. -/
def tReq (key opcode : Nat) (body : List Byte) : Req := { via := .mgmt, opcode := opcode, keyId := key, counter := 101, reqId := 9, body := body }

def withReq (s : State) (r : Req) : State := { s with clotha := { s.clotha with queue := [r] } }

def noReq (s : State) : State := { s with clotha := { s.clotha with queue := [] } }

/-- The body of one entry. -/
def tEntry (e : Entry) : List Byte := entryOut e.index e.sub e.typ false 0 e.value

/-- A write of one action. -/
def tWrite (key : Nat) (e : Entry) : Req := tReq key 2 (tEntry e)

theorem takes_of {s : State} {k : Kind} {r : Req} {c : Caller} (h1 : s.clotha.dictReady = true)
    (h2 : pickReq k s.clotha.queue = some (r, [])) (h3 : (noReq s).caller r = some c) : Takes s k r c (noReq s) :=
  ⟨h1, [], h2, rfl, h3⟩

/-- The conditions of TakesAction, as a test. -/
def takesB (s : State) (index sub : Nat) (r : Req) (c : Caller) (e : Entry) : Bool :=
  s.clotha.dictReady && decide (pickReq (.action index sub) s.clotha.queue = some (r, [])) && decide ((noReq s).caller r = some c)
    && decide (r.entries = [e]) && decide ((noReq s).accessTests c e.index e.sub true = none)
    && (match objAt e.index e.sub with | none => false | some o => e.typ == o.typ && e.value.length == o.len)

theorem takesAction_of {s : State} {index sub : Nat} {r : Req} {c : Caller} {e : Entry} (h : takesB s index sub r c e = true) :
    TakesAction s index sub r c e (noReq s) := by
  simp only [takesB, Bool.and_eq_true, decide_eq_true_eq] at h
  obtain ⟨⟨⟨⟨⟨h1, h2⟩, h3⟩, h4⟩, h5⟩, h6⟩ := h
  split at h6
  · cases h6
  · rename_i o ho
    simp only [Bool.and_eq_true, beq_iff_eq] at h6
    exact ⟨takes_of h1 h2 h3, h4, h5, o, ho, h6.1, h6.2⟩

def withPort (p : Port) : State := { rig with net := { rig.net with ports := [(0, p)] } }

/-- An RTP packet: version 2, payload type 96, SSRC 0, one sample. -/
def tRtp : List Byte := [0x80, 96, 0, 1, 0, 0, 0, 0, 0, 0, 0, 0, 1, 2]

def tFrame : FifoFrame := { media := false, bytes := 100, since := 0, pkt := .udp 0xFFFFC0A80002 4000 5004 true tRtp, authOk := true }

def withFifo (f : FifoFrame) : State := withPort { tPortUp with fifo := [f] }

def withCore (k : Core) : State := { rig with cores := [(0, k)] }

def tOldKeys : SrtpSlot := { owner := 7, keys := [], old := some (10000000000, []) }

/-- A stream whose first chunk is whole: its last sample came at its boundary. -/
def tWhole : StreamCtx := { tStream with anchored := true, anchorNs := 9980000000, arrived := [{ ts := 0, len := 160, data := List.replicate 320 1, at_ := 10000000000, seq := 1 }] }

/-- A stream whose first chunk has no packet at its late limit. -/
def tLate : StreamCtx := { tStream with anchored := true, anchorNs := 9979000000 }

def tStep : ReadyStep := { step := { id := 3, chunk := 0 }, slot := 0, stage := 0, fallback := false, be := false, deadline := 10010000000, since := 10000000000, tenant := 7 }

def tRound : Round := { seq := 0, ctx := 5, slot := 0, stage := 0, fallback := false, be := false, steps := [tStep], deadline := 10010000000, formedNs := 10000000000 }

def tReport : CkptReport := { ctx := 5, seq := 0, n := 0, ckpt := 0, fallback := false, stream := 3, poison := false, clip := false, chunk := 0, be := false }

def tResult : EgressResult := { stream := 3, chunk := 0, be := false, deadline := 10010000000, want := 1, held := true, draw := 0 }

def tEgress : State :=
  let s := withStream rig { tStream with chunks := [tChunk] }
  { s with streams := { s.streams with egress := [(0, [tResult])] } }

/-- An open record: tenant 7, partition 0, a period code, model 17, port 0, G.711, 10 ms, UDP port 5004. -/
def tOpen (period : Nat) : List Byte :=
  toLe 64 (7 + period * 2 ^ 20 + 17 * 2 ^ 32 + 10000000 * 2 ^ 64 + 1000000 * 2 ^ 96 + 1000000 * 2 ^ 128 + 5004 * 2 ^ 224)

def tJob : Job := { state := 2, tenant := 7, part := 0, cores := 1, modelId := 17, steps := 10, peers := 0, memBytes := 4096 }

/-- A context that firmware creates: identifier, core, class, and the extent that holds its queue and rings. -/
def tInit (id core cls prep tenant base : Nat) : CtxInit := { ctxId := id, core := core, cls := cls, pin := cls == 2, prep := prep, tenant := tenant, queueBase := base, queueLog2 := 0, cringLog2 := 0, cringBase := base + 0x10000, semsetBase := 0, semsetCount := 0, inboxBase := base + 0x20000, stage := 0, fallback := false }

/-- Firmware's choices for a partition of core 4 with one extent of die 1. -/
def tChoice : PartChoice := { extents := [(1, 4)], sysCtxs := [tInit 4096 4 2 0 0 0x4100100000], preps := [(4, 0)], semRange := [(4, 0, 16)], releaseRing := 0x4100000000, linkRing := 0x4100010000 }

/-- A staged package of one segment for tenant 7 and model 17. -/
def tStaged : ModelSlot := { state := 1, modelId := 17, part := 0, die := 0, bytes := 1048576, manifest := [(0, 0x47), (1, 0x4B), (2, 0x50), (3, 0x4C), (4, 1), (8, 7), (10, 17), (12, 1), (20, 20), (24, 1)], covered := [(0, 708)], segs := [(0, true)] }

def tLoad : LoadChoice := { pkg := tPkg, sigOk := true, segsOk := true, ctxs := [tInit 20 0 0 0 7 0x100400000, tInit 21 0 0 0 7 0x100500000, tInit 22 0 1 0 7 0x100600000] }

def withModel (m : ModelSlot) : State := { rig with persist := { rig.persist with parts := [(0, { tPart with cores := 1 })] }, svc := { rig.svc with models := [(1, m)] } }

def noParts : State := { rig with persist := { rig.persist with parts := [] } }

def withSlot (f : FwSlot) : State := { rig with persist := { rig.persist with fwSlots := [(0, tImage 1), (2, tImage 2), (3, f)] } }

def withJob : State := { rig with svc := { rig.svc with jobs := [(0, tJob)] } }

/-- The first 96 bytes of a PING: header with KEY_ID 1 and a COUNTER, no body, tag. -/
def tPing (counter : Nat) : List Byte := [1, 0, 0, 0, 1, 0, 0, 0] ++ toLe 8 counter ++ toLe 4 9 ++ List.replicate 76 0

/-- A bulk body: region, selector, length, offset, data. -/
def tBulk (region : Byte) (sel len off : Nat) (bs : List Byte) : List Byte := [region] ++ toLe 2 sel ++ [0] ++ toLe 4 len ++ toLe 8 off ++ bs

def tMap : TelMap := { enable := true, transport := 2, keyId := 1, count := 1, addrs := [(0x1200, 0)] }

def withTime (t : TimeBase) : State := { rig with time := t }

/-- A context whose queue in HBM holds one NOP with a SEQ. -/
def tQueued (seq : Byte) (ct : Ctx) : State :=
  { withCore { preps := [(0, 0)], slots := [(0, 5)] } with ctxs := [(5, ct)], mem := { hbm := wrBytes [] 0x101000000 [0, 4, 5, 0, 0, 0, seq] } }

def tTail : Ctx := { tCtx with tail := 1 }

/-- A descriptor of one stage for context 5 of partition 0. -/
def tDesc (op rest : Nat) : Nat := op + 2 ^ 10 + 5 * 2 ^ 16 + rest * 2 ^ 64

def tCmd (op rest : Nat) : Cmd := { ctx := 5, seq := 0, descs := [BitVec.ofNat 512 (tDesc op rest)] }

def withCmd (c : Cmd) : State := withCore { preps := [(0, 0)], cmds := [c] }

def tWait : SemWait := { ctx := 5, core := 0, slot := 0, index := 4095, take := true, value := 3 }

/-- A MATMUL of one row, one column and K reduction steps in a format, with or without its check column. -/
def tMatmul (fmt k check : Nat) : Cmd :=
  { tCmd 1 (fmt * 2 ^ 8 + fmt * 2 ^ 72 + 2 ^ 128 + 2 ^ 144 + k * 2 ^ 160 + check * 2 ^ 265) with phase := .running, stage := 1, left := 1 }

def tItem : WorkItem := { ctx := 5, seq := 0, stage := 0, rt := 0, ct := 0, home := 0, first := 0 }

def withEngine (g : Engine) (c : Cmd) : State := withCore { preps := [(0, 0)], engines := [(15, g)], cmds := [c] }

def tRun : Engine := { running := some (tItem, 0), set0 := { state := .filling, item := some tItem } }

def tFreed (l : List (Word64 × Nat)) : State := { rig with mem := { freed := [(0, l)] } }

def tLinkReq : LinkReq := { part := 0, idx := 1023, word := 0, left := 0 }

def withLink (k : Link) : State := { rig with links := [(7, k)] }

def tLinkWait : LinkWait := { tag := 1023, req := none, ctx := none, op := 0, dest := 0, len := 4, part := 0, since := 9999985000 }

/-- A command whose walk still fetches one pair from peer 2. -/
def tWalk (asked : Option Nat) : Cmd := { tCmd 2 0 with phase := .running, walk := some { epoch := 4, stage := 0, pairs := [(2, 1, 0, 0, 0, 0)], asked := asked } }

/-- A running channel that copies 64 bytes of HBM to handle 1. -/
def tChan : Channel := { state := .running, desc := BitVec.ofNat 256 (2 ^ 2 + 2 ^ 24 + 2 ^ 48 + 64 * 2 ^ 104), ctx := 5 }

/-- A running channel that pushes 64 bytes to a handle of core 1. -/
def tPush : Channel := { state := .running, desc := BitVec.ofNat 256 (2 * 2 ^ 2 + 2 ^ 8 + 2 ^ 48 + 64 * 2 ^ 104), ctx := 5 }

def withChan (c : Channel) : State := withCore { preps := [(0, 0)], channels := [(63, c)] }

def tEvent : EventRec := { time := 9999998000, event := 0x3007, code := 0, kind := 0, index := 0, late := false, detail := [] }

def withSeq (q : Sequencer) : State := withCore { seqr := q }

/-- A flit with a SEQ. -/
def tFlit (seq : Nat) (ok : Bool) : Flit := { header := BitVec.ofNat 64 (seq * 2 ^ 48), payload := List.replicate 242 0, crcOk := ok }

def tPeer : State := { rig with persist := { rig.persist with linkPeer := [(7, List.replicate 133 4)] } }

/-- A link message of partition 0: OP, TC, TAG 1023, LENGTH, OFFSET 0. -/
def tMsg (op tc len : Nat) (bs : List Byte) (ok : Bool) : LinkMsg := { header := BitVec.ofNat 128 (op * 2 ^ 124 + tc * 2 ^ 121 + 1023 * 2 ^ 96 + len * 2 ^ 64), payload := bs, tagOk := ok, coded := false }

/-- The extent that a partition's window on link 7 holds at the offset of a message, and link 7 up with that extent the
partition's. -/
def tExtent (part off : Nat) : Nat := Config.windowExtent 7 part (off / extentBytes) % 280

def tWindow (part off : Nat) : State := { withLink { up := true, trained := true, epoch := some 0 } with persist := { rig.persist with
  extents := [(tExtent part off / 140 * 144 + (4 + tExtent part off % 140), part)] } }

theorem owner_of {s : State} {e a p : Nat} (h : e < 280) (hs : s.persist.extents = [(e / 140 * 144 + (4 + e % 140), p)])
    (h1 : e / 140 * 0x4000000000 + (4 + e % 140) * 0x40000000 ≤ a) (h2 : a < e / 140 * 0x4000000000 + (5 + e % 140) * 0x40000000) :
    s.hbmOwner a = some p := by
  have hx : e % 140 < 140 := Nat.mod_lt _ (by decide)
  have hd : e / 140 = 0 ∨ e / 140 = 1 := by omega
  unfold State.hbmOwner hbmPlace
  rcases hd with hd | hd <;> simp only [hd] at h1 h2 hs
  · have hq : a / 0x40000000 = 4 + e % 140 := by omega
    rw [if_pos (by omega)]
    simp [Persist.extentOwner, extentBytes, hq, hs, kgetD, kget?]
    try omega
  · have hq : (a - 0x4000000000) / 0x40000000 = 4 + e % 140 := by omega
    rw [if_neg (by omega), if_pos (by omega)]
    simp [Persist.extentOwner, extentBytes, hq, hs, kgetD, kget?]
    try omega

theorem tWindow_in {s : State} {part off n : Nat}
    (hs : s.persist.extents = [(tExtent part off / 140 * 144 + (4 + tExtent part off % 140), part)]) (hn : 0 < n)
    (hf : off % extentBytes + n ≤ extentBytes) : s.inWindow 7 part off n = true := by
  have h : tExtent part off < 280 := Nat.mod_lt _ (by omega)
  have hw : windowAddr 7 part off
      = tExtent part off / 140 * 0x4000000000 + (4 + tExtent part off % 140) * extentBytes + off % extentBytes := rfl
  have hb : extentBytes = 0x40000000 := rfl
  unfold State.inWindow State.ownedBy
  generalize windowAddr 7 part off = a at hw ⊢
  rw [hb] at hw hf ⊢
  have h1 : s.hbmOwner a = some part := owner_of h hs (by omega) (by omega)
  have h2 : s.hbmOwner (a + n - 1) = some part := owner_of h hs (by omega) (by omega)
  have h3 : n ≤ 0x40000000 := by omega
  simp only [h1, h2, h3, hf, BEq.rfl, Bool.or_true, Bool.and_true, decide_true]

theorem tDrained (s : State) (m : LinkMsg) (h : (s.link 7).up = true) :
    s.linkMsg? 7 m = some (s.linkDrained 7 (lhTc m.header.toNat) m.payload.length) := by
  simp [State.linkMsg?, h]

/-- A state in which a message lies in its partition's window. -/
def tIn (m : LinkMsg) : State := tWindow (lhPart m.header.toNat) (lhOff m.header.toNat)

def withAon (a : Aon) : State := { rig with aon := a }

def tReading : SensorReading := { inputMv := 54000, inputMa := 1000, temps := List.replicate 25 40000, flow := 5000 }

theorem tOutside : ((withLink { up := true }).linkDrained 7 2 4).inWindow 7 7 0x3FFFFFFF 4 = false := by
  unfold State.inWindow
  exact (Bool.and_eq_false_iff).mpr (Or.inr (by decide +kernel))

/-! ### Ill-formed operands are refused -/

theorem test_wf_datagram : (Instr.mediaPacket 0 (.udp 0 0 0 true (List.replicate 65508 0)) true).wf = false := by
  simp only [Instr.wf, rxPacketWf, List.length_replicate]; decide
theorem test_wf_other_datagram : (Instr.unmatchedDatagram 0 (.udp 0 0 0 true (List.replicate 65508 0))).wf = false := by
  simp only [Instr.wf, rxPacketWf, List.length_replicate]; decide
theorem test_wf_echo : (Instr.icmpEchoRequest 0 0 0 (List.replicate 65508 0)).wf = false := by
  simp only [Instr.wf, List.length_replicate]; decide
theorem test_wf_request : (Instr.clothaRequestReceive 0 0 0 (List.replicate 65508 0) true).wf = false := by
  simp only [Instr.wf, List.length_replicate]; decide
theorem test_wf_open_addresses : (Instr.streamOpen ⟨0, 2 ^ 40, 0, 0⟩).wf = false ∧ (Instr.streamOpen ⟨0, 0, 2 ^ 40, 0⟩).wf = false
    ∧ (Instr.streamOpen ⟨0, 0, 0, 2 ^ 40⟩).wf = false := by decide
theorem test_wf_segment : (Instr.bulkWritePackageStaging (some ⟨262144, true, 0, []⟩)).wf = false
    ∧ (Instr.bulkWritePackageStaging (some ⟨0, true, 2 ^ 40, []⟩)).wf = false
    ∧ (Instr.bulkWritePackageStaging (some ⟨0, true, 2 ^ 40 - 1, [0, 0]⟩)).wf = false := by decide
theorem test_wf_extents : (Instr.partitionCreate { tChoice with extents := [(2, 4)] }).wf = false
    ∧ (Instr.partitionCreate { tChoice with extents := [(1, 3)] }).wf = false
    ∧ (Instr.partitionCreate { tChoice with extents := [(1, 144)] }).wf = false := by decide
theorem test_wf_choice : (Instr.partitionCreate { tChoice with preps := [(8, 0)] }).wf = false
    ∧ (Instr.partitionCreate { tChoice with preps := [(0, 4)] }).wf = false
    ∧ (Instr.partitionCreate { tChoice with semRange := [(8, 0, 1)] }).wf = false
    ∧ (Instr.partitionCreate { tChoice with semRange := [(0, 4000, 97)] }).wf = false
    ∧ (Instr.partitionCreate { tChoice with releaseRing := 2 ^ 40 }).wf = false
    ∧ (Instr.partitionCreate { tChoice with linkRing := 2 ^ 40 }).wf = false := by decide
theorem test_wf_context_id : (Instr.contextRecreate (tInit 0xFFFF 0 0 0 7 0)).wf = false ∧ (Instr.nop 0xFFFF).wf = false := by decide
theorem test_wf_context : (Instr.contextRecreate (tInit 5 8 0 0 7 0)).wf = false ∧ (Instr.contextRecreate (tInit 5 0 3 0 7 0)).wf = false
    ∧ (Instr.contextRecreate (tInit 5 0 0 4 7 0)).wf = false ∧ (Instr.contextRecreate (tInit 5 0 0 0 65536 0)).wf = false
    ∧ (Instr.contextRecreate { tInit 5 0 0 0 7 0 with queueBase := 2 ^ 40 }).wf = false
    ∧ (Instr.contextRecreate { tInit 5 0 0 0 7 0 with queueLog2 := 9 }).wf = false
    ∧ (Instr.contextRecreate { tInit 5 0 0 0 7 0 with cringLog2 := 9 }).wf = false
    ∧ (Instr.contextRecreate { tInit 5 0 0 0 7 0 with cringBase := 2 ^ 40 }).wf = false
    ∧ (Instr.contextRecreate { tInit 5 0 0 0 7 0 with semsetBase := 2 ^ 40 }).wf = false
    ∧ (Instr.contextRecreate { tInit 5 0 0 0 7 0 with semsetCount := 65536 }).wf = false
    ∧ (Instr.contextRecreate { tInit 5 0 0 0 7 0 with inboxBase := 2 ^ 40 }).wf = false
    ∧ (Instr.contextRecreate { tInit 5 0 0 0 7 0 with stage := 256 }).wf = false := by decide
theorem test_wf_package : (Instr.modelLoad { tLoad with pkg := { tPkg with fmt := 16 } }).wf = false
    ∧ (Instr.modelLoad { tLoad with pkg := { tPkg with dim := 65536 } }).wf = false
    ∧ (Instr.modelLoad { tLoad with pkg := { tPkg with links := [8] } }).wf = false
    ∧ (Instr.modelLoad { tLoad with pkg := { tPkg with outKind := some 1 } }).wf = false
    ∧ (Instr.modelLoad { tLoad with pkg := { tPkg with outKind := some 5 } }).wf = false
    ∧ (Instr.modelLoad { tLoad with ctxs := [tInit 20 8 0 0 7 0] }).wf = false := by decide
theorem test_wf_mgmt : (Instr.mgmtRead 0 0).wf = false ∧ (Instr.mgmtWrite 0x1000 []).wf = false ∧ (Instr.mgmtWrite 4 [1, 2, 3, 4, 5]).wf = false
    ∧ (Instr.mgmtOtherCommand 0xEE 0x11).wf = false ∧ (Instr.mgmtOtherCommand 0x12 0xED).wf = false
    ∧ (Instr.mgmtOtherCommand 0x05 0xFA).wf = false ∧ (Instr.mgmtOtherCommand 0x06 0xF9).wf = false := by decide
theorem test_wf_ptp : (Instr.ptpMessage 0 .udp4 (.announce 1 256 0 1)).wf = false ∧ (Instr.ptpMessage 0 .udp4 (.announce 1 0 0 0)).wf = false
    ∧ (Instr.ptpMessage 0 .udp4 (.sync 1 256 0)).wf = false ∧ (Instr.ptpMessage 0 .udp4 (.syncTwoStep 1 0 65536)).wf = false
    ∧ (Instr.ptpMessage 0 .udp4 (.followUp 1 0 65536 0)).wf = false ∧ (Instr.ptpMessage 0 .udp4 (.delayResp 1 256 0)).wf = false
    ∧ (Instr.ptpMessage 0 .udp4 (.sync 1 0 (2 ^ 64))).wf = false := by decide
theorem test_wf_flips : (Instr.accumulationDone ⟨0, 0⟩ [(64, 0, 1)] []).wf = false ∧ (Instr.segmentDone ⟨0, 0⟩ [] [(0, 33, 1)] []).wf = false := by decide
theorem test_wf_hbm : (Instr.hbmRequest 0 (.module .engines) 0 (.read 0) .clean).wf = false ∧ (Instr.hbmRequest 0 (.module .engines) 0 (.read 4097) .clean).wf = false
    ∧ (Instr.hbmRequest 0 (.module .engines) 0 (.write [] false) .clean).wf = false
    ∧ (Instr.hbmRequest 0 (.module .engines) 0 (.write (List.replicate 4097 0) false) .clean).wf = false := by decide +kernel
theorem test_wf_links : (Instr.linkFlitReceive 0 { tFlit 0 true with payload := List.replicate 241 0 }).wf = false
    ∧ (Instr.linkKeyExchange 0 (List.replicate 132 0) true (List.replicate 16 0)).wf = false
    ∧ (Instr.linkKeyExchange 0 (List.replicate 133 0) true (List.replicate 15 0)).wf = false
    ∧ (Instr.linkResponse 0 (tMsg 3 2 0 (List.replicate 4161 0) true)).wf = false := by decide +kernel
theorem test_wf_sensors : (Instr.sensorSample { tReading with temps := [] }).wf = false := by decide
theorem test_wf_start : (Instr.serviceFirmwareStart ⟨true, true, true⟩ ⟨true, true, true⟩ true [(8, tChoice)]).wf = false := by decide
theorem test_wf_accepts : (Instr.partitionCreate tChoice).wf = true ∧ (Instr.modelLoad tLoad).wf = true ∧ (Instr.sensorSample tReading).wf = true
    ∧ (Instr.linkFlitReceive 0 (tFlit 0 true)).wf = true := by decide +kernel

/-! ### Single steps, with results from the rules -/

/-- The state that a command answers; after a stop, the state itself. -/
def after (i : Instr) (s : State) : State :=
  match exec i s with
  | .next t => t
  | _ => s

/-- R615: a flit of any other length is none. -/
theorem test_not_a_flit : (match exec (.linkFlitReceive 0 { header := 0, payload := [], crcOk := true }) rig with | .fault f => f == .notAFlit | _ => false) = true := by
  decide +kernel
/-- R678: the bits of the mask are cleared, the others stay. -/
theorem test_alert_clear : (after .alertClear (withReq { rig with aon := { rig.aon with alert := 7 } } (tWrite 1 ⟨0xA021, 0, 4, [5, 0, 0, 0]⟩))).aon.alert = 2 := by
  decide +kernel
/-- R495: an ADD is modulo 2^32. -/
theorem test_semaphore_add_wraps : (after (.semaphoreOpApply 0 9) (withCore { sems := { vals := [(9, 3)], ops := [(9, .add 0xFFFFFFFF)] } })).semVal 0 9 = 2 := by
  decide +kernel
/-- R493: a TAKE of 3 from 3 leaves 0. -/
theorem test_take_to_zero : ((withCore { sems := { vals := [(4095, 3)] } }).applyTakes 0 4095 [tWait]).semVal 0 4095 = 0 := by decide +kernel
/-- R438: a doorbell sets TAIL from bits 31:16 and CRING_RD from bits 47:32. -/
theorem test_doorbell : ((after (.doorbell 0 0 0x200100005) rig).ctx? 5).map (fun c => (c.tail, c.cringRd)) = some (16, 2) := by decide +kernel
/-- R194, R196: the head command is dispatched with the context's sequence number. -/
theorem test_dispatch : (((after (.commandDispatch 0) (tQueued 0 tTail)).core 0).cmds.map (fun c => (c.ctx, c.seq)), ((after (.commandDispatch 0) (tQueued 0 tTail)).ctx? 5).map (·.head)) = ([(5, 0)], some 1) := by
  decide +kernel
/-- R196: a command out of sequence halts its context. -/
theorem test_reject : ((after (.commandDispatch 0) (tQueued 1 tTail)).ctx? 5).map (fun c => (c.halted, c.cringWr)) = some (true, 1) := by decide +kernel
/-- R660: above 60.0 V the module shuts down; at 60.0 V it runs on. -/
theorem test_input_trip : (after (.inputTrip true 60001) rig).aon.phase = .shutdown ∧ (after (.inputTrip true 60000) rig).aon.phase = .running := by decide +kernel
/-- R658: the standby range begins at 40 V. -/
theorem test_standby_range : (after (.standbySupplyUp 39999) State.reset).aon.phase = .unpowered ∧ (after (.standbySupplyUp 40000) State.reset).aon.phase = .standby := by
  decide +kernel
/-- R608: the mean path delay is half of (t2 - t1) + (t4 - t3). -/
theorem test_path_delay : (after (.ptpMessage 0 .udp4 (.delayResp 1 0 500)) (withTime { rig.time with master := some 1, t1t2 := some (100, 300), t3 := some 400 })).time.delay = 150 := by
  decide +kernel
/-- R612: PPS_OUT stays high for 100 ms. -/
theorem test_pps_out : (after .ppsOutPulse (withTime { rig.time with ppsOn := true })).time.ppsHighUntil = some 10100000000 := by decide +kernel
/-- R549, R552: the response to a PING is a header and a tag, 96 bytes. -/
theorem test_ping : (after .ping (withReq rig (tReq 1 0 []))).clotha.respBytes = 96 := by decide +kernel
/-- R42, R540: a headroom of 16 is taken, one of 15 is not. -/
theorem test_headroom : (after .write (withReq rig (tReq 1 2 (tEntry ⟨0x2001, 1, 3, [16, 0]⟩)))).persist.headroom = 16
    ∧ (after .write (withReq rig (tReq 1 2 (tEntry ⟨0x2001, 1, 3, [15, 0]⟩)))).persist.headroom = 64 := by decide +kernel
/-- R62, R64: an admitted stream is open on a core of its partition with its promise. -/
theorem test_open : ((after (.streamOpen ⟨0, 0, 0, 0x101000000⟩) (withReq rig (tWrite 2 ⟨0x2000, 1, 13, tOpen 2⟩))).stream? 0).map (fun x => (x.core, x.promise, x.tenant)) = some (0, 10000000, 7) := by
  decide +kernel
/-- R13, R47: the chunk that closes has the deadline that the promise gives. -/
theorem test_close : ((after (.chunkCloseAtBoundary 3) (withStream rig tWhole)).stream? 3).map (fun x => x.chunks.map (fun c => (c.accept, c.deadline, c.flags))) = some [(10000000000, 10010000000, 0)] := by
  decide +kernel
/-- R48, R49: with no packet the chunk closes at the late limit, and carries GAP. -/
theorem test_late_close : ((after (.lateLimitExpiry 3) (withStream rig tLate)).stream? 3).map (fun x => x.chunks.map (fun c => (c.accept, c.flags))) = some [(10000000000, 0x10)] := by
  decide +kernel
/-- R80, R81: a miss is counted at the deadline, not before it. -/
theorem test_miss : (after (.deadlineExpiry 3) (withStream rig { tStream with chunks := [{ tChunk with deadline := 10000000000 }] })).streams.missTotal = 1
    ∧ (after (.deadlineExpiry 3) (withStream rig { tStream with chunks := [{ tChunk with deadline := 10000000001 }] })).streams.missTotal = 0 := by decide +kernel
/-- R464: a write within the partition's extents is done; one that leaves them is not. -/
theorem test_hbm_write : (after (.hbmRequest 0 (.partition 0) 0x1FFFFFFFF (.write [7] false) .clean) rig).hbmRead 0x1FFFFFFFF 1 = [7]
    ∧ (after (.hbmRequest 0 (.partition 0) 0x1FFFFFFFF (.write [7, 8] false) .clean) rig).hbmRead 0x1FFFFFFFF 1 = [0] := by decide +kernel
/-- R652: the lowest free bytes lie around what something holds, and make up the number asked for. -/
theorem test_lowest_free : takeRanges (cutOut [(0, 100)] (10, 20)) 30 = [(0, 10), (30, 20)] := by decide
/-- R223: a tile that fails its check leaves its set free and goes to the re-run queue with the engine excluded. -/
theorem test_check_fails : (((after (.accumulationDone ⟨0, 15⟩ [(0, 0, 1)] []) (withEngine tRun (tMatmul 0 1 1))).engine 0 15).set0.state, ((after (.accumulationDone ⟨0, 15⟩ [(0, 0, 1)] []) (withEngine tRun (tMatmul 0 1 1))).core 0).rerun.map (·.excluded)) = (.free, [some 15]) := by
  decide +kernel
/-- R616: a bad CRC is answered with a NAK that names the flit before the expected one, modulo 4,096. -/
theorem test_nak : (after (.linkFlitReceive 7 (tFlit 0 false)) (withLink { trained := true })).net.tx = [.linkNak 7 4095] := by decide +kernel
/-- R113: nearest, ties to even. -/
theorem test_rne : (roundNat .rne ⟨5, 2⟩, roundNat .rne ⟨7, 2⟩, roundNat .rna ⟨5, 2⟩) = (2, 4, 3) := by decide +kernel
/-- R145 to R151: an INT4 result saturates at 7 and -8. -/
theorem test_int4 : ((convInt 2 .rne 0 (.fin false ⟨100, 1⟩)).1, (convInt 2 .rne 0 (.inf true)).1) = (7, 8) := by decide +kernel
/-- The table's own words give no bits, so no word spells a command. -/
theorem test_no_words : decodeTableWord 32 0 = none := rfl

/-! ### Witnesses: for each clause of a statement, a state and operands that meet its hypotheses -/

theorem witness_StepRunsFrontCommand :
    ∃ (s : State) (c : Instr) (rest : List Instr), s.pending = c :: rest :=
  ⟨{ rig with pending := [.respAck, .ping] }, .respAck, [.ping], by decide +kernel⟩

theorem witness_EmptyQueueTicks :
    ∃ (s : State), s.pending = [] :=
  ⟨rig, by decide +kernel⟩

theorem witness_StepConsumesOneCommand :
    (∃ (i : Instr) (s t : State), exec i s = .next t)
    ∧ (∃ (s t : State) (c : Instr) (rest : List Instr), s.pending = c :: rest ∧ step s = .next t) :=
  ⟨⟨.respAck, rig, _, rfl⟩,
   ⟨{ rig with pending := [.respAck] }, _, _, _, ⟨rfl, rfl⟩⟩⟩

theorem witness_StepKeepsHbmCanonical :
    ∃ (s t : State), HbmOk s ∧ step s = .next t :=
  ⟨{ rig with pending := [.respAck], mem := { rig.mem with hbm := [(3, 7), (9, 1)] } }, _, ⟨by unfold HbmOk; decide +kernel, rfl⟩⟩

theorem witness_StepKeepsBoreCanonical :
    ∃ (s t : State), BoreOk s ∧ step s = .next t :=
  ⟨{ rig with pending := [.respAck], cores := [] }, _, ⟨fun _ => rfl, rfl⟩⟩

theorem witness_PortDropsAreCounted :
    (∃ (s : State) (port : Fin 2), (s.port port).up = true)
    ∧ (∃ (s : State) (port : Fin 2) (dst : Word16) (bs : List Byte), (s.port port).up = true ∧ s.classify port dst bs = .other)
    ∧ (∃ (s : State) (port : Fin 2) (f : FifoFrame) (rest : List FifoFrame), (s.port port).fifo = f :: rest ∧ f.since + 50000 ≤ s.now) :=
  ⟨⟨rig, 1, by decide +kernel⟩,
   ⟨rig, 1, 5004, [1, 2], by decide +kernel⟩,
   ⟨withFifo { tFrame with since := 9999950000 }, 0, _, [], ⟨rfl, by decide +kernel⟩⟩⟩

theorem witness_PortsAnswerNeighbours :
    (∃ (s : State) (port : Fin 2) (target : BitVec 32), (s.port port).up = true ∧ (s.port port).holdUntil = none ∧ (kgetD s.persist.commPort port {}).ipv4 ≠ 0 ∧ target = (kgetD s.persist.commPort port {}).ipv4)
    ∧ (∃ (s : State) (port : Fin 2) (target : IpAddr), (s.port port).up = true ∧ (s.port port).holdUntil = none ∧ s.holdsAddr port target = true ∧ isV4 target = false)
    ∧ (∃ (s : State) (port : Fin 2) (ip target : IpAddr), (s.port port).up = true ∧ (s.port port).holdUntil = none ∧ s.holdsAddr port target = true ∧ (s.port port).hops.any (fun q => q.1 == s.nextHop port ip) = true) :=
  ⟨⟨rig, 1, 0xC0A80001, by decide +kernel⟩,
   ⟨rig, 0, 0xFD000000000000000000000000000001, ⟨rfl, rfl, by simp [State.holdsAddr, rig, tComm, kgetD, kget?], by decide +kernel⟩⟩,
   ⟨rig, 0, 0xFFFFC0A80002, 0xFFFFC0A80001, ⟨rfl, rfl, by simp [State.holdsAddr, rig, tComm, kgetD, kget?, isV4], by decide +kernel⟩⟩⟩

theorem witness_PortHoldsLinksAndHops :
    (∃ (s : State) (port : Fin 2) (ns : Nat), (s.port port).up = true ∧ 0 < ns)
    ∧ (∃ (s : State) (port : Fin 2) (e : Nat), (s.port port).holdUntil = some e ∧ e ≤ s.now ∧ (s.port port).up = true)
    ∧ (∃ (s : State) (port : Fin 2) (up : Bool), s.aon.phase = .running ∧ s.aon.hubUp = true ∧ (s.port port).up ≠ up)
    ∧ (∃ (s : State) (port : Fin 2) (ip : IpAddr), (s.port port).up = true ∧ ip ∈ (s.port port).resolving) :=
  ⟨⟨rig, 1, 1, by decide +kernel⟩,
   ⟨withPort { tPortUp with holdUntil := some 10000000000 }, 0, 10000000000, by decide +kernel⟩,
   ⟨rig, 1, false, by decide +kernel⟩,
   ⟨withPort { tPortUp with resolving := [5] }, 0, 5, by decide +kernel⟩⟩

theorem witness_MediaIsTakenIn :
    (∃ (s : State) (port : Fin 2) (dst : Word16) (bs : List Byte) (i : Nat) (x : StreamCtx) (p : Package), (s.port port).up = true ∧ s.classify port dst bs = .media i ∧ s.stream? i = some x ∧ s.pkg? x.modelSlot = some p ∧ s.net.poolFits port 1 = true ∧ (s.port port).fifo = [])
    ∧ (∃ (s : State) (port : Fin 2) (f : FifoFrame) (rest : List FifoFrame) (src : IpAddr) (sport dst : Word16) (ok : Bool) (bs : List Byte), (s.port port).fifo = f :: rest ∧ f.media = true ∧ f.pkt = .udp src sport dst ok bs ∧ s.net.poolFits port 1 = true)
    ∧ (∃ (s : State) (slot : Fin 4096) (k : SrtpSlot) (end_ : Nat) (old : List Byte), kget? s.net.srtp slot = some k ∧ k.old = some (end_, old) ∧ end_ ≤ s.now)
    ∧ (∃ (s : State) (i : Nat) (x : StreamCtx) (g : PayShape) (m : MediaIn), s.stream? i = some x ∧ x.anchored = false ∧ x.closing = false ∧ x.arrived = [] ∧ x.nextChunk = 0 ∧ m.ts < 2 ^ 32 ∧ 0 < m.data.length / g.bytes * g.step ∧ 0 < x.units) :=
  ⟨⟨withStream rig tStream, 0, 5004, tRtp, 3, tStream, tPkg, by decide +kernel⟩,
   ⟨withFifo { tFrame with media := true }, 0, _, [], _, _, _, _, _, ⟨rfl, rfl, rfl, by decide +kernel⟩⟩,
   ⟨{ rig with net := { rig.net with srtp := [(4095, tOldKeys)] } }, 4095, tOldKeys, 10000000000, [], by decide +kernel⟩,
   ⟨withStream rig tStream, 3, tStream, tStream.payShape tPkg, { seq := 1, ts := 0xFFFFFFFF, pt := some 96, data := List.replicate 320 1 }, by decide +kernel⟩⟩

theorem witness_ChunksCloseAndBecomeEligible :
    (∃ (s : State) (i : Fin 16384) (x : StreamCtx) (g : PayShape) (at_ : Nat) (lag : Option Int), s.stream? i = some x ∧ s.shapeOf x = some g ∧ (x.lastArrival g).isSome = true ∧ x.closeAt g s.now false = some (at_, lag))
    ∧ (∃ (s : State) (i : Fin 16384) (x : StreamCtx) (g : PayShape), s.stream? i = some x ∧ s.shapeOf x = some g ∧ x.lastArrival g = none ∧ x.anchored = true ∧ x.closing = false ∧ x.boundary + x.lateLimit ≤ s.now)
    ∧ (∃ (s : State) (i : Fin 16384) (x : StreamCtx) (c : Chunk), s.stream? i = some x ∧ x.current = some c ∧ c.phase = .waiting)
    ∧ (∃ (s : State) (i : Nat) (x : StreamCtx), s.stream? i = some x ∧ x.be = false) :=
  ⟨⟨withStream rig tWhole, 3, tWhole, _, _, _, ⟨rfl, rfl, by decide +kernel, rfl⟩⟩,
   ⟨withStream rig tLate, 3, tLate, _, ⟨rfl, rfl, by decide +kernel, by decide +kernel, by decide +kernel, by decide +kernel⟩⟩,
   ⟨withStream rig { tStream with chunks := [tChunk] }, 3, _, tChunk, ⟨rfl, rfl, rfl⟩⟩,
   ⟨withStream rig tLate, 3, tLate, by decide +kernel⟩⟩

theorem witness_RoundsFormYieldAndEnd :
    (∃ (s : State) (core : Fin 8) (h : ReadyStep) (i : Nat) (l : List Nat) (ct : Ctx), s.recovering core = false ∧ (s.orderYield core).headStep core = some h ∧ (s.orderYield core).mayForm core h.be = true ∧ (s.orderYield core).freeCtxs core h = i :: l ∧ (s.orderYield core).ctx? i = some ct)
    ∧ (∃ (s : State) (core : Fin 8) (r : Round) (ct : Ctx), s.recovering core = false ∧ s.yieldable core = some (r, ct))
    ∧ (∃ (s : State) (core : Fin 8) (prep : Fin 4) (v : Word64) (ct : Ctx) (part : Nat), s.ctx? (bits v.toNat 47 32) = some ct ∧ s.prepPart core prep = some part ∧ s.fenced core = false ∧ ct.core = core ∧ ct.part = part) :=
  ⟨⟨withCore { preps := [(0, 0)], ready := [tStep] }, 0, tStep, 5, [], tCtx, by decide +kernel⟩,
   ⟨withCore { preps := [(0, 0)], rounds := [{ tRound with be := true, yielding := true }] }, 0, _, tCtx, ⟨by decide +kernel, rfl⟩⟩,
   ⟨withCore { preps := [(0, 0)], rounds := [tRound] }, 0, 0, 0x500000000, tCtx, 0, by decide +kernel⟩⟩

theorem witness_RoundsHoldAndReturnTheirSteps :
    ∃ (r : Round), r.cancelled = false :=
  ⟨tRound, by decide +kernel⟩

theorem witness_CheckpointRule :
    (∃ (onFb : Bool) (pred d : Nat), (onFb = true ∨ d < pred + 25000))
    ∧ (∃ (pred d : Nat), pred + 25000 ≤ d) :=
  ⟨⟨false, 75001, 100000, by decide +kernel⟩,
   ⟨75000, 100000, by decide +kernel⟩⟩

theorem witness_ReportsCommitsAndFreedStreams :
    (∃ (s : State) (core : Fin 8) (r : CkptReport) (rest : List CkptReport) (ct : Ctx), (s.core core).reports = r :: rest ∧ ((s.modCore core (fun k => { k with reports := rest })).decideReport core r).1.ctx? r.ctx = some ct)
    ∧ (∃ (s : State) (r : CkptReport) (x : StreamCtx) (c : Chunk) (t : CostTable) (e : CkptEntry), s.stream? r.stream = some x ∧ x.chunk? r.chunk = some c ∧ s.tableFor x r.fallback = some t ∧ t.ckpts[r.ckpt]? = some e ∧ e.safeguarded = false ∧ r.poison = false)
    ∧ (∃ (s : State) (i : Fin 16384) (x : StreamCtx) (c : Chunk), s.stream? i = some x ∧ x.current = some c ∧ c.phase = .done ∧ c.stepPoison = false ∧ ¬ (c.missed = true ∧ x.lateDiscard = true))
    ∧ (∃ (s : State) (i : Fin 16384) (x : StreamCtx) (c : Chunk), s.stream? i = some x ∧ x.current = some c ∧ c.phase = .done ∧ c.stepPoison = true ∧ ¬ (c.missed = true ∧ x.lateDiscard = true))
    ∧ (∃ (s : State) (i : Fin 16384) (x : StreamCtx) (c : Chunk), s.stream? i = some x ∧ x.current = some c ∧ c.phase = .done ∧ c.missed = true ∧ x.lateDiscard = true)
    ∧ (∃ (s : State) (i : Fin 16384) (x : StreamCtx), s.stream? i = some x ∧ x.closing = true ∧ x.chunks = []) :=
  ⟨⟨withCore { reports := [tReport] }, 0, tReport, [], tCtx, by decide +kernel⟩,
   ⟨withStream rig { tStream with chunks := [tChunk] }, tReport, _, _, tTable, tCkpt, ⟨rfl, rfl, by decide +kernel, rfl, rfl, rfl⟩⟩,
   ⟨withStream rig { tStream with chunks := [{ tChunk with phase := .done }] }, 3, _, _, ⟨rfl, rfl, rfl, rfl, by decide +kernel⟩⟩,
   ⟨withStream rig { tStream with chunks := [{ tChunk with phase := .done, stepPoison := true, missed := true }] }, 3, _, _, ⟨rfl, rfl, rfl, rfl, by decide +kernel⟩⟩,
   ⟨withStream rig { tStream with lateDiscard := true, chunks := [{ tChunk with phase := .done, missed := true }] }, 3, _, _, ⟨rfl, rfl, rfl, rfl, rfl⟩⟩,
   ⟨withStream rig { tStream with closing := true }, 3, _, ⟨rfl, rfl, rfl⟩⟩⟩

theorem witness_DeadlineMissIsCounted :
    ∃ (s : State) (i : Fin 16384) (x : StreamCtx) (c : Chunk), s.stream? i = some x ∧ x.be = false ∧ x.lateDiscard = false ∧ x.chunks.find? (fun c => !c.missed && decide (c.deadline ≤ s.now)) = some c :=
  ⟨withStream rig { tStream with chunks := [{ tChunk with deadline := 10000000000 }] }, 3, _, _, ⟨rfl, rfl, rfl, rfl⟩⟩

theorem witness_ResultsAreDelivered :
    (∃ (s : State) (port : Fin 2) (r : EgressResult) (x : StreamCtx) (p : Package) (c : Chunk), nextResult (kgetD s.streams.egress port []) = some r ∧ s.stream? r.stream = some x ∧ s.pkg? x.modelSlot = some p ∧ x.chunk? r.chunk = some c ∧ (x.be = true ∨ s.now ≤ c.deadline) ∧ (s.port port).up = true ∧ (s.port port).holdUntil = none ∧ (s.port port).hops.any (fun q => q.1 == s.nextHop port x.remoteAddr) = true)
    ∧ (∃ (s : State) (port : Fin 2) (r : EgressResult) (x : StreamCtx) (p : Package) (c : Chunk), nextResult (kgetD s.streams.egress port []) = some r ∧ s.stream? r.stream = some x ∧ s.pkg? x.modelSlot = some p ∧ x.chunk? r.chunk = some c ∧ x.be = false ∧ x.lateDiscard = false ∧ c.deadline < s.now ∧ (s.port port).up = true ∧ (s.port port).holdUntil = none ∧ (s.port port).hops.any (fun q => q.1 == s.nextHop port x.remoteAddr) = true)
    ∧ (∃ (s : State) (port : Fin 2) (r : EgressResult) (x : StreamCtx) (p : Package) (c : Chunk), nextResult (kgetD s.streams.egress port []) = some r ∧ s.stream? r.stream = some x ∧ s.pkg? x.modelSlot = some p ∧ x.chunk? r.chunk = some c ∧ x.be = false ∧ x.lateDiscard = true ∧ c.deadline < s.now)
    ∧ (∃ (s : State) (port : Fin 2) (r : EgressResult) (x : StreamCtx) (p : Package) (c : Chunk), nextResult (kgetD s.streams.egress port []) = some r ∧ s.stream? r.stream = some x ∧ s.pkg? x.modelSlot = some p ∧ x.chunk? r.chunk = some c ∧ (x.be = true ∨ x.lateDiscard = false ∨ s.now ≤ c.deadline))
    ∧ (∃ (q : List EgressResult) (r : EgressResult), nextResult q = some r ∧ r.be = true)
    ∧ (∃ (q : List EgressResult) (r : EgressResult), nextResult q = some r ∧ r.be = false) :=
  ⟨⟨tEgress, 0, tResult, _, tPkg, tChunk, ⟨by decide +kernel, rfl, rfl, rfl, by decide +kernel, rfl, rfl, by decide +kernel⟩⟩,
   ⟨{ withStream rig { tStream with chunks := [{ tChunk with deadline := 9990000000 }] } with streams := { (withStream rig { tStream with chunks := [{ tChunk with deadline := 9990000000 }] }).streams with egress := [(0, [{ tResult with deadline := 9990000000 }])] } }, 0, { tResult with deadline := 9990000000 }, _, tPkg, { tChunk with deadline := 9990000000 }, ⟨by decide +kernel, rfl, rfl, rfl, rfl, rfl, by decide +kernel, rfl, rfl, by decide +kernel⟩⟩,
   ⟨{ withStream rig { tStream with lateDiscard := true, chunks := [{ tChunk with deadline := 9990000000 }] } with streams := { (withStream rig { tStream with lateDiscard := true, chunks := [{ tChunk with deadline := 9990000000 }] }).streams with egress := [(0, [{ tResult with deadline := 9990000000 }])] } }, 0, { tResult with deadline := 9990000000 }, _, tPkg, { tChunk with deadline := 9990000000 }, ⟨by decide +kernel, rfl, rfl, rfl, rfl, rfl, by decide +kernel⟩⟩,
   ⟨tEgress, 0, tResult, _, tPkg, tChunk, ⟨by decide +kernel, rfl, rfl, rfl, Or.inr (Or.inl rfl)⟩⟩,
   ⟨[{ tResult with be := true }], _, ⟨rfl, rfl⟩⟩,
   ⟨[tResult, { tResult with chunk := 1, deadline := 10010000001 }], tResult, by decide +kernel⟩⟩

theorem witness_ReadRequestsAreAnswered :
    (∃ (s t : State) (r : Req) (c : Caller), Takes s (.read 0) r c t)
    ∧ (∃ (s t : State) (r : Req) (c : Caller), Takes s (.read 1) r c t)
    ∧ (∃ (s t : State) (r : Req) (c : Caller) (e : Entry) (o : Obj), Takes s (.read 3) r c t ∧ r.entries = [e] ∧ objAt e.index e.sub = some o)
    ∧ (∃ (s t : State) (r : Req) (c : Caller), Takes s (.read 4) r c t) :=
  ⟨⟨withReq (rig) (tReq 1 0 ([])), _, tReq 1 0 ([]), ⟨1, 0⟩, takes_of (by decide +kernel) (by decide +kernel) (by decide +kernel)⟩,
   ⟨withReq (rig) (tReq 1 1 (tEntry ⟨0x1200, 0, 0, []⟩)), _, tReq 1 1 (tEntry ⟨0x1200, 0, 0, []⟩), ⟨1, 0⟩, takes_of (by decide +kernel) (by decide +kernel) (by decide +kernel)⟩,
   ⟨withReq (rig) (tReq 1 3 (tEntry ⟨0x1301, 1, 0, [16, 0]⟩)), _, tReq 1 3 (tEntry ⟨0x1301, 1, 0, [16, 0]⟩), ⟨1, 0⟩, ⟨0x1301, 1, 0, [16, 0]⟩, _, ⟨takes_of (by decide +kernel) (by decide +kernel) (by decide +kernel), by decide +kernel, rfl⟩⟩,
   ⟨withReq (rig) (tReq 1 4 (tEntry ⟨0x1200, 0, 0, []⟩)), _, tReq 1 4 (tEntry ⟨0x1200, 0, 0, []⟩), ⟨1, 0⟩, takes_of (by decide +kernel) (by decide +kernel) (by decide +kernel)⟩⟩

theorem witness_WritesAreAllOrNothing :
    (∃ (s t : State) (r : Req) (c : Caller), Takes s .write r c t)
    ∧ (∃ (s t : State) (r : Req) (c : Caller), Takes s (.action 0x1201 0) r c t)
    ∧ (∃ (s : State) (r : Req) (c : Caller) (code : Word16), (s.writeCodes c r.entries).find? (· != 0) = some code)
    ∧ (∃ (s t : State) (r : Req) (c : Caller), (s.writeCodes c r.entries).find? (· != 0) = none ∧ t = r.entries.foldl (fun t e => t.writeObj e.index e.sub e.value) s)
    ∧ (∃ (s t : State) (r : Req) (c : Caller), (s.writeCodes c r.entries).find? (· != 0) = none ∧ t = r.entries.foldl (fun t e => t.writeObj e.index e.sub e.value) s ∧ t.persist ≠ s.persist) :=
  ⟨⟨withReq (rig) (tReq 1 2 (tEntry ⟨0x2001, 1, 3, [16, 0]⟩ ++ tEntry ⟨0x2001, 6, 1, [1]⟩)), _, tReq 1 2 (tEntry ⟨0x2001, 1, 3, [16, 0]⟩ ++ tEntry ⟨0x2001, 6, 1, [1]⟩), ⟨1, 0⟩, takes_of (by decide +kernel) (by decide +kernel) (by decide +kernel)⟩,
   ⟨withReq (rig) (tReq 1 2 (tEntry ⟨0x1201, 0, 2, [3]⟩)), _, tReq 1 2 (tEntry ⟨0x1201, 0, 2, [3]⟩), ⟨1, 0⟩, takes_of (by decide +kernel) (by decide +kernel) (by decide +kernel)⟩,
   ⟨rig, tReq 1 2 (tEntry ⟨0x2001, 1, 3, [32, 0]⟩ ++ tEntry ⟨0x2001, 1, 3, [15, 0]⟩), ⟨1, 0⟩, accRANGE, by decide +kernel⟩,
   ⟨rig, _, tReq 1 2 (tEntry ⟨0x2001, 1, 3, [0, 1]⟩), ⟨1, 0⟩, ⟨by decide +kernel, rfl⟩⟩,
   ⟨rig, _, tReq 1 2 (tEntry ⟨0x2001, 1, 3, [0, 1]⟩), ⟨1, 0⟩, ⟨by decide +kernel, rfl, by decide +kernel⟩⟩⟩

theorem witness_ResponsesChangeNothingElse :
    ∃ (s : State) (r : Req) (body : List Byte), r.via = .mgmt ∧ body.length ≤ 4000 ∧ s.clotha.kept.find? (fun k => k.req.keyId == r.keyId && k.req.reqId == r.reqId && k.resp.isNone) = none :=
  ⟨rig, tReq 1 0 [], List.replicate 4000 0, by decide +kernel⟩

theorem witness_RequestsAreReceived :
    (∃ (s : State) (port : Fin 2), (s.port port).up = true ∧ (kgetD s.persist.commPort port {}).clothaOn ≠ 0 ∧ s.clotha.dictReady = true ∧ s.net.poolFits (2 + port) 1 = true ∧ (s.port port).fifo = [])
    ∧ (∃ (s : State) (via : Via) (msg : List Byte) (n : Nat) (k k' : KeyRec), 96 ≤ msg.length ∧ s.findKey via (leAt (slice msg 0 32) 4 2) = some (n, k) ∧ k.count (leAt (slice msg 0 32) 8 8) = .fresh k' ∧ msgTests via (slice msg 0 32) ((msg.drop 32).take (msg.length - 96)) = none ∧ (∀ q ∈ s.clotha.kept, ¬(q.req.keyId = leAt (slice msg 0 32) 4 2 ∧ q.req.reqId = leAt (slice msg 0 32) 16 4)) ∧ (via = .mgmt ∨ s.reqsOf via.no < 256))
    ∧ (∃ (s : State) (via : Via) (msg : List Byte) (n : Nat) (k : KeyRec), s.findKey via (leAt (slice msg 0 32) 4 2) = some (n, k) ∧ (k.count (leAt (slice msg 0 32) 8 8) = .seen ∨ k.count (leAt (slice msg 0 32) 8 8) = .tooOld)) :=
  ⟨⟨rig, 1, by decide +kernel⟩,
   ⟨rig, .mgmt, tPing 101, 1, tKey 1 1 0, _, ⟨by decide +kernel, by decide +kernel, rfl, by decide +kernel, by decide +kernel, by decide +kernel⟩⟩,
   ⟨rig, .mgmt, tPing 36, 1, tKey 1 1 0, by decide +kernel⟩⟩

theorem witness_CounterWindow :
    (∃ (k : KeyRec) (c : Nat), k.high < c)
    ∧ (∃ (k : KeyRec) (c : Nat), c + 64 ≤ k.high)
    ∧ (∃ (k k' : KeyRec) (c : Nat), k.count c = .fresh k') :=
  ⟨⟨tKey 1 1 0, 101, by decide +kernel⟩,
   ⟨tKey 1 1 0, 36, by decide +kernel⟩,
   ⟨tKey 1 1 0, _, 37, rfl⟩⟩

theorem witness_KeptResponsesAndCommits :
    (∃ (s : State) (c : Commit) (l : List Commit), s.aon.pending = none ∧ s.clotha.commits = c :: l)
    ∧ (∃ (s : State) (r : ShutdownRec), s.aon.pending = some r) :=
  ⟨⟨{ rig with clotha := { rig.clotha with commits := [{ snap := rig.persist, answer := none, since := 0 }] } }, _, _, ⟨rfl, rfl⟩⟩,
   ⟨{ rig with aon := { rig.aon with pending := some { cause := 3 } } }, { cause := 3 }, by decide +kernel⟩⟩

theorem witness_BulkRequestsAreServed :
    (∃ (s t : State) (r : Req) (c : Caller), Takes s (.bulk false 1) r c t ∧ c.opOrBoard = true)
    ∧ (∃ (s t : State) (r : Req) (c : Caller), Takes s (.bulk false 2) r c t ∧ c.opOrBoard = true)
    ∧ (∃ (s t : State) (r : Req) (c : Caller), Takes s (.bulk false 3) r c t ∧ c.opOrBoard = true)
    ∧ (∃ (s t : State) (r : Req) (c : Caller), Takes s (.bulk true 3) r c t ∧ c.opOrBoard = true ∧ (bulkOf r.body).offset + (bulkOf r.body).length ≤ slotBytes (bulkOf r.body).selector ∧ (t.persist.fwSlot (bulkOf r.body).selector).state ≠ 3)
    ∧ (∃ (s t : State) (r : Req) (c : Caller) (m : ModelSlot), Takes s (.bulk true 4) r c t ∧ (c.role = 1 ∨ (c.role = 2 ∧ t.partTenant m.part = some c.tenant)) ∧ t.model? (bulkOf r.body).selector = some m ∧ m.state = 1) :=
  ⟨⟨withReq (rig) (tReq 1 5 (tBulk 1 15 64 0 [])), _, tReq 1 5 (tBulk 1 15 64 0 []), ⟨1, 0⟩, ⟨takes_of (by decide +kernel) (by decide +kernel) (by decide +kernel), by decide +kernel⟩⟩,
   ⟨withReq (rig) (tReq 3 5 (tBulk 2 0 64 0 [])), _, tReq 3 5 (tBulk 2 0 64 0 []), ⟨3, 0⟩, ⟨takes_of (by decide +kernel) (by decide +kernel) (by decide +kernel), by decide +kernel⟩⟩,
   ⟨withReq (rig) (tReq 1 5 (tBulk 3 3 64 0 [])), _, tReq 1 5 (tBulk 3 3 64 0 []), ⟨1, 0⟩, ⟨takes_of (by decide +kernel) (by decide +kernel) (by decide +kernel), by decide +kernel⟩⟩,
   ⟨withReq (rig) (tReq 1 6 (tBulk 3 3 8 67109368 [1, 2, 3, 4, 5, 6, 7, 8])), _, tReq 1 6 (tBulk 3 3 8 67109368 [1, 2, 3, 4, 5, 6, 7, 8]), ⟨1, 0⟩, ⟨takes_of (by decide +kernel) (by decide +kernel) (by decide +kernel), by decide +kernel⟩⟩,
   ⟨withReq (withModel tStaged) (tReq 1 6 (tBulk 4 1 8 0 [1, 2, 3, 4, 5, 6, 7, 8])), _, tReq 1 6 (tBulk 4 1 8 0 [1, 2, 3, 4, 5, 6, 7, 8]), ⟨1, 0⟩, tStaged, ⟨takes_of (by decide +kernel) (by decide +kernel) (by decide +kernel), by decide +kernel⟩⟩⟩

theorem witness_StreamsOpenAndClose :
    (∃ (s t : State) (ch : OpenChoice) (r : Req) (c : Caller) (e : Entry) (x : Placement) (i : Nat), TakesAction s 0x2000 1 r c e t ∧ t.openTests c e.value = none ∧ t.admission (t.openReq e.value) = .inr x ∧ i < 16384 ∧ t.stream? i = none ∧ (∀ j, j < i → (t.stream? j).isSome = true) ∧ grantsOk (t.persist.extentsOf (t.openReq e.value).part) [t.ringGrant i (t.openCtx e.value x ch)] = true)
    ∧ (∃ (s t : State) (r : Req) (c : Caller) (e : Entry) (x : StreamCtx), TakesAction s 0x2000 2 r c e t ∧ leAt e.value 0 2 < 16384 ∧ leAt e.value 0 2 ∉ t.streams.lost ∧ t.stream? (leAt e.value 0 2) = some x ∧ c.foreign x.tenant = false ∧ x.closing = false)
    ∧ (∃ (s t : State) (r : Req) (c : Caller) (e : Entry) (code : Word16), TakesAction s 0x2000 1 r c e t ∧ t.openTests c e.value = none ∧ t.admission (t.openReq e.value) = .inl code)
    ∧ (∃ (s t : State) (ch : OpenChoice) (r : Req) (c : Caller) (e : Entry) (x : Placement), TakesAction s 0x2000 1 r c e t ∧ t.openTests c e.value = none ∧ t.admission (t.openReq e.value) = .inr x ∧ grantsOk (t.persist.extentsOf (t.openReq e.value).part) [t.ringGrant t.freeStreamId (t.openCtx e.value x ch)] = false) :=
  ⟨⟨withReq (rig) (tWrite 2 ⟨0x2000, 1, 13, tOpen 2⟩), _, ⟨0, 0, 0, 0x101000000⟩, tWrite 2 ⟨0x2000, 1, 13, tOpen 2⟩, ⟨2, 7⟩, ⟨0x2000, 1, 13, tOpen 2⟩, ⟨0, false, 8833000, 0, false⟩, 0, ⟨takesAction_of (by decide +kernel), by decide +kernel, by decide +kernel, by decide, by decide +kernel, fun j h => absurd h (Nat.not_lt_zero j), by decide +kernel⟩⟩,
   ⟨withReq (withStream rig tStream) (tWrite 2 ⟨0x2000, 2, 3, [3, 0]⟩), _, tWrite 2 ⟨0x2000, 2, 3, [3, 0]⟩, ⟨2, 7⟩, ⟨0x2000, 2, 3, [3, 0]⟩, tStream, ⟨takesAction_of (by decide +kernel), by decide +kernel⟩⟩,
   ⟨withReq (rig) (tWrite 2 ⟨0x2000, 1, 13, tOpen 3⟩), _, tWrite 2 ⟨0x2000, 1, 13, tOpen 3⟩, ⟨2, 7⟩, ⟨0x2000, 1, 13, tOpen 3⟩, 0x3003, ⟨takesAction_of (by decide +kernel), by decide +kernel⟩⟩,
   ⟨withReq (rig) (tWrite 2 ⟨0x2000, 1, 13, tOpen 2⟩), _, ⟨0, 2 ^ 37, 0, 0⟩, tWrite 2 ⟨0x2000, 1, 13, tOpen 2⟩, ⟨2, 7⟩, ⟨0x2000, 1, 13, tOpen 2⟩, ⟨0, false, 8833000, 0, false⟩, ⟨takesAction_of (by decide +kernel), by decide +kernel⟩⟩⟩

theorem witness_JobsAreSubmittedAndCancelled :
    (∃ (s t : State) (r : Req) (c : Caller) (e : Entry) (m : ModelSlot) (p : Package) (slot : Nat), TakesAction s 0x4010 1 r c e t ∧ recBits e.value 23 19 = 0 ∧ recBits e.value 63 48 = 0 ∧ recBits e.value 127 104 = 0 ∧ recBits e.value 255 192 = 0 ∧ recBits e.value 95 64 ≠ 0 ∧ c.foreign (recBits e.value 15 0) = false ∧ t.aon.drain = 0 ∧ t.jobModel e.value = some (m, p) ∧ t.quotaHolds (recBits e.value 18 16) m.die (recBits e.value 191 128) = true ∧ t.freeJobSlot = some slot)
    ∧ (∃ (s t : State) (r : Req) (c : Caller) (e : Entry) (j : Job), TakesAction s 0x4010 2 r c e t ∧ leAt e.value 0 2 ≠ 0 ∧ t.job? (leAt e.value 0 2) = some j ∧ c.foreign j.tenant = false ∧ (j.state = 1 ∨ j.state = 2)) :=
  ⟨⟨withReq (rig) (tWrite 2 ⟨0x4010, 1, 13, toLe 32 (7 + 15 * 2 ^ 24 + 17 * 2 ^ 32 + 2 ^ 64 + 4096 * 2 ^ 128)⟩), _, tWrite 2 ⟨0x4010, 1, 13, toLe 32 (7 + 15 * 2 ^ 24 + 17 * 2 ^ 32 + 2 ^ 64 + 4096 * 2 ^ 128)⟩, ⟨2, 7⟩, ⟨0x4010, 1, 13, toLe 32 (7 + 15 * 2 ^ 24 + 17 * 2 ^ 32 + 2 ^ 64 + 4096 * 2 ^ 128)⟩, tModel, tPkg, 0, ⟨takesAction_of (by decide +kernel), by decide +kernel⟩⟩,
   ⟨withReq (withJob) (tWrite 2 ⟨0x4010, 2, 3, [1, 0]⟩), _, tWrite 2 ⟨0x4010, 2, 3, [1, 0]⟩, ⟨2, 7⟩, ⟨0x4010, 2, 3, [1, 0]⟩, tJob, ⟨takesAction_of (by decide +kernel), by decide +kernel⟩⟩⟩

theorem witness_PartitionsAreCreatedAndDestroyed :
    (∃ (s t : State) (ch : PartChoice) (r : Req) (c : Caller) (e : Entry), TakesAction s 0x3000 1 r c e t ∧ t.partTests e.value (partRecOf e.value t.now ch) = none ∧ t.persist.extentsOk (partRecOf e.value t.now ch) ch.extents = true ∧ t.choiceOk (partRecOf e.value t.now ch) ch ch.extents = true ∧ grantsOk ch.extents (partGrants (recBits e.value 2 0) ch ++ (ch.sysCtxs.map (ctxGrants (recBits e.value 2 0))).flatten) = true)
    ∧ (∃ (s : State) (p : Fin 8) (n : Nat), kget? s.svc.partSince p = some n)
    ∧ (∃ (s t : State) (r : Req) (c : Caller) (e : Entry) (p : PartRec), TakesAction s 0x3000 2 r c e t ∧ leAt e.value 0 1 < 8 ∧ kget? t.persist.parts (leAt e.value 0 1) = some p ∧ t.coresBusy p.cores = false) :=
  ⟨⟨withReq (rig) (tWrite 1 ⟨0x3000, 1, 13, toLe 32 (1 + 16 * 2 ^ 8 + 7 * 2 ^ 16 + 2 ^ 40 + 2 ^ 64 + 16 * 2 ^ 96)⟩), _, tChoice, tWrite 1 ⟨0x3000, 1, 13, toLe 32 (1 + 16 * 2 ^ 8 + 7 * 2 ^ 16 + 2 ^ 40 + 2 ^ 64 + 16 * 2 ^ 96)⟩, ⟨1, 0⟩, ⟨0x3000, 1, 13, toLe 32 (1 + 16 * 2 ^ 8 + 7 * 2 ^ 16 + 2 ^ 40 + 2 ^ 64 + 16 * 2 ^ 96)⟩, ⟨takesAction_of (by decide +kernel), by decide +kernel⟩⟩,
   ⟨{ rig with svc := { rig.svc with partReady := [], partSince := [(0, 0)] } }, 0, 0, by decide +kernel⟩,
   ⟨withReq (rig) (tWrite 1 ⟨0x3000, 2, 2, [0]⟩), _, tWrite 1 ⟨0x3000, 2, 2, [0]⟩, ⟨1, 0⟩, ⟨0x3000, 2, 2, [0]⟩, tPart, ⟨takesAction_of (by decide +kernel), by decide +kernel⟩⟩⟩

theorem witness_ModelsAreStagedLoadedRemoved :
    (∃ (s t : State) (r : Req) (c : Caller) (e : Entry) (p : PartRec), TakesAction s 0x3010 1 r c e t ∧ zeroAt e.value 3 1 = true ∧ zeroAt e.value 6 2 = true ∧ leAt e.value 0 1 < 64 ∧ leAt e.value 1 1 < 8 ∧ leAt e.value 2 1 < 2 ∧ kget? t.persist.parts (leAt e.value 1 1) = some p ∧ c.foreign p.tenant = false ∧ t.aon.drain = 0 ∧ t.model? (leAt e.value 0 1) = none ∧ coresOnDie p.cores (leAt e.value 2 1) ≠ [] ∧ t.quotaHolds (leAt e.value 1 1) (leAt e.value 2 1) (leAt e.value 8 8) = true ∧ t.allocOk (leAt e.value 0 1) (leAt e.value 1 1) (leAt e.value 2 1) (leAt e.value 8 8) (t.lowestFree (leAt e.value 1 1) (leAt e.value 2 1) (leAt e.value 8 8)) = true)
    ∧ (∃ (s t : State) (ch : LoadChoice) (r : Req) (c : Caller) (e : Entry) (m : ModelSlot), TakesAction s 0x3010 2 r c e t ∧ leAt e.value 0 1 < 64 ∧ t.foreignSlot c (leAt e.value 0 1) = false ∧ t.aon.drain = 0 ∧ t.model? (leAt e.value 0 1) = some m ∧ m.state = 1 ∧ t.loadTests m (m.package ch.pkg) ch.sigOk ch.segsOk = none ∧ t.modelCtxsOk m (m.package ch.pkg) ch.ctxs = true ∧ t.loadGranted m (leAt e.value 0 1) (m.package ch.pkg) ch.ctxs = true)
    ∧ (∃ (s t : State) (r : Req) (c : Caller) (e : Entry) (m : ModelSlot), TakesAction s 0x3010 3 r c e t ∧ t.model? (leAt e.value 0 1) = some m ∧ t.foreignSlot c (leAt e.value 0 1) = false ∧ (∀ q ∈ t.streams.ctx, q.2.modelSlot ≠ leAt e.value 0 1) ∧ t.svc.jobs = []) :=
  ⟨⟨withReq (rig) (tWrite 2 ⟨0x3010, 1, 13, toLe 16 (63 + 18 * 2 ^ 32 + 4096 * 2 ^ 64)⟩), _, tWrite 2 ⟨0x3010, 1, 13, toLe 16 (63 + 18 * 2 ^ 32 + 4096 * 2 ^ 64)⟩, ⟨2, 7⟩, ⟨0x3010, 1, 13, toLe 16 (63 + 18 * 2 ^ 32 + 4096 * 2 ^ 64)⟩, tPart, ⟨takesAction_of (by decide +kernel), by decide +kernel⟩⟩,
   ⟨withReq (withModel tStaged) (tWrite 2 ⟨0x3010, 2, 2, [1]⟩), _, tLoad, tWrite 2 ⟨0x3010, 2, 2, [1]⟩, ⟨2, 7⟩, ⟨0x3010, 2, 2, [1]⟩, tStaged, ⟨takesAction_of (by decide +kernel), by decide +kernel⟩⟩,
   ⟨withReq (rig) (tWrite 2 ⟨0x3010, 3, 2, [0]⟩), _, tWrite 2 ⟨0x3010, 3, 2, [0]⟩, ⟨2, 7⟩, ⟨0x3010, 3, 2, [0]⟩, tModel, ⟨takesAction_of (by decide +kernel), by decide +kernel⟩⟩⟩

theorem witness_RecoveryActions :
    (∃ (s t : State) (r : Req) (c : Caller) (e : Entry), TakesAction s 0x8013 0 r c e t)
    ∧ (∃ (s t : State) (r : Req) (c : Caller) (e : Entry), TakesAction s 0x6010 0 r c e t ∧ leAt e.value 0 1 < 8 ∧ t.recovering (leAt e.value 0 1) = false)
    ∧ (∃ (s t : State) (r : Req) (c : Caller) (e : Entry) (d : Dump), TakesAction s 0x6021 0 r c e t ∧ leAt e.value 0 1 < 16 ∧ kget? t.recov.dumps (leAt e.value 0 1) = some d)
    ∧ (∃ (s t : State) (r : Req) (c : Caller) (e : Entry), TakesAction s 0x1400 0 r c e t ∧ leAt e.value 0 1 = 0x5A ∧ t.persist.parts = []) :=
  ⟨⟨withReq (rig) (tWrite 1 ⟨0x8E13, 0, 3, [1, 0x80]⟩), _, tWrite 1 ⟨0x8E13, 0, 3, [1, 0x80]⟩, ⟨1, 0⟩, ⟨0x8E13, 0, 3, [1, 0x80]⟩, takesAction_of (by decide +kernel)⟩,
   ⟨withReq (rig) (tWrite 1 ⟨0x6010, 0, 2, [7]⟩), _, tWrite 1 ⟨0x6010, 0, 2, [7]⟩, ⟨1, 0⟩, ⟨0x6010, 0, 2, [7]⟩, ⟨takesAction_of (by decide +kernel), by decide +kernel⟩⟩,
   ⟨withReq ({ rig with recov := { dumps := [(15, { locked := true })] } }) (tWrite 1 ⟨0x6021, 0, 2, [15]⟩), _, tWrite 1 ⟨0x6021, 0, 2, [15]⟩, ⟨1, 0⟩, ⟨0x6021, 0, 2, [15]⟩, { locked := true }, ⟨takesAction_of (by decide +kernel), by decide +kernel⟩⟩,
   ⟨withReq (noParts) (tWrite 1 ⟨0x1400, 0, 2, [0x5A]⟩), _, tWrite 1 ⟨0x1400, 0, 2, [0x5A]⟩, ⟨1, 0⟩, ⟨0x1400, 0, 2, [0x5A]⟩, ⟨takesAction_of (by decide +kernel), by decide +kernel⟩⟩⟩

theorem witness_KeysAndTenants :
    (∃ (s t : State) (k : EnrolCheck) (r : Req) (c : Caller) (e : Entry) (n : Nat), TakesAction s 0x7002 1 r c e t ∧ t.enrolTests c e.value k.unwrapOk = none ∧ t.persist.freeKeyRec = some n)
    ∧ (∃ (s t : State) (r : Req) (c : Caller) (e : Entry) (q : Nat × KeyRec), TakesAction s 0x7002 2 r c e t ∧ t.persist.keys.find? (fun q => q.2.keyId == leAt e.value 0 2) = some q ∧ c.role = 1 ∧ q.2.role ≠ 1)
    ∧ (∃ (s t : State) (r : Req) (c : Caller) (e : Entry), TakesAction s 0x7002 3 r c e t ∧ leAt e.value 0 1 = 0xA5 ∧ t.persist.parts = [])
    ∧ (∃ (s t : State) (r : Req) (c : Caller) (e : Entry) (n : Nat) (q : TenantRec), TakesAction s 0x7004 1 r c e t ∧ zeroAt e.value 2 6 = true ∧ zeroAt e.value 141 3 = true ∧ t.persist.tenants.find? (fun q => q.2.tenant == leAt e.value 0 2) = some (n, q))
    ∧ (∃ (s t : State) (r : Req) (c : Caller) (e : Entry) (n : Nat) (q : TenantRec), TakesAction s 0x7004 2 r c e t ∧ t.persist.tenants.find? (fun q => q.2.tenant == leAt e.value 0 2) = some (n, q) ∧ (∀ p ∈ t.persist.parts, p.2.tenant ≠ leAt e.value 0 2))
    ∧ (∃ (s t : State) (r : Req) (c : Caller) (e : Entry) (n : Nat) (q : TenantRec), TakesAction s 0x7004 2 r c e t ∧ t.persist.tenants.find? (fun q => q.2.tenant == leAt e.value 0 2) = some (n, q) ∧ (∃ p ∈ t.persist.parts, p.2.tenant = leAt e.value 0 2)) :=
  ⟨⟨withReq (rig) (tWrite 1 ⟨0x7002, 1, 13, toLe 256 (4 + 2 * 2 ^ 16 + 7 * 2 ^ 32)⟩), _, ⟨true⟩, tWrite 1 ⟨0x7002, 1, 13, toLe 256 (4 + 2 * 2 ^ 16 + 7 * 2 ^ 32)⟩, ⟨1, 0⟩, ⟨0x7002, 1, 13, toLe 256 (4 + 2 * 2 ^ 16 + 7 * 2 ^ 32)⟩, 4, ⟨takesAction_of (by decide +kernel), by decide +kernel⟩⟩,
   ⟨withReq (rig) (tWrite 1 ⟨0x7002, 2, 3, [2, 0]⟩), _, tWrite 1 ⟨0x7002, 2, 3, [2, 0]⟩, ⟨1, 0⟩, ⟨0x7002, 2, 3, [2, 0]⟩, (2, tKey 2 2 7), ⟨takesAction_of (by decide +kernel), by decide +kernel⟩⟩,
   ⟨withReq (noParts) (tWrite 1 ⟨0x7002, 3, 2, [0xA5]⟩), _, tWrite 1 ⟨0x7002, 3, 2, [0xA5]⟩, ⟨1, 0⟩, ⟨0x7002, 3, 2, [0xA5]⟩, ⟨takesAction_of (by decide +kernel), by decide +kernel⟩⟩,
   ⟨withReq (rig) (tWrite 1 ⟨0x7004, 1, 13, toLe 144 7⟩), _, tWrite 1 ⟨0x7004, 1, 13, toLe 144 7⟩, ⟨1, 0⟩, ⟨0x7004, 1, 13, toLe 144 7⟩, 0, tTenant, ⟨takesAction_of (by decide +kernel), by decide +kernel⟩⟩,
   ⟨withReq (noParts) (tWrite 1 ⟨0x7004, 2, 3, [7, 0]⟩), _, tWrite 1 ⟨0x7004, 2, 3, [7, 0]⟩, ⟨1, 0⟩, ⟨0x7004, 2, 3, [7, 0]⟩, 0, tTenant, ⟨takesAction_of (by decide +kernel), by decide +kernel⟩⟩,
   ⟨withReq (rig) (tWrite 1 ⟨0x7004, 2, 3, [7, 0]⟩), _, tWrite 1 ⟨0x7004, 2, 3, [7, 0]⟩, ⟨1, 0⟩, ⟨0x7004, 2, 3, [7, 0]⟩, 0, tTenant, ⟨takesAction_of (by decide +kernel), by decide +kernel, ⟨(0, tPart), by decide +kernel, by decide +kernel⟩⟩⟩⟩

theorem witness_FirmwareAndAttestation :
    (∃ (s t : State) (k : ImageCheck) (r : Req) (c : Caller) (e : Entry), TakesAction s 0x7006 1 r c e t ∧ leAt e.value 0 1 < 4 ∧ t.persist.imageTest (leAt e.value 0 1) k = none ∧ (t.persist.fwSlot (leAt e.value 0 1)).state = 1)
    ∧ (∃ (s t : State) (r : Req) (c : Caller) (e : Entry), TakesAction s 0x7006 2 r c e t ∧ leAt e.value 0 1 < 4 ∧ (t.persist.fwSlot (leAt e.value 0 1)).state = 2)
    ∧ (∃ (s : State) (new prev t0 : Nat), s.aon.activating = some (new, prev, t0) ∧ new ≠ prev ∧ s.clotha.dictReady = false ∧ t0 + 10000000000 ≤ s.aon.clock)
    ∧ (∃ (s t : State) (r : Req) (c : Caller) (e : Entry) (slot : Nat), TakesAction s 0x7006 3 r c e t ∧ leAt e.value 0 1 = 2 ∧ t.aon.sfSlot = some slot ∧ 2 ≤ slot)
    ∧ (∃ (s t : State) (r : Req) (c : Caller) (e : Entry), TakesAction s 0x7010 1 r c e t ∧ zeroAt e.value 66 6 = true ∧ leAt e.value 64 1 = 0xFF ∧ leAt e.value 65 1 < 64) :=
  ⟨⟨withReq (withSlot { tImage 2 with state := 1 }) (tWrite 3 ⟨0x7006, 1, 2, [3]⟩), _, ⟨true, true, true⟩, tWrite 3 ⟨0x7006, 1, 2, [3]⟩, ⟨3, 0⟩, ⟨0x7006, 1, 2, [3]⟩, ⟨takesAction_of (by decide +kernel), by decide +kernel⟩⟩,
   ⟨withReq (withSlot { tImage 2 with state := 2 }) (tWrite 1 ⟨0x7006, 2, 2, [3]⟩), _, tWrite 1 ⟨0x7006, 2, 2, [3]⟩, ⟨1, 0⟩, ⟨0x7006, 2, 2, [3]⟩, ⟨takesAction_of (by decide +kernel), by decide +kernel⟩⟩,
   ⟨{ rig with aon := { rig.aon with activating := some (3, 2, 10000000000) }, clotha := {} }, 3, 2, 10000000000, by decide +kernel⟩,
   ⟨withReq (rig) (tWrite 1 ⟨0x7006, 3, 2, [2]⟩), _, tWrite 1 ⟨0x7006, 3, 2, [2]⟩, ⟨1, 0⟩, ⟨0x7006, 3, 2, [2]⟩, 2, ⟨takesAction_of (by decide +kernel), by decide +kernel⟩⟩,
   ⟨withReq (rig) (tWrite 2 ⟨0x7010, 1, 13, toLe 72 (0xFF * 2 ^ 512 + 63 * 2 ^ 520)⟩), _, tWrite 2 ⟨0x7010, 1, 13, toLe 72 (0xFF * 2 ^ 512 + 63 * 2 ^ 520)⟩, ⟨2, 7⟩, ⟨0x7010, 1, 13, toLe 72 (0xFF * 2 ^ 512 + 63 * 2 ^ 520)⟩, ⟨takesAction_of (by decide +kernel), by decide +kernel⟩⟩⟩

theorem witness_KeysTimeAlertsAndDrain :
    (∃ (s t : State) (r : Req) (c : Caller) (e : Entry), TakesAction s 0x9002 0 r c e t ∧ zeroAt e.value 56 8 = true ∧ zeroAt e.value 0 56 = false ∧ c.role = 2 ∧ kget? t.net.srtp (e.sub - 1) = none)
    ∧ (∃ (s t : State) (r : Req) (c : Caller) (e : Entry), TakesAction s 0x9022 0 r c e t ∧ leAt e.value 0 8 % 1000000000 = 0)
    ∧ (∃ (s t : State) (r : Req) (c : Caller) (e : Entry), TakesAction s 0xA021 0 r c e t)
    ∧ (∃ (s t : State) (r : Req) (c : Caller) (e : Entry), TakesAction s 0xA040 0 r c e t ∧ leAt e.value 0 4 = 0)
    ∧ (∃ (s t : State) (r : Req) (c : Caller) (e : Entry), TakesAction s 0xA040 0 r c e t ∧ 1000 ≤ leAt e.value 0 4 ∧ leAt e.value 0 4 ≤ 600000)
    ∧ (∃ (s : State) (n : Nat), s.aon.drainEnd = some n ∧ s.aon.drain = 1 ∧ s.aon.graceOver = false ∧ n ≤ s.aon.clock) :=
  ⟨⟨withReq (rig) (tWrite 2 ⟨0x9002, 4096, 15, toLe 64 1⟩), _, tWrite 2 ⟨0x9002, 4096, 15, toLe 64 1⟩, ⟨2, 7⟩, ⟨0x9002, 4096, 15, toLe 64 1⟩, ⟨takesAction_of (by decide +kernel), by decide +kernel⟩⟩,
   ⟨withReq (rig) (tWrite 1 ⟨0x9022, 0, 12, toLe 8 11000000000⟩), _, tWrite 1 ⟨0x9022, 0, 12, toLe 8 11000000000⟩, ⟨1, 0⟩, ⟨0x9022, 0, 12, toLe 8 11000000000⟩, ⟨takesAction_of (by decide +kernel), by decide +kernel⟩⟩,
   ⟨withReq (rig) (tWrite 3 ⟨0xA021, 0, 4, [1, 0, 0, 0x80]⟩), _, tWrite 3 ⟨0xA021, 0, 4, [1, 0, 0, 0x80]⟩, ⟨3, 0⟩, ⟨0xA021, 0, 4, [1, 0, 0, 0x80]⟩, takesAction_of (by decide +kernel)⟩,
   ⟨withReq (rig) (tWrite 1 ⟨0xA040, 0, 4, toLe 4 0⟩), _, tWrite 1 ⟨0xA040, 0, 4, toLe 4 0⟩, ⟨1, 0⟩, ⟨0xA040, 0, 4, toLe 4 0⟩, ⟨takesAction_of (by decide +kernel), by decide +kernel⟩⟩,
   ⟨withReq (rig) (tWrite 1 ⟨0xA040, 0, 4, toLe 4 600000⟩), _, tWrite 1 ⟨0xA040, 0, 4, toLe 4 600000⟩, ⟨1, 0⟩, ⟨0xA040, 0, 4, toLe 4 600000⟩, ⟨takesAction_of (by decide +kernel), by decide +kernel⟩⟩,
   ⟨{ rig with aon := { rig.aon with drainEnd := some 20000000000, drain := 1 } }, 20000000000, by decide +kernel⟩⟩

theorem witness_ManagementPortCommands :
    (∃ (s : State), s.aon.hubUp = true)
    ∧ (∃ (s : State), s.aon.hubUp = true)
    ∧ (∃ (s : State) (a : Word32) (bs : List Byte), s.aon.hubUp = true ∧ 0x1000 ≤ a.toNat ∧ a.toNat + bs.length ≤ 0x2000)
    ∧ (∃ (s : State), s.aon.hubUp = true)
    ∧ (∃ (s : State), s.aon.hubUp = true)
    ∧ (∃ (s : State), s.aon.hubUp = true)
    ∧ (∃ (s : State), s.aon.hubUp = true ∧ s.clotha.dictReady = true ∧ s.clotha.reqBusy = false ∧ s.clotha.respValid = false)
    ∧ (∃ (s : State), s.aon.hubUp = true ∧ s.clotha.dictReady = true ∧ (s.clotha.reqBusy = true ∨ s.clotha.respValid = true))
    ∧ (∃ (s : State), s.aon.hubUp = true) :=
  ⟨⟨rig, by decide +kernel⟩,
   ⟨rig, by decide +kernel⟩,
   ⟨rig, 0x1000, List.replicate 4096 7, by decide +kernel⟩,
   ⟨rig, by decide +kernel⟩,
   ⟨rig, by decide +kernel⟩,
   ⟨rig, by decide +kernel⟩,
   ⟨rig, by decide +kernel⟩,
   ⟨{ rig with clotha := { rig.clotha with respValid := true } }, by decide +kernel⟩,
   ⟨rig, by decide +kernel⟩⟩

theorem witness_TelemetryIsSampled :
    (∃ (s : State) (map : Fin 16) (m : TelMap) (n : Nat) (k : KeyRec), m = kgetD s.persist.telMaps map {} ∧ m.enable = true ∧ s.time.running = true ∧ s.hbmUp = true ∧ s.clotha.dictReady = true ∧ (kgetD s.clotha.tel map {}).lastAt ≠ some (s.now / Nat.max 1 (m.periodUs * 1000) * Nat.max 1 (m.periodUs * 1000)) ∧ (kgetD s.clotha.tel map {}).unsent = none ∧ s.persist.keys.find? (fun q => q.2.keyId == m.keyId.toNat) = some (n, k))
    ∧ (∃ (s : State) (map : Fin 16) (m : TelMap), m = kgetD s.persist.telMaps map {} ∧ m.enable = true ∧ s.time.running = true ∧ s.hbmUp = true ∧ (kgetD s.clotha.tel map {}).lastAt ≠ some (s.now / Nat.max 1 (m.periodUs * 1000) * Nat.max 1 (m.periodUs * 1000)) ∧ (kgetD s.clotha.tel map {}).unsent = none ∧ (s.clotha.dictReady = false ∨ s.persist.keys.find? (fun q => q.2.keyId == m.keyId.toNat) = none))
    ∧ (∃ (s : State) (map : Fin 16) (m : TelMap), m = kgetD s.persist.telMaps map {} ∧ (kgetD s.clotha.tel map {}).lastAt = some (s.now / Nat.max 1 (m.periodUs * 1000) * Nat.max 1 (m.periodUs * 1000))) :=
  ⟨⟨{ rig with persist := { rig.persist with telMaps := [(15, tMap)] } }, 15, tMap, 1, tKey 1 1 0, by decide +kernel⟩,
   ⟨{ rig with clotha := {}, persist := { rig.persist with telMaps := [(15, tMap)] } }, 15, tMap, ⟨rfl, rfl, rfl, rfl, by decide +kernel, rfl, Or.inl rfl⟩⟩,
   ⟨{ rig with clotha := { rig.clotha with tel := [(15, { lastAt := some 10000000000 })] } }, 15, {}, by decide +kernel⟩⟩

theorem witness_PtpMessages :
    (∃ (s : State) (port : Fin 2) (tr : PtpTransport) (dom : Nat), (s.port port).up = true ∧ s.time.running = true ∧ s.persist.timeSource = port ∧ transportNo tr = s.persist.ptpTransport ∧ dom = s.persist.ptpDomain)
    ∧ (∃ (s : State) (port : Fin 2) (tr : PtpTransport) (id : Word64) (dom : Nat), (s.port port).up = true ∧ s.time.running = true ∧ s.persist.timeSource = port ∧ transportNo tr = s.persist.ptpTransport ∧ dom = s.persist.ptpDomain ∧ s.time.master = some id)
    ∧ (∃ (s : State) (port : Fin 2) (tr : PtpTransport) (id : Word64) (dom : Nat), (s.port port).up = true ∧ s.time.running = true ∧ s.persist.timeSource = port ∧ transportNo tr = s.persist.ptpTransport ∧ dom = s.persist.ptpDomain ∧ s.time.master = some id)
    ∧ (∃ (s : State) (port : Fin 2) (tr : PtpTransport) (id : Word64) (dom seq a : Nat), (s.port port).up = true ∧ s.time.running = true ∧ s.persist.timeSource = port ∧ transportNo tr = s.persist.ptpTransport ∧ dom = s.persist.ptpDomain ∧ s.time.master = some id ∧ s.time.twoStep = some (id, seq, a))
    ∧ (∃ (s : State) (port : Fin 2) (tr : PtpTransport) (id : Word64) (dom t1 t2 t3 : Nat), (s.port port).up = true ∧ s.time.running = true ∧ s.persist.timeSource = port ∧ transportNo tr = s.persist.ptpTransport ∧ dom = s.persist.ptpDomain ∧ s.time.master = some id ∧ s.time.t1t2 = some (t1, t2) ∧ s.time.t3 = some t3)
    ∧ (∃ (s : State) (port : Fin 2) (tr : PtpTransport), (s.port port).up = true ∧ s.time.running = true ∧ (s.persist.timeSource ≠ port.val ∨ transportNo tr ≠ s.persist.ptpTransport))
    ∧ (∃ (s : State) (port : Fin 2) (id : Word64), s.persist.timeSource = port ∧ s.time.master = some id ∧ (s.port port).up = true ∧ (s.port port).holdUntil = none) :=
  ⟨⟨rig, 0, .udp4, 0, by decide +kernel⟩,
   ⟨withTime { rig.time with master := some 1 }, 0, .udp4, 1, 0, by decide +kernel⟩,
   ⟨withTime { rig.time with master := some 1 }, 0, .udp4, 1, 0, by decide +kernel⟩,
   ⟨withTime { rig.time with master := some 1, twoStep := some (1, 9, 400) }, 0, .udp4, 1, 0, 9, 400, by decide +kernel⟩,
   ⟨withTime { rig.time with master := some 1, t1t2 := some (100, 300), t3 := some 400 }, 0, .udp4, 1, 0, 100, 300, 400, by decide +kernel⟩,
   ⟨rig, 1, .udp4, ⟨rfl, rfl, Or.inl (by decide)⟩⟩,
   ⟨withTime { rig.time with master := some 1 }, 0, 1, by decide +kernel⟩⟩

theorem witness_TimeFollowsItsSource :
    (∃ (s : State), s.time.state = 2)
    ∧ (∃ (s : State) (off : Int), s.time.state = 1 ∧ 1000000 < off.natAbs)
    ∧ (∃ (s : State) (off : Int), s.time.state = 1 ∧ 100 < off.natAbs ∧ off.natAbs ≤ 1000000)
    ∧ (∃ (s : State) (off : Int), s.time.state = 3 ∧ off.natAbs ≤ 1000)
    ∧ (∃ (s : State) (i : Nat) (x : StreamCtx), s.stream? i = some x)
    ∧ (∃ (s : State), s.time.ppsNext = none ∧ s.time.running = true)
    ∧ (∃ (s : State) (sec : Nat), s.time.ppsNext = some sec ∧ s.time.running = true ∧ s.persist.timeSource ≠ 2)
    ∧ (∃ (s : State) (sec : Nat), s.time.ppsNext = some sec ∧ s.time.running = true ∧ s.persist.timeSource = 2 ∧ s.time.state = 2)
    ∧ (∃ (s : State), s.time.state = 2 ∧ s.persist.timeSource ≤ 1 ∧ s.time.lastSync + 3 * s.time.interval ≤ s.time.now)
    ∧ (∃ (s : State) (h : Nat), s.time.state = 3 ∧ s.time.holdSince = some h ∧ h + s.persist.holdoverS * 1000000000 < s.time.now)
    ∧ (∃ (s : State), s.time.ppsOn = true ∧ s.time.now % 1000000000 = 0) :=
  ⟨⟨rig, by decide +kernel⟩,
   ⟨withTime { rig.time with state := 1 }, -1000001, by decide +kernel⟩,
   ⟨withTime { rig.time with state := 1 }, 1000000, by decide +kernel⟩,
   ⟨withTime { rig.time with state := 3 }, -1000, by decide +kernel⟩,
   ⟨withStream rig tStream, 3, tStream, by decide +kernel⟩,
   ⟨rig, by decide +kernel⟩,
   ⟨withTime { rig.time with ppsNext := some 11000000000 }, 11000000000, by decide +kernel⟩,
   ⟨{ withTime { rig.time with ppsNext := some 10000000000 } with persist := { rig.persist with timeSource := 2 } }, 10000000000, by decide +kernel⟩,
   ⟨withTime { rig.time with lastSync := 7000000000, master := some 1, peers := [⟨1, 0, 1000000000, 0⟩] }, by decide +kernel⟩,
   ⟨withTime { rig.time with now := 70000000001, state := 3, holdSince := some 10000000000 }, 10000000000, by decide +kernel⟩,
   ⟨withTime { rig.time with ppsOn := true }, by decide +kernel⟩⟩

theorem witness_DoorbellsAndDispatch :
    (∃ (s : State) (core : Fin 8) (prep : Fin 4) (v : Word64) (ct : Ctx) (part : Nat), s.ctx? (bits v.toNat 15 0) = some ct ∧ s.prepPart core prep = some part ∧ s.fenced core = false ∧ ct.core = core ∧ ct.part = part ∧ ct.dropping = false ∧ (bits v.toNat 31 16 + 65536 - ct.head) % 65536 ≤ 2 ^ (ct.queueLog2 + 4))
    ∧ (∃ (s : State) (core : Fin 8) (prep : Fin 4) (v : Word64) (ct : Ctx) (part : Nat), s.ctx? (bits v.toNat 15 0) = some ct ∧ s.prepPart core prep = some part ∧ s.fenced core = false ∧ ct.core = core ∧ ct.part = part ∧ 2 ^ (ct.queueLog2 + 4) < (bits v.toNat 31 16 + 65536 - ct.head) % 65536)
    ∧ (∃ (s : State) (core : Fin 8) (c : Candidate), s.recovering core = false ∧ bestBy (s.candLt core) (s.candidates core) = some c ∧ c.bad = none)
    ∧ (∃ (s : State) (core : Fin 8) (c : Candidate) (code : Word16), s.recovering core = false ∧ bestBy (s.candLt core) (s.candidates core) = some c ∧ c.bad = some code) :=
  ⟨⟨rig, 0, 0, 0x100005, tCtx, 0, by decide +kernel⟩,
   ⟨rig, 0, 0, 0x110005, tCtx, 0, by decide +kernel⟩,
   ⟨tQueued 0 tTail, 0, ⟨0, 5, tTail, [tDesc 0 0], none⟩, by decide +kernel⟩,
   ⟨tQueued 1 tTail, 0, ⟨0, 5, tTail, [tDesc 0 0 + 2 ^ 48], some cmdSEQUENCE⟩, cmdSEQUENCE, by decide +kernel⟩⟩

theorem witness_DispatchedCommandStands :
    ∃ (s : State) (core : Nat) (c : Candidate), s.ctx? c.ctxId = some c.ct ∧ c.ct.core = core :=
  ⟨tQueued 0 tTail, 0, ⟨0, 5, tTail, [tDesc 0 0], none⟩, by decide +kernel⟩

theorem witness_RejectionAndCompletionWriteARecord :
    (∃ (s : State) (ctx : Nat) (ct : Ctx), s.ctx? ctx = some ct ∧ ct.halted = false)
    ∧ (∃ (s : State) (ct : Ctx) (c : Cmd), s.ctx? c.ctx = some ct ∧ ct.halted = false) :=
  ⟨⟨rig, 5, tCtx, by decide +kernel⟩,
   ⟨rig, tCtx, tCmd 0 0, by decide +kernel⟩⟩

theorem witness_RouterCommands :
    (∃ (s : State) (ctx core : Nat) (c : Cmd), s.toIssue ctx 0x00 = some (core, c))
    ∧ (∃ (s : State) (ctx core : Nat) (c : Cmd), s.toIssue ctx 0x10 = some (core, c))
    ∧ (∃ (s : State) (ctx core : Nat) (c : Cmd) (ct : Ctx), s.toIssue ctx 0x11 = some (core, c) ∧ s.ctx? ctx = some ct ∧ seWaitOp (cmdSem (c.desc 0)) ≠ 0)
    ∧ (∃ (s : State) (ctx core : Nat) (c : Cmd), s.toIssue ctx 0x11 = some (core, c) ∧ seWaitOp (cmdSem (c.desc 0)) = 0)
    ∧ (∃ (s : State) (ctx core : Nat) (c : Cmd), s.toIssue ctx 0x12 = some (core, c))
    ∧ (∃ (s : State) (ctx core : Nat) (c : Cmd) (ct : Ctx), s.toIssue ctx 0x31 = some (core, c) ∧ s.ctx? ctx = some ct ∧ ((kgetD c.maps (ckH (c.desc 0)) {}).ring = false ∨ ((kgetD c.maps (ckH (c.desc 0)) {}).slotsOf (ckOff (c.desc 0) * 64) (8 * ckCount (c.desc 0))).all ((s.core core).handle (ckH (c.desc 0))).isFull = true)) :=
  ⟨⟨withCmd (tCmd 0 0), 5, 0, tCmd 0 0, by decide +kernel⟩,
   ⟨withCmd (tCmd 0x10 0), 5, 0, tCmd 0x10 0, by decide +kernel⟩,
   ⟨withCmd (tCmd 0x11 (2 ^ 16)), 5, 0, tCmd 0x11 (2 ^ 16), tCtx, by decide +kernel⟩,
   ⟨withCmd (tCmd 0x11 0), 5, 0, tCmd 0x11 0, by decide +kernel⟩,
   ⟨withCmd (tCmd 0x12 (2 ^ 80)), 5, 0, tCmd 0x12 (2 ^ 80), by decide +kernel⟩,
   ⟨withCmd (tCmd 0x31 (2 ^ 48)), 5, 0, tCmd 0x31 (2 ^ 48), tCtx, by decide +kernel⟩⟩

theorem witness_Semaphores :
    (∃ (s : State) (core : Fin 8) (index : Fin 4096) (v : Word32), (s.core core).sems.ops = [(index.val, .set v)] ∧ (s.core core).sems.waits = [])
    ∧ (∃ (s : State) (core : Fin 8) (index : Fin 4096) (v : Word32), (s.core core).sems.ops = [(index.val, .add v)] ∧ (s.core core).sems.waits = [])
    ∧ (∃ (s : State) (ctx end_ : Nat) (ct : Ctx) (ds : List Nat), s.ctx? ctx = some ct ∧ ct.waiting = some (some end_) ∧ ct.satisfied = false ∧ end_ ≤ s.now ∧ s.headDescs ct = some ds)
    ∧ (∃ (core idx : Nat) (w : SemWait), w.index = idx ∧ core < 8) :=
  ⟨⟨withCore { sems := { ops := [(4095, .set 7)] } }, 0, 4095, 7, by decide +kernel⟩,
   ⟨withCore { sems := { ops := [(4095, .add 0xFFFFFFFF)] } }, 0, 4095, 0xFFFFFFFF, by decide +kernel⟩,
   ⟨tQueued 0 { tTail with waiting := some (some 10000000000) }, 5, 10000000000, { tTail with waiting := some (some 10000000000) }, [tDesc 0 0], by decide +kernel⟩,
   ⟨0, 4095, tWait, by decide +kernel⟩⟩

theorem witness_Credits :
    (∃ (s : State) (ctx core : Nat) (c : Cmd), s.toIssue ctx 0x13 = some (core, c) ∧ s.fenced (crCore (c.desc 0)) = false)
    ∧ (∃ (s : State) (ctx core : Nat) (c : Cmd), s.toIssue ctx 0x13 = some (core, c) ∧ s.fenced (crCore (c.desc 0)) = true)
    ∧ (∃ (s : State) (ctx core : Nat) (c : Cmd), s.toIssue ctx 0x14 = some (core, c))
    ∧ (∃ (s : State) (target : Fin 8) (h : Fin 256) (ctx n since : Nat), s.fenced target = false ∧ (s.core target).creditReqs.find? (fun q => q.1 == h.val) = some (h.val, .context ctx, n, since) ∧ n ≤ (s.core target).creditFree h ∧ 0 < n)
    ∧ (∃ (s : State) (target : Fin 8) (h : Fin 256) (c : Fin 8) (ch n since : Nat), s.fenced target = false ∧ (s.core target).creditReqs.find? (fun q => q.1 == h.val) = some (h.val, .channel c ch, n, since) ∧ n ≤ (s.core target).creditFree h ∧ 0 < n ∧ c.val ≠ target.val)
    ∧ (∃ (s : State) (ctx : Nat) (ct : Ctx) (c : Cmd), s.ctx? ctx = some ct ∧ (s.core ct.core).cmds.find? (fun c => c.ctx == ctx && c.op == 0x13 && c.phase == .running) = some c ∧ (s.core (crCore (c.desc 0))).creditReqs.any (fun q => q.2.1 == .context ctx && q.1 == crH (c.desc 0) && decide (q.2.2.2 + 50000 ≤ s.now)) = true) :=
  ⟨⟨withCmd (tCmd 0x13 (1 + 2 ^ 8 + 2 ^ 16)), 5, 0, tCmd 0x13 (1 + 2 ^ 8 + 2 ^ 16), by decide +kernel⟩,
   ⟨{ withCmd (tCmd 0x13 (1 + 2 ^ 8 + 2 ^ 16)) with cores := [(0, { preps := [(0, 0)], cmds := [tCmd 0x13 (1 + 2 ^ 8 + 2 ^ 16)] }), (1, { seqr := { state := .fenced } })] }, 5, 0, tCmd 0x13 (1 + 2 ^ 8 + 2 ^ 16), by decide +kernel⟩,
   ⟨withCmd (tCmd 0x14 (1 + 2 ^ 8 + 2 ^ 16)), 5, 0, tCmd 0x14 (1 + 2 ^ 8 + 2 ^ 16), by decide +kernel⟩,
   ⟨{ rig with cores := [(1, { handles := [(255, { w0 := 1 })], creditReqs := [(255, .context 5, 1, 0)] })] }, 1, 255, 5, 1, 0, by decide +kernel⟩,
   ⟨{ rig with cores := [(1, { handles := [(255, { w0 := 1 })], creditReqs := [(255, .channel 0 3, 1, 0)] })] }, 1, 255, 0, 3, 1, 0, by decide +kernel⟩,
   ⟨{ rig with cores := [(0, { cmds := [{ tCmd 0x13 (1 + 2 ^ 8 + 2 ^ 16) with phase := .running, stage := 1 }] }), (1, { creditReqs := [(1, .context 5, 1, 9999950000)] })] }, 5, tCtx, { tCmd 0x13 (1 + 2 ^ 8 + 2 ^ 16) with phase := .running, stage := 1 }, by decide +kernel⟩⟩

theorem witness_ChannelCommands :
    (∃ (s : State) (ctx core : Nat) (c : Cmd), s.toIssue ctx 0x20 = some (core, c) ∧ (s.chan core (ssChan (c.desc 0))).state = .free)
    ∧ (∃ (s : State) (ctx core : Nat) (c : Cmd), s.toIssue ctx 0x20 = some (core, c) ∧ (s.chan core (ssChan (c.desc 0))).state ≠ .free)
    ∧ (∃ (s : State) (ctx core : Nat) (c : Cmd), s.toIssue ctx 0x21 = some (core, c) ∧ raStop (c.desc 0) = false ∧ (s.chan core (raChan (c.desc 0))).state = .running ∧ (s.chan core (raChan (c.desc 0))).pending = none)
    ∧ (∃ (s : State) (ctx core : Nat) (c : Cmd), s.toIssue ctx 0x21 = some (core, c) ∧ raStop (c.desc 0) = false ∧ (s.chan core (raChan (c.desc 0))).state = .idle)
    ∧ (∃ (s : State) (ctx core : Nat) (c : Cmd), s.toIssue ctx 0x21 = some (core, c) ∧ raStop (c.desc 0) = true ∧ (s.chan core (raChan (c.desc 0))).state = .idle) :=
  ⟨⟨withCmd (tCmd 0x20 (63 * 2 ^ 256)), 5, 0, tCmd 0x20 (63 * 2 ^ 256), by decide +kernel⟩,
   ⟨withCore { cmds := [tCmd 0x20 (63 * 2 ^ 256)], channels := [(63, { state := .idle })] }, 5, 0, tCmd 0x20 (63 * 2 ^ 256), by decide +kernel⟩,
   ⟨withCore { cmds := [tCmd 0x21 63], channels := [(63, { state := .running })] }, 5, 0, tCmd 0x21 63, by decide +kernel⟩,
   ⟨withCore { cmds := [tCmd 0x21 63], channels := [(63, { state := .idle })] }, 5, 0, tCmd 0x21 63, by decide +kernel⟩,
   ⟨withCore { cmds := [tCmd 0x21 (63 + 2 ^ 10)], channels := [(63, { state := .idle })] }, 5, 0, tCmd 0x21 (63 + 2 ^ 10), by decide +kernel⟩⟩

theorem witness_StagesIssueAndCommandsComplete :
    (∃ (s : State) (ctx core : Nat) (c : Cmd), s.toIssue ctx 0x30 = some (core, c))
    ∧ (∃ (s : State) (ctx core : Nat) (c : Cmd), s.toIssue ctx 0x01 = some (core, c))
    ∧ (∃ (s : State) (ctx core : Nat) (c d : Cmd), s.toIssue ctx 0x02 = some (core, c) ∧ c.stageFree = true ∧ c.walk = none ∧ (s.core core).tagFree false = true ∧ (s.walk core c).cmd? core c.ctx c.seq = some d)
    ∧ (∃ (s : State) (ctx core : Nat) (c d : Cmd), s.toIssue ctx 0x03 = some (core, c) ∧ c.stageFree = true ∧ c.walk = none ∧ (s.core core).tagFree false = true ∧ (s.walk core c).cmd? core c.ctx c.seq = some d)
    ∧ (∃ (s : State) (ctx : Nat) (ct : Ctx) (c : Cmd), s.ctx? ctx = some ct ∧ s.recovering ct.core = false ∧ (s.core ct.core).cmds.find? (fun c => c.ctx == ctx && (s.core ct.core).cmdDone c) = some c)
    ∧ (∃ (c : Cmd) (st : Nat) (live : List Nat), live ≠ [] ∧ dOp (c.desc st) ≠ 0x30) :=
  ⟨⟨withCmd (tCmd 0x30 0), 5, 0, tCmd 0x30 0, by decide +kernel⟩,
   ⟨withCmd (tCmd 1 0), 5, 0, tCmd 1 0, by decide +kernel⟩,
   ⟨withCmd (tCmd 2 0), 5, 0, tCmd 2 0, tCmd 2 0, by decide +kernel⟩,
   ⟨withCmd (tCmd 3 0), 5, 0, tCmd 3 0, tCmd 3 0, by decide +kernel⟩,
   ⟨withCmd ((tCmd 0 0).drain 0), 5, tCtx, (tCmd 0 0).drain 0, by decide +kernel⟩,
   ⟨tCmd 1 0, 0, [0, 15], by decide +kernel⟩⟩

theorem witness_EnginesTakeAndStartItems :
    (∃ (s : State) (core : Fin 8) (e : Fin 16) (w : WorkItem) (l : List WorkItem), s.recovering core = false ∧ s.engineTakes core e = true ∧ s.rerunFor core e core = some (w, l))
    ∧ (∃ (s : State) (core : Fin 8) (e : Fin 16) (near : Bool) (vc ve : Nat) (w : WorkItem), s.recovering core = false ∧ s.engineIdle core e = true ∧ s.rerunFor core e core = none ∧ near = (!s.recovering (core.val ^^^ 1) && (s.rerunFor core e (core.val ^^^ 1)).isSome) ∧ s.stealFor core e near = some (vc, ve, w) ∧ (∀ n, n < e.val → s.engineIdle core n = true → s.stealFor core n near ≠ some (vc, ve, w)))
    ∧ (∃ (s : State) (core : Fin 8) (e : Fin 16) (w : WorkItem) (l : List WorkItem), s.recovering core = false ∧ s.engineIdle core e = true ∧ s.rerunFor core e core = none ∧ s.recovering (core.val ^^^ 1) = false ∧ s.rerunFor core e (core.val ^^^ 1) = some (w, l) ∧ s.stealFor core e true = none)
    ∧ (∃ (s : State) (core : Fin 8) (e : Fin 16) (w : WorkItem) (q : List WorkItem) (c : Cmd) (i segs : Nat), s.recovering core = false ∧ (s.engine core e).running = none ∧ s.rerunFirst core e = false ∧ (s.engine core e).ahead = w :: q ∧ s.cmdOf w = some c ∧ dOp (c.desc w.stage) ≠ 0x30 ∧ (dCoded (c.desc w.stage) = false ∨ w.tag.isSome) ∧ segs = itemSegs (c.desc w.stage) (itemFloat (c.desc w.stage) (s.itemRecord core e w)) ∧ (s.engine core e).freeSet segs = some i ∧ s.itemReady c core e w = true ∧ (w.home = core.val ∨ (s.core core).tagFree false = true))
    ∧ (∃ (core i : Nat), i < 2 ∧ core < 8)
    ∧ (∃ (s : State) (core : Fin 8) (e : Fin 16), s.recovering core = false ∧ (s.engine core e).running.isSome)
    ∧ (∃ (s : State) (core : Fin 8) (e : Fin 16) (w : WorkItem) (q : List WorkItem) (c : Cmd), s.recovering core = false ∧ (s.engine core e).running = none ∧ s.rerunFirst core e = false ∧ (s.engine core e).ahead = w :: q ∧ s.cmdOf w = some c ∧ dOp (c.desc w.stage) = 0x30 ∧ (s.engine core e).veFree = true)
    ∧ (∃ (s : State) (core : Fin 8) (e : Fin 16) (l : List Nat), kget? (s.core core).mismatch e = some l) :=
  ⟨⟨withCore { cmds := [tMatmul 0 1 0], rerun := [{ tItem with checkFail := true, excluded := some 3 }] }, 0, 0, { tItem with checkFail := true, excluded := some 3 }, [], by decide +kernel⟩,
   ⟨withCore { cmds := [tMatmul 0 1 (1 + 2 ^ 151)], engines := [(1, { queue := [tItem, { tItem with ct := 1 }], running := some (tItem, 0) })] }, 0, 0, false, 0, 1, { tItem with ct := 1 }, ⟨rfl, rfl, by decide +kernel, by decide +kernel, by decide +kernel, fun n h => absurd h (Nat.not_lt_zero n)⟩⟩,
   ⟨{ rig with cores := [(1, { cmds := [tMatmul 0 1 (1 + 2 ^ 152)], rerun := [{ tItem with home := 1, checkFail := true, excluded := some 3 }] })] }, 0, 15, { tItem with home := 1, checkFail := true, excluded := some 3 }, [], by decide +kernel⟩,
   ⟨withEngine { queue := [tItem] } (tMatmul 0 1 0), 0, 15, tItem, [], tMatmul 0 1 0, 0, 1, by decide +kernel⟩,
   ⟨7, 1, by decide +kernel⟩,
   ⟨withEngine tRun (tMatmul 0 1 0), 0, 15, by decide +kernel⟩,
   ⟨withEngine { queue := [tItem] } { tCmd 0x30 0 with phase := .running }, 0, 15, tItem, [], { tCmd 0x30 0 with phase := .running }, by decide +kernel⟩,
   ⟨withCore { mismatch := [(15, [0])] }, 0, 15, [0], by decide +kernel⟩⟩

theorem witness_TilesAccumulate :
    (∃ (s : State) (core : Fin 8) (e : Fin 16) (flips : AccFlips) (errs : BoreErrs) (w : WorkItem) (i : Nat) (c : Cmd) (u : State), (s.engine core e).running = some (w, i) ∧ s.cmdOf w = some c ∧ s.recovering core = false ∧ itemSegs (c.desc w.stage) (itemFloat (c.desc w.stage) (s.itemRecord core e w)) = 1 ∧ (s.bellReach c core e w (cdiv (dK (c.desc w.stage)) 32)).2 = true ∧ u = (s.bellReach c core e w (cdiv (dK (c.desc w.stage)) 32)).1.fillFinds c core e w errs ∧ (u.accumulate c core e w 0 (dK (c.desc w.stage)) s.draws flips).res ≠ .fail)
    ∧ (∃ (s : State) (core : Fin 8) (e : Fin 16) (flips : AccFlips) (errs : BoreErrs) (w : WorkItem) (i : Nat) (c : Cmd) (u : State), (s.engine core e).running = some (w, i) ∧ s.cmdOf w = some c ∧ s.recovering core = false ∧ itemSegs (c.desc w.stage) (itemFloat (c.desc w.stage) (s.itemRecord core e w)) = 1 ∧ (s.bellReach c core e w (cdiv (dK (c.desc w.stage)) 32)).2 = true ∧ u = (s.bellReach c core e w (cdiv (dK (c.desc w.stage)) 32)).1.fillFinds c core e w errs ∧ (u.accumulate c core e w 0 (dK (c.desc w.stage)) s.draws flips).res = .fail)
    ∧ (∃ (s : State) (core : Fin 8) (e : Fin 16) (w : WorkItem) (i : Nat) (c : Cmd), (s.engine core e).running = some (w, i) ∧ s.cmdOf w = some c ∧ s.recovering core = false ∧ itemSegs (c.desc w.stage) (itemFloat (c.desc w.stage) (s.itemRecord core e w)) = 1 ∧ (s.bellReach c core e w (cdiv (dK (c.desc w.stage)) 32)).2 = false)
    ∧ (∃ (s : State) (core : Fin 8) (e : Fin 16) (w : WorkItem) (i : Nat) (c : Cmd), (s.engine core e).running = some (w, i) ∧ s.cmdOf w = some c ∧ s.recovering core = false ∧ w.checkFail = false ∧ (s.engine core e).segs < itemSegs (c.desc w.stage) (itemFloat (c.desc w.stage) (s.itemRecord core e w)) ∧ 1 < itemSegs (c.desc w.stage) (itemFloat (c.desc w.stage) (s.itemRecord core e w)) ∧ (s.bellReach c core e w (cdiv (Nat.min (dK (c.desc w.stage)) (4096 * ((s.engine core e).segs + 1))) 32)).2 = true)
    ∧ (∃ (s : State) (core : Fin 8) (e : Fin 16) (w : WorkItem) (i n : Nat) (c : Cmd), (s.engine core e).running = some (w, i) ∧ s.cmdOf w = some c ∧ s.recovering core = false ∧ itemSegs (c.desc w.stage) (itemFloat (c.desc w.stage) (s.itemRecord core e w)) = n ∧ 1 < n ∧ n ≤ (s.engine core e).segs)
    ∧ (∃ (s : State) (w : WorkItem), (∀ c, s.cmdOf w = some c → c.code ≠ recNO_ENGINE)) :=
  ⟨⟨withEngine tRun (tMatmul 0 1 0), 0, 15, [], [], tItem, 0, tMatmul 0 1 0, _, ⟨rfl, by decide +kernel, rfl, by decide +kernel, by decide +kernel, rfl, by decide +kernel⟩⟩,
   ⟨withEngine tRun (tMatmul 0 1 1), 0, 15, [(0, 0, 1)], [], tItem, 0, tMatmul 0 1 1, _, ⟨rfl, by decide +kernel, rfl, by decide +kernel, by decide +kernel, rfl, by decide +kernel⟩⟩,
   ⟨withCore { bore := [(0, 255)], engines := [(15, tRun)], cmds := [{ tMatmul 14 32 0 with maps := [(0, { w0 := 1 + 2 ^ 37 })] }] }, 0, 15, tItem, 0, { tMatmul 14 32 0 with maps := [(0, { w0 := 1 + 2 ^ 37 })] }, by decide +kernel⟩,
   ⟨withEngine tRun (tMatmul 4 4097 1), 0, 15, tItem, 0, tMatmul 4 4097 1, by decide +kernel⟩,
   ⟨withEngine { tRun with segs := 2 } (tMatmul 4 4097 1), 0, 15, tItem, 0, 2, tMatmul 4 4097 1, by decide +kernel⟩,
   ⟨withEngine tRun (tMatmul 0 1 1), tItem, by intro c h; rw [show (withEngine tRun (tMatmul 0 1 1)).cmdOf tItem = some (tMatmul 0 1 1) by decide +kernel] at h; cases h; decide⟩⟩

theorem witness_OutputConversion :
    (∃ (fmt : Nat) (lo hi : Int), intRange fmt = some (lo, hi))
    ∧ (∃ (d : Nat), 0 < d) :=
  ⟨⟨2, -8, 7, by decide +kernel⟩,
   ⟨1, by decide +kernel⟩⟩

theorem witness_EnginesConvertAndRunBodies :
    (∃ (s : State) (core : Fin 8) (e : Fin 16) (i : Nat) (a : AccSet) (w : WorkItem) (c : Cmd), s.recovering core = false ∧ (s.engine core e).oldest .converting = some (i, a, w) ∧ s.cmdOf w = some c ∧ s.convStalled c w = false)
    ∧ (∃ (s : State) (core : Fin 8) (e : Fin 16) (i : Nat) (a : AccSet) (w : WorkItem) (c : Cmd), (s.engine core e).oldest .converting = some (i, a, w) ∧ s.cmdOf w = some c ∧ s.convStalled c w = true)
    ∧ (∃ (s : State) (core : Fin 8) (e : Fin 16) (b : VeBody) (first : Bool) (c : Cmd), s.recovering core = false ∧ (s.engine core e).nextBody = some (b, first) ∧ s.cmdOf b.item = some c)
    ∧ (∃ (g : Engine) (b : VeBody), g.ve.body = some b)
    ∧ (∃ (g : Engine) (w : WorkItem), g.ve.body = none ∧ g.ve.item = some w)
    ∧ (∃ (g : Engine) (i : Nat) (a : AccSet) (w : WorkItem), g.ve.body = none ∧ g.ve.item = none ∧ g.oldest .veHeld = some (i, a, w))
    ∧ (∃ (s : State) (core : Fin 8) (e : Fin 16) (w : WorkItem) (rest : List WorkItem) (c : Cmd) (i : Nat), s.recovering core = false ∧ (s.engine core e).bell.loading = none ∧ (s.engine core e).bell.waiting = w :: rest ∧ s.cmdOf w = some c ∧ (s.engine core e).bell.holds 0 (s.codebookIdent c w) = false ∧ (s.engine core e).bell.holds 1 (s.codebookIdent c w) = false ∧ s.slotsFull w.home (c.ringSlots w.stage (c.bookRanges w.stage (cbBig (s.bufRead w.home (c.map w.stage (dCbH (c.desc w.stage))) 0 8)))) = true ∧ (s.engine core e).bell.freeSlot = some i)
    ∧ (∃ (s : State) (core : Fin 8) (e : Fin 16) (w : WorkItem) (rest : List WorkItem) (c : Cmd), s.recovering core = false ∧ (s.engine core e).bell.loading = none ∧ (s.engine core e).bell.waiting = w :: rest ∧ s.cmdOf w = some c ∧ (s.engine core e).bell.holds 0 (s.codebookIdent c w) = false ∧ (s.engine core e).bell.holds 1 (s.codebookIdent c w) = false ∧ (s.engine core e).bell.freeSlot = none)
    ∧ (∃ (i : Nat), i < 2)
    ∧ (∃ (s : State) (core : Fin 8) (e : Fin 16) (i : Nat) (w : WorkItem) (c : Cmd), s.recovering core = false ∧ i < 2 ∧ (s.engine core e).bell.loading = some (i, w) ∧ s.cmdOf w = some c ∧ cbBad (dBFmt (c.desc w.stage)) (s.bufRead w.home (c.map w.stage (dCbH (c.desc w.stage))) 0 8) = false)
    ∧ (∃ (s : State) (core : Fin 8) (e : Fin 16) (w : WorkItem) (j d a : Nat) (rest : List (Nat × Nat)) (c : Cmd), s.recovering core = false ∧ (s.engine core e).running = some (w, j) ∧ (s.engine core e).bell.extReads = (d, a) :: rest ∧ s.cmdOf w = some c ∧ s.ownedBy c.part a 64 = true) :=
  ⟨⟨withEngine { set0 := { state := .converting, item := some tItem } } (tMatmul 0 1 0), 0, 15, 0, { state := .converting, item := some tItem }, tItem, tMatmul 0 1 0, by decide +kernel⟩,
   ⟨withCore { engines := [(15, { set0 := { state := .converting, item := some tItem } })], cmds := [{ tMatmul 0 1 0 with maps := [(0, { w0 := 1 + 2 ^ 4 + 2 ^ 32, w1 := 1 })] }], handles := [(0, { w0 := 1 + 2 ^ 4 + 2 ^ 32, w1 := 1, full := 1 })] }, 0, 15, 0, { state := .converting, item := some tItem }, tItem, { tMatmul 0 1 0 with maps := [(0, { w0 := 1 + 2 ^ 4 + 2 ^ 32, w1 := 1 })] }, by decide +kernel⟩,
   ⟨withEngine { set1 := { state := .veHeld, item := some tItem } } (tMatmul 0 1 0), 0, 15, { item := tItem, set := some 1, left := [] }, true, tMatmul 0 1 0, by decide +kernel⟩,
   ⟨{ ve := { body := some { item := tItem, set := none, left := [(3, 0)] } } }, { item := tItem, set := none, left := [(3, 0)] }, by decide +kernel⟩,
   ⟨{ ve := { item := some tItem } }, tItem, by decide +kernel⟩,
   ⟨{ set1 := { state := .veHeld, item := some tItem } }, 1, { state := .veHeld, item := some tItem }, tItem, by decide +kernel⟩,
   ⟨withEngine { bell := { waiting := [tItem] } } (tMatmul 9 32 0), 0, 15, tItem, [], tMatmul 9 32 0, 0, by decide +kernel⟩,
   ⟨withEngine { bell := { waiting := [tItem], slot0 := { tagCount := 1 }, slot1 := { tagCount := 1 } } } (tMatmul 9 32 0), 0, 15, tItem, [], tMatmul 9 32 0, by decide +kernel⟩,
   ⟨1, by decide +kernel⟩,
   ⟨withEngine { queue := [tItem], bell := { loading := some (1, tItem) } } (tMatmul 9 32 0), 0, 15, 1, tItem, tMatmul 9 32 0, by decide +kernel⟩,
   ⟨withEngine { tRun with bell := { extReads := [(7, 0x100000000)] } } (tMatmul 9 32 0), 0, 15, tItem, 0, 7, 0x100000000, [], tMatmul 9 32 0, by decide +kernel⟩⟩

theorem witness_PrepStores :
    (∃ (s : State) (core : Fin 8) (prep : Fin 4) (addr : Fin 8704) (v : Word64) (part : Nat), s.prepPart core prep = some part ∧ addr.val % 8 = 0 ∧ s.fenced core = false ∧ 32 ≤ addr.val ∧ addr.val < 8192 ∧ (8 ≤ addr.val % 32 ∨ (((s.core core).handle (addr.val / 32)).store part (addr.val % 32 / 8) v).pool = false) ∧ s.handleBusy core (addr.val / 32) = false)
    ∧ (∃ (s : State) (core : Fin 8) (prep : Fin 4) (addr : Fin 8704) (part : Nat), s.prepPart core prep = some part ∧ addr.val % 8 = 0 ∧ s.fenced core = false ∧ 32 ≤ addr.val ∧ addr.val < 8192 ∧ s.handleBusy core (addr.val / 32) = true)
    ∧ (∃ (s : State) (core : Fin 8), s.fenced core = false) :=
  ⟨⟨rig, 0, 0, 8160, 1, 0, by decide +kernel⟩,
   ⟨withChan tChan, 0, 0, 32, 0, by decide +kernel⟩,
   ⟨rig, 0, by decide +kernel⟩⟩

theorem witness_PagesAreFreedAndReleased :
    (∃ (s : State) (core : Fin 8) (prep : Fin 4) (part : Nat), s.prepPart core prep = some part ∧ s.fenced core = false)
    ∧ (∃ (s : State) (p : Fin 8) (v : Word64) (e : Nat) (rest : List (Word64 × Nat)) (r : PartRec), kgetD s.mem.freed p [] = (v, e) :: rest ∧ kget? s.persist.parts p = some r ∧ s.oldestWalk p = none ∧ s.releaseValid r.releaseRing (kgetD s.mem.releaseWr p 0) = false ∧ s.ownedBy p (r.releaseRing + 16 * kgetD s.mem.releaseWr p 0) 16 = true)
    ∧ (∃ (s : State) (p : Fin 8) (v : Word64) (e n : Nat) (rest : List (Word64 × Nat)), kgetD s.mem.freed p [] = (v, e) :: rest ∧ s.oldestWalk p = some n ∧ n ≤ e) :=
  ⟨⟨rig, 0, 0, 0, by decide +kernel⟩,
   ⟨tFreed [(5, 4)], 0, 5, 4, [], tPart, by decide +kernel⟩,
   ⟨{ tFreed [(5, 4)] with cores := [(0, { cmds := [tWalk none] })] }, 0, 5, 4, 4, [], by decide +kernel⟩⟩

theorem witness_LinkRequestsAreTakenAndEnd :
    (∃ (s : State) (core : Fin 8) (prep : Fin 4) (tail : Word16) (part : Nat) (r : PartRec), s.prepPart core prep = some part ∧ kget? s.persist.parts part = some r ∧ s.fenced core = false ∧ (tail.toNat + 65536 - kgetD s.svc.linkTail part 0) % 65536 ≤ 1024)
    ∧ (∃ (s : State) (p : Fin 8) (rec_ : PartRec) (r : LinkReq), kget? s.persist.parts p = some rec_ ∧ s.svc.linkReqs.find? (fun r => r.part == p.val && r.left == 0) = some r ∧ s.ownedBy p (rec_.linkRing + 32 * r.idx + 30) 2 = true)
    ∧ (∃ (s : State) (link : Fin 8) (tag : BitVec 10) (w : LinkWait), (s.link link).waits.find? (fun w => w.tag == tag.toNat && w.op == 0) = some w ∧ w.since + kgetD s.persist.kvWalkBound w.part 15000 ≤ s.now) :=
  ⟨⟨rig, 0, 0, 1024, 0, tPart, by decide +kernel⟩,
   ⟨{ rig with svc := { rig.svc with linkReqs := [tLinkReq] } }, 0, tPart, tLinkReq, by decide +kernel⟩,
   ⟨withLink { up := true, waits := [tLinkWait] }, 7, 1023, tLinkWait, by decide +kernel⟩⟩

theorem witness_WalksAndContextSlots :
    (∃ (s : State) (ctx core l : Nat) (c : Cmd) (w : Walk) (q : Nat × Nat × Nat × Nat × Nat × Nat) (rest : List (Nat × Nat × Nat × Nat × Nat × Nat)), s.walkCmd ctx = some (core, c, w) ∧ s.recovering core = false ∧ w.asked = none ∧ w.pairs = q :: rest ∧ s.peerLink c.part (pairRef q).peer = some l ∧ (s.link l).waits.length ≤ 1020 ∧ s.mem.hubTags ≤ 4092)
    ∧ (∃ (s : State) (ctx core : Nat) (c : Cmd) (w : Walk) (q : Nat × Nat × Nat × Nat × Nat × Nat) (rest : List (Nat × Nat × Nat × Nat × Nat × Nat)), s.walkCmd ctx = some (core, c, w) ∧ s.recovering core = false ∧ w.asked = none ∧ w.pairs = q :: rest ∧ s.peerLink c.part (pairRef q).peer = none ∧ bit (kgetD s.persist.kvPeer (c.part * 16 + (pairRef q).peer) 0) 3 = false)
    ∧ (∃ (s : State) (ctx core t0 : Nat) (c : Cmd) (w : Walk) (q : Nat × Nat × Nat × Nat × Nat × Nat) (rest : List (Nat × Nat × Nat × Nat × Nat × Nat)), s.walkCmd ctx = some (core, c, w) ∧ w.asked = some t0 ∧ w.pairs = q :: rest ∧ t0 + kgetD s.persist.kvWalkBound c.part 15000 ≤ s.now)
    ∧ (∃ (s : State) (ctx i : Nat) (ct : Ctx) (b : Bool) (t : State), s.ctx? ctx = some ct ∧ s.recovering ct.core = false ∧ s.runnable ctx ct = true ∧ s.victim ctx ct = some (i, b) ∧ t = s.modCore ct.core (fun k => { k with slots := kdel k.slots i, swaps := k.swaps ++ [(ctx, i, s.now)], schedStats := lbump k.schedStats 2 (b2n b) }))
    ∧ (∃ (s : State) (ctx i n : Nat) (ct : Ctx), s.ctx? ctx = some ct ∧ (s.core ct.core).swaps.find? (fun w => w.1 == ctx) = some (ctx, i, n))
    ∧ (∃ (s : State) (init : CtxInit) (ct : Ctx), s.ctx? init.ctxId = some ct ∧ s.fw = true) :=
  ⟨⟨{ withCmd (tWalk none) with persist := { rig.persist with kvPeer := [(2, 15)] }, links := [(7, { up := true })] }, 5, 0, 7, tWalk none, { epoch := 4, stage := 0, pairs := [(2, 1, 0, 0, 0, 0)] }, (2, 1, 0, 0, 0, 0), [], by decide +kernel⟩,
   ⟨withCmd (tWalk none), 5, 0, tWalk none, { epoch := 4, stage := 0, pairs := [(2, 1, 0, 0, 0, 0)] }, (2, 1, 0, 0, 0, 0), [], by decide +kernel⟩,
   ⟨withCmd (tWalk (some 9999985000)), 5, 0, 9999985000, tWalk (some 9999985000), { epoch := 4, stage := 0, pairs := [(2, 1, 0, 0, 0, 0)], asked := some 9999985000 }, (2, 1, 0, 0, 0, 0), [], by decide +kernel⟩,
   ⟨{ tQueued 0 tTail with cores := [] }, 5, 0, tTail, false, _, ⟨rfl, rfl, by decide +kernel, by decide +kernel, rfl⟩⟩,
   ⟨withCore { swaps := [(5, 15, 9999990000)] }, 5, 15, 9999990000, tCtx, by decide +kernel⟩,
   ⟨rig, tInit 5 0 0 0 7 0x100400000, tCtx, by decide +kernel⟩⟩

theorem witness_ChannelPieces :
    (∃ (s : State) (core : Fin 8) (n : Fin 64), s.recovering core = false ∧ (s.chan core n).state = .running ∧ (s.chan core n).issued < sdTotal (s.chan core n).desc.toNat ∧ s.sideFenced (s.chan core n) = false)
    ∧ (∃ (s : State) (core : Fin 8) (n : Fin 64), s.recovering core = false ∧ (s.chan core n).state = .running ∧ (s.chan core n).issued < sdTotal (s.chan core n).desc.toNat ∧ s.sideFenced (s.chan core n) = true)
    ∧ (∃ (s : State) (core : Fin 8) (n : Fin 64), s.recovering core = false ∧ (s.chan core n).state = .failed ∧ (s.chan core n).owed ≠ [] ∧ s.sideFenced (s.chan core n) = false)
    ∧ (∃ (s : State) (core : Fin 8) (n : Fin 64) (piece : Nat) (q : Piece) (t : State), s.recovering core = false ∧ (s.chan core n).state = .running ∧ (s.chan core n).flight[piece]? = some q ∧ s.sideFenced (s.chan core n) = false ∧ (s.chan core n).dstRing = false ∧ (s.chan core n).issued < sdTotal (s.chan core n).desc.toNat ∧ t = (s.pieceWrite core (s.chan core n) q).modChan core n (fun c => { c with flight := c.flight.eraseIdx piece }))
    ∧ (∃ (s : State) (core : Fin 8) (n : Fin 64) (t0 : Nat), (s.chan core n).poolSince = some t0 ∧ (s.chan core n).state = .running ∧ t0 + 50000 ≤ s.now) :=
  ⟨⟨withChan tChan, 0, 63, by decide +kernel⟩,
   ⟨{ rig with cores := [(0, { channels := [(63, tPush)] }), (1, { seqr := { state := .fenced } })] }, 0, 63, by decide +kernel⟩,
   ⟨withChan { tChan with state := .failed, owed := [1] }, 0, 63, by decide +kernel⟩,
   ⟨withChan { tChan with flight := [{ pos := 0, len := 32, data := List.replicate 32 1, poison := [false] }], issued := 32 }, 0, 63, 0, { pos := 0, len := 32, data := List.replicate 32 1, poison := [false] }, _, ⟨rfl, rfl, rfl, by decide +kernel, by decide +kernel, by decide +kernel, rfl⟩⟩,
   ⟨withChan { tChan with poolSince := some 9999950000 }, 0, 63, 9999950000, by decide +kernel⟩⟩

theorem witness_MemoryAndEventLog :
    (∃ (s : State) (die : Fin 2) (src : HbmId) (a : BitVec 40) (bs : List Byte), (hbmPlace a.toNat).map Prod.fst = some die.val ∧ s.mayAccess src a.toNat bs.length true = true)
    ∧ (∃ (s : State) (src : HbmId) (a : BitVec 40) (bs : List Byte), s.mayAccess src a.toNat bs.length true = false)
    ∧ (∃ (s : State) (die : Fin 2) (src : HbmId) (a : BitVec 40) (n : Nat), (hbmPlace a.toNat).map Prod.fst = some die.val ∧ s.mayAccess src a.toNat n false = true ∧ s.wcHolds a.toNat = false)
    ∧ (∃ (s : State) (slice : Fin 16) (m : Miss) (rest : List Miss) (w : Nat), kgetD s.mem.misses slice [] = m :: rest ∧ (s.persist.fillWays (m.part.getD 0xFE) (slice.val / 8)).find? (fun w => !(kgetD s.mem.sets (wcSet m.line) []).any (fun q => q.1 == w)) = some w)
    ∧ (∃ (s : State), s.hbmUp = true)
    ∧ (∃ (s : State) (e : EventRec), s.hbmUp = true ∧ (∀ x ∈ s.recov.errors, s.now ≤ x.time + 2000) ∧ nextEvent (s.recov.heldEvents ++ s.recov.errors) s.now = some e)
    ∧ (∃ (s : State) (x : EventRec), s.hbmUp = true ∧ s.recov.errors = [x] ∧ x.time + 2000 < s.now ∧ nextEvent s.recov.heldEvents s.now = none) :=
  ⟨⟨rig, 0, .partition 0, 0x1FFFFFFFF, [7], by decide +kernel⟩,
   ⟨rig, .partition 0, 0x1FFFFFFFF, [7, 8], by decide +kernel⟩,
   ⟨rig, 0, .partition 0, 0x100000000, 64, by decide +kernel⟩,
   ⟨{ rig with mem := { misses := [(7, [{ line := 0x2000000, part := some 0 }])] } }, 7, { line := 0x2000000, part := some 0 }, [], 1, by decide +kernel⟩,
   ⟨rig, by decide +kernel⟩,
   ⟨{ rig with recov := { heldEvents := [tEvent] } }, tEvent, by decide +kernel⟩,
   ⟨{ rig with recov := { errors := [{ tEvent with time := 9999997000 }], heldEvents := [] } }, { tEvent with time := 9999997000 }, by decide +kernel⟩⟩

theorem witness_RecoverySequence :
    (∃ (s : State) (core : Fin 8) (u : DroneUnit) (b : Nat), s.hbmUp = true ∧ s.recovering core = false ∧ (kgetD (s.core core).progress (unitIndex u) {}).since = some b ∧ s.unitPending core (unitIndex u) = true ∧ Nat.max (kgetD (s.core core).progress (unitIndex u) {}).last b + s.persist.windowNs ≤ s.now + 1000)
    ∧ (∃ (s : State) (core : Fin 8) (u : DroneUnit) (b : Nat), s.hbmUp = true ∧ s.recovering core = true ∧ (kgetD (s.core core).progress (unitIndex u) {}).since = some b ∧ s.unitPending core (unitIndex u) = true ∧ Nat.max (kgetD (s.core core).progress (unitIndex u) {}).last b + s.persist.windowNs ≤ s.now + 1000)
    ∧ (∃ (s : State) (core : Fin 8) (part : DumpPart) (i : Nat), (s.core core).seqr.dump = some i ∧ partNo part ∈ (s.core core).seqr.unread ∧ s.now ≤ (s.core core).seqr.declared + 4000)
    ∧ (∃ (s : State) (core : Fin 8), (s.core core).seqr.state = .fenced ∧ (s.core core).seqr.declared + 4000 ≤ s.now)
    ∧ (∃ (s : State) (c : Fin 8), (s.core c).seqr.state = .fenced ∧ (s.core c).seqr.byDie = false ∧ (s.core c).outstanding = 0 ∧ s.now ≤ (s.core c).seqr.declared + 5000)
    ∧ (∃ (s : State) (c : Fin 8), (s.core c).seqr.state = .resetting ∧ (s.core c).seqr.byDie = false ∧ s.now ≤ (s.core c).seqr.resetAt + 20000)
    ∧ (∃ (s : State) (c : Fin 8), (s.core c).seqr.state = .resuming ∧ (s.core c).seqr.byDie = false ∧ s.now ≤ (s.core c).seqr.doneAt + 10000)
    ∧ (∃ (s : State) (d : Fin 2), (s.die d).state = .fenced ∧ ((∀ c ∈ coresOfDie d, (s.core c).outstanding = 0) ∨ (s.die d).declared + 4000 ≤ s.now))
    ∧ (∃ (s : State) (d : Fin 2), (s.die d).state = .resetting)
    ∧ (∃ (s : State) (d : Fin 2), (s.die d).state = .resuming)
    ∧ (∃ (s : State) (c : Fin 8) (at_ : Nat), (s.core c).seqr.serviceAt = some at_ ∧ at_ ≤ s.now)
    ∧ (∃ (s : State) (i : Fin 16384) (x : StreamCtx) (e : Nat), s.stream? i = some x ∧ x.clearanceEnd = some e ∧ e ≤ s.now)
    ∧ (∃ (s : State) (c : Fin 8), (s.core c).seqr.state = .resetting ∧ (s.core c).seqr.byDie = false ∧ (s.core c).seqr.resetAt + 20000 ≤ s.now)
    ∧ (∃ (s : State) (d : Fin 2), (s.die d).state = .resetting ∧ (s.die d).resetAt + 40000 ≤ s.now) :=
  ⟨⟨withCore { channels := [(63, tChan)], progress := [(111, { since := some 9999901000 })] }, 0, .channel 63, 9999901000, by decide +kernel⟩,
   ⟨withCore { seqr := { state := .fenced }, channels := [(63, tChan)], progress := [(111, { since := some 9999901000 })] }, 0, .channel 63, 9999901000, by decide +kernel⟩,
   ⟨withSeq { dump := some 15, unread := [31, 32], declared := 9999996000 }, 0, .bank 31, 15, by decide +kernel⟩,
   ⟨withSeq { state := .fenced, declared := 9999995000 }, 0, by decide +kernel⟩,
   ⟨withSeq { state := .fenced, declared := 9999995000 }, 0, by decide +kernel⟩,
   ⟨withSeq { state := .resetting, resetAt := 9999980000 }, 0, by decide +kernel⟩,
   ⟨withSeq { state := .resuming, doneAt := 9999990000 }, 0, by decide +kernel⟩,
   ⟨{ rig with recov := { dies := [(1, { state := .fenced, declared := 9999996000 })] } }, 1, ⟨rfl, Or.inr (by decide +kernel)⟩⟩,
   ⟨{ rig with recov := { dies := [(1, { state := .resetting })] } }, 1, by decide +kernel⟩,
   ⟨{ rig with recov := { dies := [(1, { state := .resuming })] } }, 1, by decide +kernel⟩,
   ⟨withSeq { serviceAt := some 10000000000 }, 0, 10000000000, by decide +kernel⟩,
   ⟨withStream rig { tStream with clearanceEnd := some 10000000000 }, 3, { tStream with clearanceEnd := some 10000000000 }, 10000000000, by decide +kernel⟩,
   ⟨withSeq { state := .resetting, resetAt := 9999980000 }, 0, by decide +kernel⟩,
   ⟨{ rig with recov := { dies := [(1, { state := .resetting, resetAt := 9999960000 })] } }, 1, by decide +kernel⟩⟩

theorem witness_LinksTrainAndCarry :
    (∃ (s : State) (l : Fin 8) (f : Flit), f.payload.length = 242 ∧ (s.link l).trained = true ∧ f.crcOk = true ∧ bits f.header.toNat 63 60 = 0 ∧ bits f.header.toNat 59 48 = (s.link l).rxSeq)
    ∧ (∃ (s : State) (l : Fin 8) (f : Flit), f.payload.length = 242 ∧ (s.link l).trained = true ∧ f.crcOk = false ∧ (s.link l).nakSent = false)
    ∧ (∃ (s : State) (l : Fin 8) (n : BitVec 12), (s.link l).trained = true ∧ ((s.link l).ackTo n.toNat).replay = [])
    ∧ (∃ (s : State) (l : Fin 8), (s.link l).trained = true)
    ∧ (∃ (s : State) (l : Fin 8), s.fw = true ∧ s.linkEnabled l = true ∧ (s.link l).trained = false ∧ (kgetD s.persist.linkPeer l []).all (· == 0) = false)
    ∧ (∃ (s : State) (l : Fin 8) (t0 : Nat), (s.link l).trainSince = some t0 ∧ (s.link l).up = false ∧ (s.link l).peerAbsent = false ∧ t0 + 50000000 ≤ s.now)
    ∧ (∃ (s : State) (l : Fin 8), (s.link l).trained = true ∧ (s.link l).up = false ∧ (kgetD s.persist.linkPeer l []).all (· == 0) = false)
    ∧ (∃ (s : State) (l : Fin 8), (s.link l).up = true) :=
  ⟨⟨withLink { trained := true, rxSeq := 4095 }, 7, tFlit 4095 true, by decide +kernel⟩,
   ⟨withLink { trained := true }, 7, tFlit 0 false, by decide +kernel⟩,
   ⟨withLink { trained := true, replay := [(4095, 1)] }, 7, 4095, by decide +kernel⟩,
   ⟨withLink { trained := true }, 7, by decide +kernel⟩,
   ⟨tPeer, 7, by decide +kernel⟩,
   ⟨withLink { trainSince := some 9950000000 }, 7, 9950000000, by decide +kernel⟩,
   ⟨{ tPeer with links := [(7, { trained := true })] }, 7, by decide +kernel⟩,
   ⟨withLink { up := true }, 7, by decide +kernel⟩⟩

theorem witness_LinkMessages :
    (∃ (s u : State) (l : Fin 8) (m : LinkMsg), m.tagOk = true ∧ s.linkMsg? l m = some u ∧ lhOp m.header.toNat = 0 ∧ u.inWindow l (lhPart m.header.toNat) (lhOff m.header.toNat) (linkPayload m.header.toNat m).length = true)
    ∧ (∃ (s u : State) (l : Fin 8) (m : LinkMsg), m.tagOk = true ∧ s.linkMsg? l m = some u ∧ lhOp m.header.toNat = 0 ∧ u.inWindow l (lhPart m.header.toNat) (lhOff m.header.toNat) (linkPayload m.header.toNat m).length = false)
    ∧ (∃ (s u : State) (l : Fin 8) (m : LinkMsg), m.tagOk = true ∧ s.linkMsg? l m = some u ∧ lhOp m.header.toNat = 2 ∧ 0 < lhLen m.header.toNat ∧ lhLen m.header.toNat ≤ 4096 ∧ u.inWindow l (lhPart m.header.toNat) (lhOff m.header.toNat) (lhLen m.header.toNat) = true)
    ∧ (∃ (s u : State) (l : Fin 8) (m : LinkMsg) (w : LinkWait), m.tagOk = true ∧ s.linkMsg? l m = some u ∧ lhOp m.header.toNat = 1 ∧ (u.link l).waits.find? (fun w => w.tag == lhTag m.header.toNat) = some w ∧ w.ctx = none)
    ∧ (∃ (s : State) (l : Fin 8) (m : LinkMsg), m.tagOk = false ∧ (s.link l).up = true) :=
  ⟨⟨tIn (tMsg 0 2 4096 (List.replicate 4096 1) true), (tIn (tMsg 0 2 4096 (List.replicate 4096 1) true)).linkDrained 7 (lhTc (tMsg 0 2 4096 (List.replicate 4096 1) true).header.toNat) (tMsg 0 2 4096 (List.replicate 4096 1) true).payload.length, 7, tMsg 0 2 4096 (List.replicate 4096 1) true, ⟨rfl, tDrained _ _ rfl, by decide +kernel, tWindow_in rfl (by decide +kernel) (by decide +kernel)⟩⟩,
   ⟨withLink { up := true }, (withLink { up := true }).linkDrained 7 2 4, 7, { tMsg 0 2 4 [1, 2, 3, 4] true with header := BitVec.ofNat 128 (2 * 2 ^ 121 + 7 * 2 ^ 118 + 4 * 2 ^ 64 + 0x3FFFFFFF) }, ⟨rfl, rfl, by decide +kernel, tOutside⟩⟩,
   ⟨tIn (tMsg 2 2 4096 [] true), (tIn (tMsg 2 2 4096 [] true)).linkDrained 7 (lhTc (tMsg 2 2 4096 [] true).header.toNat) (tMsg 2 2 4096 [] true).payload.length, 7, tMsg 2 2 4096 [] true, ⟨rfl, tDrained _ _ rfl, by decide +kernel, by decide +kernel, by decide +kernel, tWindow_in rfl (by decide +kernel) (by decide +kernel)⟩⟩,
   ⟨withLink { up := true, waits := [tLinkWait] }, (withLink { up := true, waits := [tLinkWait] }).linkDrained 7 2 2, 7, tMsg 1 2 2 [0, 0] true, tLinkWait, ⟨rfl, rfl, by decide +kernel, by decide +kernel, rfl⟩⟩,
   ⟨withLink { up := true }, 7, tMsg 0 2 4 [] false, by decide +kernel⟩⟩

theorem witness_PowerSequence :
    (∃ (s : State) (mv : Nat), s.aon.phase = .unpowered ∧ 40000 ≤ mv ∧ mv ≤ 62000)
    ∧ (∃ (s : State) (n : Nat), s.aon.phase = .standby ∧ s.aon.pwrEn = false ∧ s.aon.lowSince = some n ∧ n + 100000000 ≤ s.aon.clock ∧ s.aon.downGroup = none ∧ 50000 ≤ s.aon.inputMv ∧ s.aon.inputMv ≤ 59500 ∧ standingTrips s.aon.temps = [] ∧ heldFor s.aon.since 32 (limitHold 32) s.aon.clock = false ∧ heldFor s.aon.since 31 (limitHold 31) s.aon.clock = false)
    ∧ (∃ (s : State), s.aon.phase = .sequencing ∧ s.aon.groups < 6 ∧ s.aon.clock ≤ s.aon.seqStart + groupBound (s.aon.groups + 1) + 2000000)
    ∧ (∃ (s : State), s.aon.phase = .sequencing ∧ s.aon.seqStart + groupBound (s.aon.groups + 1) + 2000000 ≤ s.aon.clock)
    ∧ (∃ (s : State) (rail : Fin 9) (mv : Int), s.aon.phase.powered = true ∧ railGroup.getD rail 0 ≤ s.aon.groups ∧ (railNominal.getD rail 0 : Int) < 20 * (mv - railNominal.getD rail 0).natAbs)
    ∧ (∃ (s : State) (high : Bool) (mv : Int), s.aon.phase.powered = true ∧ (if high then 60000 < mv else mv < 49500))
    ∧ (∃ (s : State) (sensor : Fin 25) (mC w trip : Int), s.aon.phase.powered = true ∧ tempLimits sensor = some (w, trip) ∧ trip ≤ mC)
    ∧ (∃ (s : State) (sensor : Fin 25) (mC w trip : Int) (r : ShutdownRec), s.sameDecision = true ∧ s.aon.pending = some r ∧ tempLimits sensor = some (w, trip) ∧ trip ≤ mC)
    ∧ (∃ (s : State), s.aon.phase = .standby ∧ (s.aon.pwrEn = false ∨ s.aon.highWaits ≠ none))
    ∧ (∃ (s : State), s.aon.phase.powered = true ∧ s.aon.pwrEn = true)
    ∧ (∃ (s : State) (g : Nat), s.aon.downGroup = some g)
    ∧ (∃ (s : State) (n : Nat), s.aon.phase = .shutdown ∧ s.aon.lowSince = some n ∧ n + 100000000 ≤ s.aon.clock ∧ s.aon.pwrEn = false) :=
  ⟨⟨withAon {}, 40000, by decide +kernel⟩,
   ⟨withAon { phase := .standby, clock := 100000000, inputMv := 59500, temps := List.replicate 25 40000 }, 0, by decide +kernel⟩,
   ⟨withAon { phase := .sequencing, groups := 5, clock := 17000000 }, by decide +kernel⟩,
   ⟨withAon { phase := .sequencing, groups := 5, clock := 17000000 }, by decide +kernel⟩,
   ⟨withAon { phase := .running, groups := 6 }, 8, railNominal.getD 8 0 + railNominal.getD 8 0 / 20 + 1, by decide +kernel⟩,
   ⟨rig, true, 60001, by decide +kernel⟩,
   ⟨rig, 24, 125000, 110000, 125000, by decide +kernel⟩,
   ⟨withAon { phase := .shutdown, decided := some 0, pending := some { cause := 4, sensor := 0, value := 0 } }, 24, 125000, 110000, 125000, { cause := 4, sensor := 0, value := 0 }, by decide +kernel⟩,
   ⟨withAon { phase := .standby }, by decide +kernel⟩,
   ⟨rig, by decide +kernel⟩,
   ⟨withAon { phase := .standby, downGroup := some 6 }, 6, by decide +kernel⟩,
   ⟨withAon { phase := .shutdown, lowSince := some 0, clock := 100000000, pwrEn := false }, 0, by decide +kernel⟩⟩

theorem witness_ResetAndBoot :
    (∃ (s : State), (s.aon.phase = .running ∨ s.aon.phase = .internalReset))
    ∧ (∃ (s : State), s.aon.phase = .resetHeld)
    ∧ (∃ (s : State) (c0 c1 : ImageCheck), s.aon.boot = .rom ∧ s.persist.bootable (s.persist.activeSlot 0) = true ∧ s.persist.imageTest (s.persist.activeSlot 0) (if s.persist.activeSlot 0 = 0 then c0 else c1) = none)
    ∧ (∃ (s : State), s.aon.boot = .hbm)
    ∧ (∃ (s : State) (slot : Nat), s.hbmUp = true ∧ s.clotha.dictReady = false ∧ s.aon.activating = none ∧ s.aon.sfSlot = some slot)
    ∧ (∃ (s : State) (c2 c3 : ImageCheck) (slot : Nat), s.hbmUp = true ∧ s.clotha.dictReady = false ∧ s.aon.activating = none ∧ s.aon.sfSlot = none ∧ s.aon.straps.boot ≠ 2 ∧ s.persist.parts = [] ∧ s.bootOrder.head? = some slot ∧ s.persist.bootable slot = true ∧ s.persist.imageTest slot (if slot = 2 then c2 else c3) = none)
    ∧ (∃ (s : State), s.clotha.dictReady = true ∧ s.aon.boot = .firmware) :=
  ⟨⟨rig, by decide +kernel⟩,
   ⟨withAon { rig.aon with phase := .resetHeld, rstLow := true }, by decide +kernel⟩,
   ⟨withAon { rig.aon with boot := .rom }, ⟨true, true, true⟩, ⟨false, false, false⟩, by decide +kernel⟩,
   ⟨withAon { rig.aon with boot := .hbm }, by decide +kernel⟩,
   ⟨{ withAon { rig.aon with boot := .firmware } with clotha := {} }, 2, by decide +kernel⟩,
   ⟨{ noParts with aon := { rig.aon with boot := .firmware, sfSlot := none }, clotha := {} }, ⟨true, true, true⟩, ⟨false, false, false⟩, 2, by decide +kernel⟩,
   ⟨withAon { rig.aon with boot := .firmware }, by decide +kernel⟩⟩

end Sys2Proof.Tests
end

/-! PROOFS. The matrix engines' tiles: what an accumulation's end does with the running item (R183, R209, R214, R223, R225, R304). -/

namespace Sys2Proof.Machine

/-! ### Readings of a core that an update keeps -/

/-- An update that keeps a reading of the core it changes keeps that reading of every core. -/
theorem State.core_modCore_keeps {α : Type} (p : Core → α) (s : State) (c d : Nat) (f : Core → Core)
    (h : ∀ k, p (f k) = p k) : p ((s.modCore c f).core d) = p (s.core d) := by
  by_cases hd : d = c
  · rw [hd, State.core_modCore_self, h]
  · rw [State.core_modCore_ne s f hd]

theorem State.core_modCores_keeps {α : Type} (p : Core → α) (s : State) (f : Nat → Core → Core) (d : Nat)
    (h : ∀ c k, p (f c k) = p k) : p ((s.modCores f).core d) = p (s.core d) :=
  foldl_proj (fun t => p (t.core d)) _ (fun t c => t.core_modCore_keeps p c d (f c) (h c)) _ s

/-- A change of one command changes nothing of a core but its commands. -/
theorem State.core_modCmdOf_keeps {α : Type} (p : Core → α) (s : State) (w : WorkItem) (f : Cmd → Cmd) (d : Nat)
    (h : ∀ k l, p { k with cmds := l } = p k) : p ((s.modCmdOf w f).core d) = p (s.core d) :=
  s.core_modCore_keeps p w.home d _ (fun k => h k _)

/-- The charge of an item changes nothing of a core but its commands. -/
theorem State.core_chargeItem_keeps {α : Type} (p : Core → α) (s : State) (eng : Nat) (w : WorkItem) (rerun : Bool) (d : Nat)
    (h : ∀ k l, p { k with cmds := l } = p k) : p ((s.chargeItem eng w rerun).core d) = p (s.core d) :=
  s.core_modCores_keeps p _ d (fun _ k => h k _)

/-- A reading of an engine that an update keeps is kept of every engine. -/
theorem State.engine_modEngine_keeps {α : Type} (p : Engine → α) (s : State) (c e d n : Nat) (f : Engine → Engine)
    (h : ∀ g, p (f g) = p g) : p ((s.modEngine c e f).engine d n) = p (s.engine d n) := by
  refine s.core_modCore_keeps (fun k => p (k.engine n)) c d _ (fun k => ?_)
  by_cases hn : n = e
  · rw [hn, Core.engine_modEngine_self, h]
  · exact congrArg p (kgetD_kmod_ne k.engines {} {} f hn)

@[simp] theorem State.engine_takeTag (s : State) (core unit d n : Nat) : (s.takeTag core unit).1.engine d n = s.engine d n := by
  unfold State.takeTag
  dsimp only
  split <;> exact s.core_modCore_keeps (·.engine n) core d _ (fun _ => rfl)

@[simp] theorem State.engine_progress (s : State) (core unit d n : Nat) : (s.progress core unit).engine d n = s.engine d n :=
  s.core_modCore_keeps (·.engine n) core d _ (fun _ => rfl)

/-- What the check bits find changes no engine (R329). -/
@[simp] theorem State.engine_fillFinds (s : State) (c : Cmd) (core e : Nat) (w : WorkItem) (errs : BoreErrs) (d n : Nat) :
    (s.fillFinds c core e w errs).engine d n = s.engine d n := by
  refine foldl_proj (State.engine · d n) _ (fun t q => ?_) errs s
  split
  · exact t.core_modCore_keeps (·.engine n) w.home d _ (fun _ => rfl)
  · rfl

/-! ### The Bell decodes under a running item (R304) -/

section
variable {α : Type} (p : Engine → α) (hbell : ∀ g b, p { g with bell := b } = p g)
include hbell

/-- The Bell's requests change nothing of an engine but its Bell. -/
theorem State.engine_issueExt_keeps (s : State) (core e : Nat) (rows : List (List (List Nat))) (d n : Nat) :
    p ((s.issueExt core e rows).engine d n) = p (s.engine d n) := by
  refine foldl_proj (fun t => p (t.engine d n)) _ (fun t _ => ?_) _ s
  refine foldl_proj (fun t => p (t.engine d n)) _ (fun t a => ?_) _ t
  dsimp only
  split
  · rfl
  · split
    · refine (State.engine_modEngine_keeps p (t.takeTag core (32 + e)).1 core e d n _ ?_).trans ?_
      · exact fun g => hbell g _
      · rw [State.engine_takeTag]
    · rw [State.engine_takeTag]

/-- Blocks decoded change nothing of an engine but its Bell. -/
theorem State.engine_bellDecode_keeps (s : State) (core e : Nat) (w : WorkItem) (rows : List (List (List Nat))) (m d n : Nat) :
    p ((s.bellDecode core e w rows m).engine d n) = p (s.engine d n) := by
  unfold State.bellDecode
  dsimp only
  split
  · rw [State.engine_progress]
    exact s.engine_modEngine_keeps p core e d n _ (fun g => hbell g _)
  · exact s.engine_modEngine_keeps p core e d n _ (fun g => hbell g _)

theorem State.engine_bellReach_keeps (s : State) (c : Cmd) (core e : Nat) (w : WorkItem) (upTo d n : Nat) :
    p ((s.bellReach c core e w upTo).1.engine d n) = p (s.engine d n) := by
  unfold State.bellReach
  dsimp only
  split
  · exact s.engine_bellDecode_keeps p hbell ..
  · split
    · rw [State.engine_issueExt_keeps p hbell, State.engine_bellDecode_keeps p hbell]
    · exact s.engine_issueExt_keeps p hbell ..
end

/-! ### A tile that fails its check (R217, R223) -/

/-- A failed tile changes, beside its engine, nothing of a core but the commands, the re-run queue and its count. -/
theorem State.core_failTile_keeps {α : Type} (p : Core → α) (s : State) (core e : Nat) (w : WorkItem) (d : Nat)
    (hcmds : ∀ k l, p { k with cmds := l } = p k) (hrerun : ∀ k l m, p { k with rerun := l, stealStats := m } = p k) :
    p ((s.failTile core e w).core d)
      = p ((s.modEngine core e (fun g => (g.freeSets w none).stopItem w (s.blocksOf w))).core d) := by
  unfold State.failTile
  dsimp only
  split_ifs
  · rw [State.core_modCmdOf_keeps p _ _ _ _ hcmds, State.core_chargeItem_keeps p _ _ _ _ _ hcmds]
  · rw [State.core_modCmdOf_keeps p _ _ _ _ hcmds, State.core_modCore_keeps p _ _ _ _ (fun k => hrerun k _ _),
      State.core_chargeItem_keeps p _ _ _ _ _ hcmds]

/-- The engine of a failed tile has freed the item's sets and runs it no longer. -/
theorem State.engine_failTile (s : State) (core e : Nat) (w : WorkItem) :
    (s.failTile core e w).engine core e = ((s.engine core e).freeSets w none).stopItem w (s.blocksOf w) :=
  (s.core_failTile_keeps (·.engine e) core e w core (fun _ _ => rfl) (fun _ _ _ => rfl)).trans (State.engine_modEngine_self ..)

/-- Nothing of a failed tile is written to bore memory. -/
theorem State.bore_failTile (s : State) (core e : Nat) (w : WorkItem) (c : Nat) :
    ((s.failTile core e w).core c).bore = (s.core c).bore :=
  (s.core_failTile_keeps Core.bore core e w c (fun _ _ => rfl) (fun _ _ _ => rfl)).trans
    (s.core_modCore_keeps Core.bore core c _ (fun _ => rfl))

/-- The item of a failed tile stands last in its core's re-run queue, unless its command ends for want of engines. -/
theorem State.rerun_failTile (s : State) (core e : Nat) (w : WorkItem) (h : ∀ c, s.cmdOf w = some c → c.code ≠ recNO_ENGINE) :
    ((s.failTile core e w).core w.home).rerun
      = (s.core w.home).rerun ++ [{ w with checkFail := true, excluded := some (engNo core e), tag := none }] := by
  unfold State.failTile
  dsimp only
  split_ifs with hends
  · exfalso
    split at hends
    · exact Bool.false_ne_true hends
    · next c hc => exact h c hc (eq_of_beq hends)
  · rw [State.core_modCmdOf_keeps Core.rerun _ _ _ _ (fun _ _ => rfl), State.core_modCore_self]
    dsimp only
    rw [State.core_chargeItem_keeps Core.rerun _ _ _ _ _ (fun _ _ => rfl)]
    exact congrArg (· ++ _) (s.core_modCore_keeps Core.rerun core w.home _ (fun _ => rfl))

/-- A set that the item held is free once the item has left the array. -/
theorem Engine.set_freeSets_stopItem (g : Engine) (w : WorkItem) (blocks i : Nat) (hi : i < 2) (h : (g.set i).item = some w) :
    ((g.freeSets w none).stopItem w blocks).set i = {} := by
  obtain rfl | rfl : i = 0 ∨ i = 1 := by omega
  · have h0 : g.set0.item = some w := h
    simp [Engine.set, Engine.freeSets, Engine.stopItem, h0]
  · have h1 : g.set1.item = some w := h
    simp [Engine.set, Engine.freeSets, Engine.stopItem, h1]

/-! ### The verdict of a tile's check (R223, R225) -/

/-- No accumulation by itself leaves a tile UNRESOLVED. -/
theorem AccOut.not_unresolved (a : AccOut) (checked : Bool) : stHas (a.status checked) stUNRESOLVED = false := by
  unfold AccOut.status
  split <;> split <;> split <;> split <;> rfl

/-- A tile whose check does not fail is passed on with its status. -/
theorem State.verdict_of_ne_fail (s : State) (core e : Nat) (w : WorkItem) {res : CheckRes} (st : Word16)
    (next : State → Word16 → State) (h : res ≠ .fail) : s.verdict core e w res st next = next s st :=
  if_neg (fun hf => h hf.1)

/-- A tile that fails its check is passed on UNRESOLVED and poisoned where it has failed before, and goes to be re-run else. -/
theorem State.verdict_fail (s : State) (core e : Nat) (w : WorkItem) (st : Word16) (next : State → Word16 → State)
    (h : stHas st stUNRESOLVED = false) : s.verdict core e w .fail st next
      = if w.checkFail then next (s.unresolved (engNo core e) w) (st ||| stUNRESOLVED ||| stPOISON) else s.failTile core e w :=
  if_pos ⟨rfl, by rw [h]; rfl⟩

/-- An item that has not failed before is passed on or goes to be re-run. -/
theorem State.verdict_first (s : State) (core e : Nat) (w : WorkItem) (res : CheckRes) (st : Word16)
    (next : State → Word16 → State) (hw : w.checkFail = false) :
    s.verdict core e w res st next = next s st ∨ s.verdict core e w res st next = s.failTile core e w := by
  unfold State.verdict
  split
  · exact .inr (by rw [hw]; rfl)
  · exact .inl rfl

/-! ### The two commands that end an accumulation -/

/-- The segment's sum stands in the set that holds the running total, and one more segment is done (R214). -/
def State.addSegment (s : State) (core e i : Nat) (total : AccSet) (rows : List (List Word32)) (st : Word16) : State :=
  (s.modEngine core e (fun g =>
    { (g.putSet i { total with rows := rows, status := st }) with segs := g.segs + 1 })).progress core e

theorem Engine.running_putSet (g : Engine) (i : Nat) (a : AccSet) : (g.putSet i a).running = g.running := by
  unfold Engine.putSet
  split <;> rfl

theorem State.segs_addSegment (s : State) (core e i : Nat) (total : AccSet) (rows : List (List Word32)) (st : Word16) :
    ((s.addSegment core e i total rows st).engine core e).segs = (s.engine core e).segs + 1 := by
  rw [State.addSegment, State.engine_progress, State.engine_modEngine_self]

theorem State.running_addSegment (s : State) (core e i : Nat) (total : AccSet) (rows : List (List Word32)) (st : Word16) :
    ((s.addSegment core e i total rows st).engine core e).running = (s.engine core e).running := by
  rw [State.addSegment, State.engine_progress, State.engine_modEngine_self]
  exact Engine.running_putSet ..

/-- What a segment's verdict leaves alone, and where its item stands afterwards: it has one segment more, or its tile has failed. -/
theorem State.verdict_addSegment (s : State) (core e i : Nat) (w : WorkItem) (total : AccSet) (rows : List (List Word32))
    (res : CheckRes) (st : Word16) (hw : w.checkFail = false) :
    let u := s.verdict core e w res st (fun t st => t.addSegment core e i total rows st)
    (u.draws = s.draws ∧ u.streams = s.streams ∧ u.ctxs = s.ctxs)
      ∧ (((u.engine core e).segs = (s.engine core e).segs + 1 ∧ (u.engine core e).running = (s.engine core e).running)
        ∨ ((u.engine core e).segs = 0 ∧ (u.engine core e).running = none)) := by
  dsimp only
  obtain h | h := s.verdict_first core e w res st (fun t st => t.addSegment core e i total rows st) hw
  · rw [h]
    exact ⟨by simp [State.addSegment], .inl ⟨State.segs_addSegment .., State.running_addSegment ..⟩⟩
  · rw [h]
    refine ⟨by simp, .inr ?_⟩
    rw [State.engine_failTile]
    exact ⟨rfl, rfl⟩

section
variable {s : State} {core : Fin 8} {e : Fin 16} {w : WorkItem} {i : Nat} {c : Cmd}
  (hrun : (s.engine core e).running = some (w, i)) (hcmd : s.cmdOf w = some c) (hrec : s.recovering core = false)
include hrun hcmd hrec

/-- ACCUMULATION_DONE of an item in one segment: once the Bell has decoded it all, the verdict of its check decides. -/
theorem exec_accumulationDone_oneSegment (flips : AccFlips) (errs : BoreErrs) {b : State × Bool} {u : State}
    (hseg : itemSegs (c.desc w.stage) (itemFloat (c.desc w.stage) (s.itemRecord core e w)) = 1)
    (hreach : s.bellReach c core e w (cdiv (dK (c.desc w.stage)) 32) = b) (hu : u = b.1.fillFinds c core e w errs) :
    exec (.accumulationDone ⟨core, e⟩ flips errs) s = .next (State.after s
      (if b.2 then
        ({ u.bellWaits c core e w with draws := s.draws + 4096 } : State).verdict core e w
          (u.accumulate c core e w 0 (dK (c.desc w.stage)) s.draws flips).res
          ((u.accumulate c core e w 0 (dK (c.desc w.stage)) s.draws flips).status (dCheck (c.desc w.stage)))
          (fun t st => t.fillDone core e i w (c.desc w.stage)
            (u.accumulate c core e w 0 (dK (c.desc w.stage)) s.draws flips).rows st)
      else b.1) core) := by
  subst hu
  change execAccumulationDone ⟨core, e⟩ flips errs s = _
  simp only [execAccumulationDone, hrun, hcmd, hrec, hseg, hreach]
  obtain ⟨b, _ | _⟩ := b <;> rfl

variable {n : Nat} (hsegs : itemSegs (c.desc w.stage) (itemFloat (c.desc w.stage) (s.itemRecord core e w)) = n) (hmany : 1 < n)
include hsegs hmany

/-- ACCUMULATION_DONE after the last segment passes the running total on (R214). -/
theorem exec_accumulationDone_lastSegment (flips : AccFlips) (errs : BoreErrs) (hall : n ≤ (s.engine core e).segs) :
    exec (.accumulationDone ⟨core, e⟩ flips errs) s = .next (State.after s
      ((s.bellWaits c core e w).fillDone core e i w (c.desc w.stage) ((s.engine core e).set i).rows
        (((s.engine core e).set i).status ||| stSEGMENTED)) core) := by
  change execAccumulationDone ⟨core, e⟩ flips errs s = _
  simp only [execAccumulationDone, hrun, hcmd, hrec, hsegs, if_pos hmany, if_neg (Nat.not_lt.mpr hall)]
  rfl

/-- SEGMENT_DONE of a decoded segment: the verdict of its check decides whether its sum joins the running total (R214). -/
theorem exec_segmentDone (flips addFlips : AccFlips) (errs : BoreErrs) {b : State × Bool}
    (hleft : (s.engine core e).segs < n)
    (hreach : s.bellReach c core e w (cdiv (Nat.min (dK (c.desc w.stage)) (4096 * ((s.engine core e).segs + 1))) 32) = b)
    (hok : b.2 = true) :
    ∃ res rows st, exec (.segmentDone ⟨core, e⟩ flips addFlips errs) s = .next (State.after s
      (({ b.1.fillFinds c core e w errs with draws := s.draws + 4096 } : State).verdict core e w res st
        (fun t st => t.addSegment core e i ((s.engine core e).set i) rows st)) core) := by
  have hgo : ¬ (s.recovering core = true ∨ n ≤ 1 ∨ n ≤ (s.engine core e).segs) := by simp [hrec, hmany, hleft]
  obtain ⟨b, ok⟩ := b
  obtain rfl : ok = true := hok
  have hexec : exec (.segmentDone ⟨core, e⟩ flips addFlips errs) s = execSegmentDone ⟨core, e⟩ flips addFlips errs s := rfl
  simp only [execSegmentDone, hrun, hcmd, hsegs, if_neg hgo, hreach, Bool.not_true, Bool.false_eq_true, if_false] at hexec
  exact ⟨_, _, _, hexec⟩

/-- SEGMENT_DONE of an item that has not failed before: it has one segment more, or its tile has failed. -/
theorem exec_segmentDone_first (flips addFlips : AccFlips) (errs : BoreErrs) (hw : w.checkFail = false)
    (hleft : (s.engine core e).segs < n) {b : State × Bool}
    (hreach : s.bellReach c core e w (cdiv (Nat.min (dK (c.desc w.stage)) (4096 * ((s.engine core e).segs + 1))) 32) = b)
    (hok : b.2 = true) :
    ∃ u : State, exec (.segmentDone ⟨core, e⟩ flips addFlips errs) s = .next (State.after s u core)
      ∧ u.draws = s.draws + 4096 ∧ u.streams = s.streams ∧ u.ctxs = s.ctxs
      ∧ (((u.engine core e).segs = (s.engine core e).segs + 1 ∧ (u.engine core e).running = some (w, i))
        ∨ ((u.engine core e).segs = 0 ∧ (u.engine core e).running = none)) := by
  obtain ⟨res, rows, st, hexec⟩ := exec_segmentDone hrun hcmd hrec hsegs hmany flips addFlips errs hleft hreach hok
  have hsame : ((b.1.fillFinds c core e w errs).engine core e).segs = (s.engine core e).segs := by
    rw [State.engine_fillFinds, ← hreach, State.engine_bellReach_keeps Engine.segs (fun _ _ => rfl)]
  have hrunning : ((b.1.fillFinds c core e w errs).engine core e).running = some (w, i) := by
    rw [State.engine_fillFinds, ← hreach, State.engine_bellReach_keeps Engine.running (fun _ _ => rfl), hrun]
  obtain ⟨⟨hdraws, hstreams, hctxs⟩, hengine⟩ :=
    State.verdict_addSegment { b.1.fillFinds c core e w errs with draws := s.draws + 4096 } core e i w
      ((s.engine core e).set i) rows res st hw
  exact ⟨_, hexec, hdraws, hstreams.trans (by simp [← hreach]), hctxs.trans (by simp [← hreach]),
    hengine.imp_left (fun ⟨hmore, hkept⟩ => ⟨hmore.trans (congrArg (· + 1) hsame), hkept.trans hrunning⟩)⟩
end

/-- Settles O47: the two commands that end an accumulation are read off their equations, and the failed tile off its frame. -/
theorem tilesAccumulate : Obligations.TilesAccumulate := by
  unfold Obligations.TilesAccumulate
  refine ⟨?passes, ?fails, ?waits, ?segment, ?last, ?failed⟩
  case passes =>
    intro s core e flips errs w i c u hrun hcmd hrec hseg hok hu hres
    rw [exec_accumulationDone_oneSegment hrun hcmd hrec flips errs hseg rfl hu, if_pos hok,
      State.verdict_of_ne_fail _ _ _ _ _ _ hres]
  case fails =>
    intro s core e flips errs w i c u hrun hcmd hrec hseg hok hu hres
    rw [exec_accumulationDone_oneSegment hrun hcmd hrec flips errs hseg rfl hu, if_pos hok, hres,
      State.verdict_fail _ _ _ _ _ _ (AccOut.not_unresolved _ _)]
  case waits =>
    intro s core e flips errs w i c hrun hcmd hrec hseg hok
    rw [exec_accumulationDone_oneSegment hrun hcmd hrec flips errs hseg rfl rfl, if_neg (ne_true_of_eq_false hok)]
  case segment =>
    intro s core e flips addFlips errs w i c hrun hcmd hrec hw hleft hmany hok
    exact exec_segmentDone_first hrun hcmd hrec rfl hmany flips addFlips errs hw hleft rfl hok
  case last =>
    intro s core e flips errs w i n c hrun hcmd hrec hsegs hmany hall
    exact exec_accumulationDone_lastSegment hrun hcmd hrec hsegs hmany flips errs hall
  case failed =>
    intro s core e w hlive
    refine ⟨s.rerun_failTile core e w hlive, ?_, fun i hi h => ?_, s.bore_failTile core e w, by simp⟩
    · rw [State.engine_failTile]; rfl
    · rw [State.engine_failTile, Engine.set_freeSets_stopItem _ _ _ _ hi h]

end Sys2Proof.Machine

/-! PROOFS. A WRITE of values: taken, refused whole, or applied whole and answered with its commit (R539, R542, R556). -/

namespace Sys2Proof.Machine

open Sys2Proof.Safety

/-- The command of the kind that a request has applies it (R539, R573). -/
theorem State.apply_of_takes {s t : State} {k : Kind} {r : Req} {c : Caller} (h : Takes s k r c t)
    (f : State → Req → Caller → State) : s.apply k f = f t r c := by
  obtain ⟨hready, l, hpick, ht, hcaller⟩ := h
  rw [State.apply, if_neg (by simp [hready])]
  simp only [hpick, ← ht, hcaller]

/-! ### A response leaves the commits under way alone (R542, R555) -/

@[simp] theorem State.commits_countComm (s : State) (tr i : Nat) : (s.countComm tr i).clotha.commits = s.clotha.commits := rfl

@[simp] theorem State.commits_emit (s : State) (m : Msg) : (s.emit m).clotha.commits = s.clotha.commits := by
  unfold State.emit
  split
  · simp
  · rfl

@[simp] theorem State.commits_finish (s : State) (m : Msg) : (s.finish m).clotha.commits = s.clotha.commits := by
  unfold State.finish
  dsimp only
  split
  · simp
  · exact (foldl_proj (·.clotha.commits) _ (fun _ _ => State.commits_emit ..) _ _).trans (by simp)

@[simp] theorem State.commits_respond (s : State) (r : Req) (code : Word16) (body bulk : List Byte) :
    (s.respond r code body bulk).clotha.commits = s.clotha.commits := by
  unfold State.respond
  split <;> exact State.commits_finish ..

/-- A commit that holds a response is queued last, with the persistent values as they stand (R542). -/
theorem State.commits_respondCommitted (s : State) (r : Req) (code : Word16) (body : List Byte) :
    (s.respondCommitted r code body).clotha.commits
      = s.clotha.commits ++ [{ snap := s.persist, answer := some (r.msg s.now code body [] true), since := s.now }] := rfl

/-! ### The two outcomes of a WRITE (R556) -/

/-- A WRITE with a failing entry is answered, and does nothing else. -/
theorem State.applyWrite_of_fails {s : State} {r : Req} {c : Caller} {code : Word16}
    (h : (s.writeCodes c r.entries).find? (· != 0) = some code) :
    s.applyWrite r c = s.respond r code (writeBody r.entries (s.writeCodes c r.entries)) [] := by
  simp only [State.applyWrite, h]

/-- A WRITE whose entries all pass is answered after them: at once, or with the commit of the persistent values it changed. -/
theorem State.applyWrite_of_passes {s t : State} {r : Req} (c : Caller)
    (h : (s.writeCodes c r.entries).find? (· != 0) = none)
    (ht : t = r.entries.foldl (fun t e => t.writeObj e.index e.sub e.value) s) :
    ∃ body, s.applyWrite r c = if t.persist = s.persist then t.respond r 0 body [] else t.respondCommitted r 0 body := by
  subst ht
  simp only [State.applyWrite, h]
  exact ⟨_, rfl⟩

/-- Settles O20: the request taken is applied, and each clause reads a frame of the response that ends the WRITE. -/
theorem writesAreAllOrNothing : Obligations.WritesAreAllOrNothing := by
  unfold Obligations.WritesAreAllOrNothing
  refine ⟨?values, ?timeSource, ?fails, ?passes, ?commits⟩
  case values => exact fun s t r c h => congrArg Host.Outcome.next (State.apply_of_takes h _)
  case timeSource => exact fun s t r c h => congrArg Host.Outcome.next (State.apply_of_takes h _)
  case fails =>
    intro s r c code h
    rw [State.applyWrite_of_fails h]
    exact ⟨rfl, by simp⟩
  case passes =>
    intro s t r c h ht
    obtain ⟨body, hw⟩ := State.applyWrite_of_passes c h ht
    rw [hw]
    split <;> simp
  case commits =>
    intro s t r c h ht hchanged
    obtain ⟨body, hw⟩ := State.applyWrite_of_passes c h ht
    rw [hw, if_neg hchanged]
    exact ⟨by simp, by simp, by simp, _, _, State.commits_respondCommitted .., rfl, rfl, rfl, rfl, rfl⟩

end Sys2Proof.Machine

/-! PROOFS. Clotha keys and tenants: what an enrolment, a revocation, a decommission and a tenant's removal leave (R634 to R640). -/

namespace Sys2Proof.Machine

open Sys2Proof.Safety

/-! ### Keys (R634 to R638) -/

/-- The record of a key at its enrolment, with a counter of zero (R634). -/
def State.newKey (s : State) (v : List Byte) : KeyRec :=
  { keyId := leAt v 0 2, role := leAt v 2 1, tenant := leAt v 4 2, enrolledNs := s.now, wrapped := slice v 144 64
    high := 0, seen := 0, reserve := 0x100000 }

theorem State.keys_enrol (s : State) (v : List Byte) {n : Nat} (hfree : s.persist.freeKeyRec = some n) :
    (s.enrol v).persist.keys = kset s.persist.keys n (s.newKey v) := by
  simp [State.enrol, State.newKey, hfree]

/-- A request still queued under a key that is forgotten is marked (R636). -/
theorem State.revoked_of_mem_forgetKeys {s : State} {p : Nat → Bool} {r : Req} (hr : r ∈ (s.forgetKeys p).clotha.queue)
    (hp : p r.keyId = true) : r.revoked = true := by
  obtain ⟨r', -, rfl⟩ := List.mem_map.mp hr
  by_cases h : p r'.keyId = true
  · simp [h]
  · simp [h] at hp

theorem State.revoked_of_mem_revoke {s : State} {id : Nat} {r : Req} (hr : r ∈ (s.revoke id).clotha.queue)
    (hid : r.keyId = id) : r.revoked = true := by
  simp only [State.revoke, State.logSecure_frame] at hr
  exact State.revoked_of_mem_forgetKeys hr (by simp [hid])

@[simp] theorem State.persist_revoke (s : State) (id : Nat) :
    (s.revoke id).persist = { s.persist with keys := s.persist.keys.filter (fun q => q.2.keyId != id) } := by
  simp [State.revoke]

theorem State.mem_keys_revoke {s : State} {id : Nat} {q : Nat × KeyRec} :
    q ∈ (s.revoke id).persist.keys ↔ q ∈ s.persist.keys ∧ q.2.keyId ≠ id := by
  simp

/-- Keys revoked one after another: what is left has none of their identifiers. -/
theorem State.mem_keys_foldl_revoke {ids : List Nat} {s : State} {q : Nat × KeyRec} :
    q ∈ (ids.foldl State.revoke s).persist.keys ↔ q ∈ s.persist.keys ∧ q.2.keyId ∉ ids := by
  induction ids generalizing s with
  | nil => simp
  | cons id ids ih =>
    rw [List.foldl_cons, ih, State.mem_keys_revoke, List.mem_cons, not_or, and_assoc]

@[simp] theorem State.persist_decommission (s : State) :
    s.decommission.persist = { s.persist with keys := [], tenants := [], wrapGen := s.persist.wrapGen + 1 } := by
  simp [State.decommission]

@[simp] theorem State.net_decommission (s : State) : s.decommission.net = { s.net with srtp := [] } := by
  simp [State.decommission]

/-! ### Tenants (R639, R640) -/

/-- The enrolment of an enrolled tenant replaces its package key (R639). -/
theorem State.enrolTenant_of_enrolled {s : State} {v : List Byte} {n : Nat} {q : TenantRec}
    (h : s.persist.tenants.find? (fun q => q.2.tenant == leAt v 0 2) = some (n, q)) :
    s.enrolTenant v = some { s with persist :=
      { s.persist with tenants := kset s.persist.tenants n { q with pkgKey := slice v 8 133 } } } := by
  simp [State.enrolTenant, h]

theorem State.kget?_tenants_removeTenant (s : State) (slot id : Nat) :
    kget? (s.removeTenant slot id).persist.tenants slot = none := kget?_kdel_self ..

/-- No key of a removed tenant is left: each was among those revoked (R640). -/
theorem State.not_own_of_mem_keys_removeTenant {s : State} {slot id : Nat} {k : Nat × KeyRec}
    (hk : k ∈ (s.removeTenant slot id).persist.keys) : ¬(k.2.role = 2 ∧ k.2.tenant = id) := by
  obtain ⟨hmem, hleft⟩ := State.mem_keys_foldl_revoke.mp hk
  rintro ⟨hrole, htenant⟩
  exact hleft (List.mem_map_of_mem (List.mem_filter.mpr ⟨hmem, by simp [hrole, htenant]⟩))

theorem State.owner_ne_of_mem_srtp_removeTenant {s : State} {slot id : Nat} {k : Nat × SrtpSlot}
    (hk : k ∈ (s.removeTenant slot id).net.srtp) : k.2.owner ≠ id :=
  bne_iff_ne.mp (List.mem_filter.mp hk).2

/-! ### The actions on them -/

/-- An action's response that waits for its commit leaves everything but the commits as the action left it (R542). -/
theorem answered_of_commit {x : ActRes} (r : Req) (e : Entry) (h : x.commit = true) :
    answered x r e
      = x.next.respondCommitted r x.code (entryOut e.index e.sub (typeAt e.index e.sub) false x.code x.value) :=
  if_pos h

section
variable {s t : State} {r : Req} {c : Caller} {e : Entry}

theorem exec_keyEnrol_of_passes {k : EnrolCheck} (h : TakesAction s 0x7002 1 r c e t)
    (hpass : t.enrolTests c e.value k.unwrapOk = none) :
    exec (.keyEnrol k) s = .next (answered { code := 0, next := t.enrol e.value, commit := true } r e) := by
  change execKeyEnrol k s = _
  rw [execKeyEnrol, State.act_takes _ h, hpass]

/-- The operator may revoke any key that is not an operator's (R636). -/
theorem exec_keyRevoke_of_operator {q : Nat × KeyRec} (h : TakesAction s 0x7002 2 r c e t)
    (hq : t.persist.keys.find? (fun q => q.2.keyId == leAt e.value 0 2) = some q) (hc : c.role = 1) (hrole : q.2.role ≠ 1) :
    exec .keyRevoke s = .next (answered { code := 0, next := t.revoke (leAt e.value 0 2), commit := true } r e) := by
  change execKeyRevoke s = _
  rw [execKeyRevoke, State.act_takes _ h]
  simp [hq, hc, hrole]

theorem exec_decommission_of_no_parts (h : TakesAction s 0x7002 3 r c e t) (hv : leAt e.value 0 1 = 0xA5)
    (hparts : t.persist.parts = []) :
    exec .decommission s = .next (answered { code := 0, next := t.decommission, commit := true } r e) := by
  change execDecommission s = _
  rw [execDecommission, State.act_takes _ h]
  simp [hv, hparts]

theorem exec_tenantEnrol_of_enrolled {n : Nat} {q : TenantRec} (h : TakesAction s 0x7004 1 r c e t)
    (hz : zeroAt e.value 2 6 = true) (hz' : zeroAt e.value 141 3 = true)
    (hq : t.persist.tenants.find? (fun q => q.2.tenant == leAt e.value 0 2) = some (n, q)) :
    exec .tenantEnrol s = .next (answered { code := 0, next := { t with persist :=
      { t.persist with tenants := kset t.persist.tenants n { q with pkgKey := slice e.value 8 133 } } }, commit := true } r e) := by
  change execTenantEnrol s = _
  rw [execTenantEnrol, State.act_takes _ h]
  simp [hz, hz', State.enrolTenant_of_enrolled hq]

/-- TENANT_REMOVE of an enrolled tenant: the partitions decide (R640). -/
theorem exec_tenantRemove_of_enrolled {n : Nat} {q : TenantRec} (h : TakesAction s 0x7004 2 r c e t)
    (hq : t.persist.tenants.find? (fun q => q.2.tenant == leAt e.value 0 2) = some (n, q)) :
    exec .tenantRemove s = .next (answered
      (if t.persist.parts.any (fun q => q.2.tenant == leAt e.value 0 2) then { code := accBUSY, next := t }
        else { code := 0, next := t.removeTenant n (leAt e.value 0 2), commit := true }) r e) := by
  change execTenantRemove s = _
  rw [execTenantRemove, State.act_takes _ h]
  dsimp only
  rw [hq]
  rfl

end

/-- Settles O31: each action passes its tests and is answered with its effect, whose maps are read after their writes. -/
theorem keysAndTenants : Obligations.KeysAndTenants := by
  unfold Obligations.KeysAndTenants
  refine ⟨?enrol, ?revoke, ?decommission, ?tenantEnrol, ?tenantRemove, ?tenantBusy⟩
  case enrol =>
    intro s t k r c e n h hpass hfree
    obtain ⟨l, rfl⟩ := takes_frame h.1
    refine ⟨_, s.newKey e.value, exec_keyEnrol_of_passes h hpass, ?_⟩
    simp only [answered_of_commit, State.respondCommitted_frame, State.keys_enrol _ _ hfree]
    exact ⟨kget?_kset_self .., rfl, rfl, rfl, rfl, rfl, fun j hj => kget?_kset_ne _ _ hj, by simp, by simp⟩
  case revoke =>
    intro s t r c e q h hq hc hrole
    obtain ⟨l, rfl⟩ := takes_frame h.1
    refine ⟨_, exec_keyRevoke_of_operator h hq hc hrole, ?_⟩
    simp only [answered_of_commit, State.respondCommitted_frame, State.mem_keys_revoke]
    exact ⟨fun _ hp => hp.2, fun _ hp hne => ⟨hp, hne⟩, fun _ hr hid => State.revoked_of_mem_revoke hr hid, by simp⟩
  case decommission =>
    intro s t r c e h hv hparts
    obtain ⟨l, rfl⟩ := takes_frame h.1
    refine ⟨_, exec_decommission_of_no_parts h hv hparts, ?_⟩
    simp [answered_of_commit]
  case tenantEnrol =>
    intro s t r c e n q h hz hz' hq
    obtain ⟨l, rfl⟩ := takes_frame h.1
    refine ⟨_, exec_tenantEnrol_of_enrolled h hz hz' hq, ?_⟩
    simp only [answered_of_commit, State.respondCommitted_frame, kget?_kset_self, true_and, and_true]
    exact fun j hj => kget?_kset_ne _ _ hj
  case tenantRemove =>
    intro s t r c e n q h hq hnone
    have hfree : t.persist.parts.any (fun p => p.2.tenant == leAt e.value 0 2) = false := by simpa using hnone
    obtain ⟨l, rfl⟩ := takes_frame h.1
    refine ⟨_, exec_tenantRemove_of_enrolled h hq, ?_⟩
    simp only [hfree, Bool.false_eq_true, if_false, answered_of_commit, State.respondCommitted_frame]
    exact ⟨State.kget?_tenants_removeTenant .., fun _ => State.not_own_of_mem_keys_removeTenant,
      fun _ => State.owner_ne_of_mem_srtp_removeTenant, by simp, by simp⟩
  case tenantBusy =>
    intro s t r c e n q h hq howns
    have hbusy : t.persist.parts.any (fun p => p.2.tenant == leAt e.value 0 2) = true := by simpa using howns
    rw [exec_tenantRemove_of_enrolled h hq, if_pos hbusy]

end Sys2Proof.Machine

/-! PROOFS. The power sequence: what starts the rails, what shuts the module down, and how the rails go off (R658 to R665, R684 to R686). -/

namespace Sys2Proof.Machine

/-! ### Rails turned off -/

/-- Deletions leave an unlisted key unlisted. -/
theorem kget?_foldl_kdel_of_none {α : Type} (l : List Nat) {m : KMap α} {i : Nat} (h : kget? m i = none) :
    kget? (l.foldl kdel m) i = none := by
  induction l generalizing m with
  | nil => exact h
  | cons j l ih =>
    refine ih ?_
    by_cases hj : i = j
    · rw [hj, kget?_kdel_self]
    · rw [kget?_kdel_ne m hj, h]

/-- A key among those deleted is unlisted. -/
theorem kget?_foldl_kdel_of_mem {α : Type} {l : List Nat} (m : KMap α) {i : Nat} (h : i ∈ l) :
    kget? (l.foldl kdel m) i = none := by
  induction l generalizing m with
  | nil => cases h
  | cons j l ih =>
    rcases List.mem_cons.mp h with rfl | hmem
    · exact kget?_foldl_kdel_of_none l (kget?_kdel_self m i)
    · exact ih _ hmem

/-! ### A module that is powered shuts down (R684, R686) -/

/-- A module that is powered is not in a shutdown, so no decision stands. -/
theorem State.sameDecision_of_powered {s : State} (h : s.aon.phase.powered = true) : s.sameDecision = false := by
  unfold State.sameDecision
  cases hp : s.aon.phase <;> simp_all [Phase.powered]

/-- In the AON cycle of a decision the module is shut down. -/
theorem State.phase_of_sameDecision {s : State} (h : s.sameDecision = true) : s.aon.phase = .shutdown := by
  unfold State.sameDecision at h
  exact of_decide_eq_true (Bool.and_eq_true_iff.mp h).1

@[simp] theorem phase_shutdown (s : State) (q : Nat × Nat × Int) (l : List (Nat × Nat × Int)) :
    (shutdown s (q :: l)).aon.phase = .shutdown := rfl

@[simp] theorem persist_shutdown (s : State) (q : Nat × Nat × Int) (l : List (Nat × Nat × Int)) :
    (shutdown s (q :: l)).persist = s.flash := rfl

/-- The record of a shutdown names its first cause, with every cause in the mask (R687). -/
@[simp] theorem pending_shutdown (s : State) (c n : Nat) (v : Int) (l : List (Nat × Nat × Int)) :
    (shutdown s ((c, n, v) :: l)).aon.pending = some {
      cause := c, sensor := n, mask := ((c, n, v) :: l).foldl (fun m q => m ||| 2 ^ (q.1 - 1)) 0, value := v
      standbyS := s.aon.clock / 1000000000 } := rfl

theorem trip_of_powered {s : State} (h : s.aon.phase.powered = true) (l : List (Nat × Nat × Int)) :
    trip s l = shutdown s l := if_pos h

/-- A cause of the decision's own AON cycle joins the record that stands (R686). -/
theorem trip_of_sameDecision {s : State} {r : ShutdownRec} (h : s.sameDecision = true) (hr : s.aon.pending = some r)
    (q : Nat × Nat × Int) : trip s [q] = { s with aon := { s.aon with pending := some (r.join q) } } := by
  have hoff : ¬ s.aon.phase.powered = true := by simp [State.phase_of_sameDecision h, Phase.powered]
  rw [trip, if_neg hoff, if_pos h, hr]
  rfl

/-! ### The start of the rails (R662, R677, R685) -/

/-- Without a cause that persists, the sequence starts with the cause register cleared. -/
theorem startSequence_of_no_cause {s : State} (htemps : standingTrips s.aon.temps = [])
    (hflow : heldFor s.aon.since 32 (limitHold 32) s.aon.clock = false)
    (hinlet : heldFor s.aon.since 31 (limitHold 31) s.aon.clock = false) :
    startSequence s = { s with aon := { s.aon with
      alert := 0, phase := .sequencing, groups := 0, seqStart := s.aon.clock, highWaits := none } } := by
  simp only [startSequence, htemps, hflow, hinlet]
  rfl

theorem tryStart_of_ready {s : State} (hphase : s.aon.phase = .standby) (hdown : s.aon.downGroup = none)
    (hlow : 50000 ≤ s.aon.inputMv) (hhigh : s.aon.inputMv ≤ 59500) : tryStart s = startSequence s :=
  if_pos ⟨hphase, hdown, by simp [inOperating, hlow, hhigh]⟩

/-! ### The commands of the always-on controller -/

section
variable {s : State}

/-- PWR_EN high in standby, 100 ms after it went low, is acted on at once (R668, R670). -/
theorem exec_pwrEnHigh_of_standby {n : Nat} (straps : Straps) (hphase : s.aon.phase = .standby) (hen : s.aon.pwrEn = false)
    (hlow : s.aon.lowSince = some n) (hlong : n + 100000000 ≤ s.aon.clock) :
    exec (.pwrEnHigh straps) s = .next (tryStart { s with aon := { s.aon with pwrEn := true, straps := straps } }) := by
  change execPwrEnHigh straps s = _
  simp [execPwrEnHigh, hphase, hen, hlow, Nat.not_lt.mpr hlong]

/-- RAIL_GROUP_IN_REGULATION in time counts the group; the sixth lets the module run (R662, R663). -/
theorem exec_railGroupInRegulation_of_inTime (hphase : s.aon.phase = .sequencing)
    (htime : s.aon.clock ≤ s.aon.seqStart + groupBound (s.aon.groups + 1) + 2000000) :
    ∃ rails, exec .railGroupInRegulation s = .next
      (if s.aon.groups = 5 then
        { s with aon := { s.aon with groups := s.aon.groups + 1, rails := rails, phase := .running, boot := .rom }
                 time := { s.time with running := true } }
      else { s with aon := { s.aon with groups := s.aon.groups + 1, rails := rails } }) := by
  have hexec : exec .railGroupInRegulation s = execRailGroupInRegulation s := rfl
  simp only [execRailGroupInRegulation, if_pos hphase, if_neg (Nat.not_lt.mpr htime), Nat.reduceEqDiff] at hexec
  exact ⟨_, hexec⟩

/-- RAIL_SEQUENCE_TIMEOUT past the group's time is a power fault of its first rail (R663). -/
theorem exec_railSequenceTimeout_of_late (hphase : s.aon.phase = .sequencing)
    (hlate : s.aon.seqStart + groupBound (s.aon.groups + 1) + 2000000 ≤ s.aon.clock) :
    ∃ v, exec .railSequenceTimeout s = .next (shutdown s [(3, (railsOfGroup (s.aon.groups + 1)).headD 0, v)]) :=
  ⟨_, congrArg Host.Outcome.next (if_pos ⟨hphase, hlate⟩)⟩

/-- RAIL_FAULT of an enabled rail more than 5 % off its nominal shuts a powered module down (R664). -/
theorem exec_railFault_of_powered {rail : Fin 9} {mv : Int} (hpow : s.aon.phase.powered = true)
    (hon : railGroup.getD rail 0 ≤ s.aon.groups)
    (hoff : (railNominal.getD rail 0 : Int) < 20 * (mv - railNominal.getD rail 0).natAbs) :
    exec (.railFault rail mv) s = .next
      (shutdown { s with aon := { s.aon with rails := kset s.aon.rails rail (mv.toNat, 0) } } [(3, rail, mv)]) := by
  change execRailFault rail mv s = _
  simp only [execRailFault, State.sameDecision_of_powered hpow, Bool.false_eq_true, if_false, if_pos (And.intro hon hoff),
    trip_of_powered, hpow]

/-- INPUT_TRIP past the over- or under-voltage trip shuts a powered module down (R658). -/
theorem exec_inputTrip_of_powered {high : Bool} {mv : Int} (hpow : s.aon.phase.powered = true)
    (hmv : if high then 60000 < mv else mv < 49500) :
    exec (.inputTrip high mv) s = .next
      (shutdown { s with aon := { s.aon with inputMv := mv.toNat } } [(if high then 1 else 2, 0, mv)]) := by
  change execInputTrip high mv s = _
  cases high with
  | false =>
    have hlow : mv < 49500 := by simpa using hmv
    simp [execInputTrip, trip_of_powered, hpow, hlow]
  | true =>
    have hhigh : 60000 < mv := by simpa using hmv
    simp [execInputTrip, trip_of_powered, hpow, hhigh]

/-- THERMAL_TRIP at a comparator's trip is a cause, while the module is powered or its decision's AON cycle lasts (R681, R686). -/
theorem exec_thermalTrip_of_reached {sensor : Fin 25} {mC w limit : Int} (hact : (s.aon.phase.powered || s.sameDecision) = true)
    (hlim : tempLimits sensor = some (w, limit)) (hmC : limit ≤ mC) :
    exec (.thermalTrip sensor mC) s = .next
      (trip { s with aon := { s.aon with temps := lset s.aon.temps sensor mC } } [(tripCause sensor, sensor.val + 1, mC)]) := by
  change execThermalTrip sensor mC s = _
  simp only [execThermalTrip, hlim, if_pos (And.intro hact hmC)]

/-- THERMAL_TRIP shuts a powered module down (R684). -/
theorem exec_thermalTrip_of_powered {sensor : Fin 25} {mC w limit : Int} (hpow : s.aon.phase.powered = true)
    (hlim : tempLimits sensor = some (w, limit)) (hmC : limit ≤ mC) :
    exec (.thermalTrip sensor mC) s = .next
      (shutdown { s with aon := { s.aon with temps := lset s.aon.temps sensor mC } } [(tripCause sensor, sensor.val + 1, mC)]) := by
  rw [exec_thermalTrip_of_reached (by rw [hpow, Bool.true_or]) hlim hmC, trip_of_powered]
  exact hpow

/-- THERMAL_TRIP in the AON cycle of a decision joins its record (R686). -/
theorem exec_thermalTrip_of_sameDecision {sensor : Fin 25} {mC w limit : Int} {r : ShutdownRec} (hsame : s.sameDecision = true)
    (hr : s.aon.pending = some r) (hlim : tempLimits sensor = some (w, limit)) (hmC : limit ≤ mC) :
    exec (.thermalTrip sensor mC) s = .next { s with aon := { s.aon with
      temps := lset s.aon.temps sensor mC, pending := some (r.join (tripCause sensor, sensor.val + 1, mC)) } } := by
  rw [exec_thermalTrip_of_reached (by rw [hsame, Bool.or_true]) hlim hmC, trip_of_sameDecision]
  · exact hsame
  · exact hr

/-- SENSOR_SAMPLE in standby takes the readings, and nothing else if no PWR_EN high waits for the input (R662, R681). -/
theorem exec_sensorSample_of_standby (r : SensorReading) (hphase : s.aon.phase = .standby)
    (hidle : s.aon.pwrEn = false ∨ s.aon.highWaits ≠ none) :
    ∃ since, exec (.sensorSample r) s = .next { s with aon := { s.aon with
      inputMv := r.inputMv, inputMa := r.inputMa, temps := r.temps, flow := r.flow, since := since } } := by
  have hexec : exec (.sensorSample r) s = execSensorSample r s := rfl
  have hon : ¬ s.aon.phase = .unpowered := by simp [hphase]
  have hlatched : ¬ s.aon.phase = .shutdown := by simp [hphase]
  have hrails : s.aon.phase.powered = false := by rw [hphase, Phase.powered]
  have hwait : ¬ (s.aon.pwrEn = true ∧ s.aon.highWaits = none) := by
    rintro ⟨hen, hnone⟩
    rcases hidle with hlow | hsome
    · simp [hen] at hlow
    · exact hsome hnone
  simp only [execSensorSample, State.sameDecision, if_neg hon, hlatched, hrails, if_neg hwait, decide_false,
    Bool.false_and, Bool.or_false, Bool.false_eq_true, if_false] at hexec
  exact ⟨_, hexec⟩

/-- PWR_EN low powers a module that sequences or runs down and latches nothing (R665, R668, R688). -/
theorem exec_pwrEnLow_of_powered (hpow : s.aon.phase.powered = true) (hen : s.aon.pwrEn = true) :
    exec .pwrEnLow s = .next { powerOff s with aon := { (powerOff s).aon with
      phase := .standby, rstLow := false, groups := 0, pwrEn := false, lowSince := some s.aon.clock, highWaits := none
      downGroup := if s.aon.groups = 0 then none else some s.aon.groups } } := by
  have hup : ¬ (s.aon.phase = .unpowered ∨ (!s.aon.pwrEn) = true) := by
    rintro (h | h)
    · simp [h, Phase.powered] at hpow
    · simp [hen] at h
  change execPwrEnLow s = _
  simp only [execPwrEnLow, if_neg hup, if_pos hpow]

/-- RAIL_GROUP_BELOW_TEN_PERCENT takes the group's rails off, and the group before it is next (R665). -/
theorem exec_railGroupBelowTenPercent_of_down {g : Nat} (h : s.aon.downGroup = some g) :
    exec .railGroupBelowTenPercent s = .next { s with aon := { s.aon with
      downGroup := if g ≤ 1 then none else some (g - 1), rails := (railsOfGroup g).foldl kdel s.aon.rails } } := by
  change execRailGroupBelowTenPercent s = _
  simp only [execRailGroupBelowTenPercent, h]

end

/-- Settles O59: one case for each command of the always-on controller; the causes of a shutdown share `shutdown`'s laws. -/
theorem powerSequence : Obligations.PowerSequence := by
  unfold Obligations.PowerSequence
  refine ⟨?standbyUp, ?enHigh, ?inRegulation, ?groupLate, ?railFault, ?inputTrip, ?thermalTrip, ?joins, ?sample, ?enLow,
    ?railsOff, ?latchEnds⟩
  case standbyUp =>
    intro s mv hphase hlow hhigh
    exact congrArg Host.Outcome.next (if_pos ⟨hphase, by simp [inStandby, hlow, hhigh]⟩)
  case enHigh =>
    intro s straps n hphase hen hlow hlong hdown hmin hmax htemps hflow hinlet
    have hstart : tryStart { s with aon := { s.aon with pwrEn := true, straps := straps } } = _ :=
      Eq.trans (tryStart_of_ready hphase hdown hmin hmax) (startSequence_of_no_cause htemps hflow hinlet)
    exact ⟨_, (exec_pwrEnHigh_of_standby straps hphase hen hlow hlong).trans (congrArg Host.Outcome.next hstart),
      rfl, rfl, rfl, rfl, rfl, rfl, rfl, rfl, rfl⟩
  case inRegulation =>
    intro s hphase _ htime
    obtain ⟨rails, hexec⟩ := exec_railGroupInRegulation_of_inTime hphase htime
    refine ⟨_, hexec, ?_⟩
    by_cases hlast : s.aon.groups = 5
    · simp [hlast]
    · simp [hlast, hphase]
  case groupLate =>
    intro s hphase hlate
    obtain ⟨v, hexec⟩ := exec_railSequenceTimeout_of_late hphase hlate
    exact ⟨_, _, hexec, phase_shutdown .., pending_shutdown .., rfl, rfl, rfl, persist_shutdown ..⟩
  case railFault =>
    intro s rail mv hpow hon hoff
    exact ⟨_, _, exec_railFault_of_powered hpow hon hoff, phase_shutdown .., pending_shutdown .., rfl, rfl, rfl, rfl,
      persist_shutdown ..⟩
  case inputTrip =>
    intro s high mv hpow hmv
    exact ⟨_, _, exec_inputTrip_of_powered hpow hmv, phase_shutdown .., pending_shutdown .., rfl, rfl, rfl, persist_shutdown ..⟩
  case thermalTrip =>
    intro s sensor mC w limit hpow hlim hmC
    exact ⟨_, _, exec_thermalTrip_of_powered hpow hlim hmC, phase_shutdown .., pending_shutdown .., rfl, rfl, rfl, rfl,
      persist_shutdown ..⟩
  case joins =>
    intro s sensor mC w limit r hsame hr hlim hmC
    exact ⟨_, exec_thermalTrip_of_sameDecision hsame hr hlim hmC, State.phase_of_sameDecision hsame, rfl, rfl, rfl⟩
  case sample =>
    intro s r hphase hidle
    obtain ⟨since, hexec⟩ := exec_sensorSample_of_standby r hphase hidle
    exact ⟨_, hexec, rfl, rfl, rfl, rfl, hphase, rfl, rfl, rfl⟩
  case enLow =>
    intro s hpow hen
    exact ⟨_, exec_pwrEnLow_of_powered hpow hen, rfl, rfl, rfl, rfl, rfl, rfl, rfl, rfl, rfl⟩
  case railsOff =>
    intro s g hg
    exact ⟨_, exec_railGroupBelowTenPercent_of_down hg, rfl, fun _ hr => kget?_foldl_kdel_of_mem _ hr, rfl, rfl, rfl⟩
  case latchEnds =>
    intro s n hphase hlow hlong hen
    change execPwrEnLowTimeElapsed s = _
    simp [execPwrEnLowTimeElapsed, hlow, hphase, hen, Nat.not_lt.mpr hlong]

end Sys2Proof.Machine

/-! PROOFS. Bore memory: which operations of the machine change none of it, and that those which write keep its canonical form
(R329, R516). -/

namespace Sys2Proof.Machine
open Sys2Proof.Safety

/-- The bore memory of each core. -/
def boresOf (l : KMap Core) (c : Nat) : Mem := (kgetD l c {}).bore

theorem boresOf_kmod (l : KMap Core) (c : Nat) (f : Core → Core) (h : ∀ k, (f k).bore = k.bore) :
    boresOf (kmod l c {} f) = boresOf l := by
  funext d
  by_cases hd : d = c
  · rw [hd, boresOf, kgetD_kmod_self, h, boresOf]
  · rw [boresOf, kgetD_kmod_ne _ _ _ _ hd, boresOf]

@[simp] theorem State.bores_modCore (s : State) (c : Nat) (f : Core → Core) (h : ∀ k, (f k).bore = k.bore) :
    boresOf (s.modCore c f).cores = boresOf s.cores := boresOf_kmod _ _ _ h

@[simp] theorem State.bores_foldl {β : Type} (f : State → β → State) (l : List β) (s : State)
    (h : ∀ t x, boresOf (f t x).cores = boresOf t.cores) : boresOf (l.foldl f s).cores = boresOf s.cores :=
  foldl_proj (fun t => boresOf t.cores) f h l s

@[simp] theorem State.bores_modCores (s : State) (f : Nat → Core → Core) (h : ∀ c k, (f c k).bore = k.bore) :
    boresOf (s.modCores f).cores = boresOf s.cores :=
  s.bores_foldl _ _ (fun t c => t.bores_modCore c _ (h c))

@[simp] theorem Core.bore_modEngine (k : Core) (e : Nat) (f : Engine → Engine) : (k.modEngine e f).bore = k.bore := rfl

@[simp] theorem State.bores_ite (c : Prop) [Decidable c] (s t : State) :
    boresOf (if c then s else t).cores = if c then boresOf s.cores else boresOf t.cores := by
  split <;> rfl

@[simp] theorem Core.bore_putCredits (k : Core) (h : Nat) (o : CreditHolder) (n : Nat) : (k.putCredits h o n).bore = k.bore := by
  unfold Core.putCredits
  simp
@[simp] theorem Core.bore_shift (k : Core) (d : Int) : (k.shift d).bore = k.bore := rfl
@[simp] theorem Core.bore_clearHandles (k : Core) : k.clearHandles.bore = k.bore := rfl

@[simp] theorem VeRun.bores_ite (c : Prop) [Decidable c] (m n : VeRun) :
    boresOf (if c then m else n).s.cores = if c then boresOf m.s.cores else boresOf n.s.cores := by
  split <;> rfl
@[simp] theorem State.bores_foldl_fst {β γ : Type} (f : State × γ → β → State × γ) (l : List β) (q : State × γ)
    (h : ∀ t x, boresOf (f t x).1.cores = boresOf t.1.cores) : boresOf (l.foldl f q).1.cores = boresOf q.1.cores :=
  foldl_fst (fun t => boresOf t.cores) f h l q
@[simp] theorem VeRun.bores_foldl {β : Type} (f : VeRun → β → VeRun) (l : List β) (m : VeRun)
    (h : ∀ t x, boresOf (f t x).s.cores = boresOf t.s.cores) : boresOf (l.foldl f m).s.cores = boresOf m.s.cores :=
  foldl_run (fun t => boresOf t.cores) f h l m

/-! ### Operations that change no bore memory, in the order of the machine's files -/

@[simp] theorem State.bores_modEngine (s : State) (c e : Nat) (f : Engine → Engine) :
    boresOf (s.modEngine c e f).cores = boresOf s.cores := s.bores_modCore c _ (fun _ => rfl)
@[simp] theorem State.bores_progress (s : State) (core unit : Nat) : boresOf (s.progress core unit).cores = boresOf
    s.cores := by
  simp [State.progress]
@[simp] theorem State.bores_boreFinds (s : State) (core : Nat) (ranges : List (HandleEntry × Nat × Nat)) (errs :
    BoreErrs) : boresOf (s.boreFinds core ranges errs).cores = boresOf s.cores := by
  simp [State.boreFinds]
@[simp] theorem State.bores_modHandle (s : State) (core i : Nat) (f : HandleEntry → HandleEntry) : boresOf
    (s.modHandle core i f).cores = boresOf s.cores := by
  simp [State.modHandle]
@[simp] theorem State.bores_drainSlot (s : State) (core i slot : Nat) : boresOf (s.drainSlot core i slot).cores =
    boresOf s.cores := by
  simp [State.drainSlot]
@[simp] theorem State.bores_fillSlot (s : State) (core i slot : Nat) : boresOf (s.fillSlot core i slot).cores =
    boresOf s.cores := by
  simp [State.fillSlot]
@[simp] theorem State.bores_poolTake (s : State) (core i slot : Nat) : boresOf (s.poolTake core i slot).cores =
    boresOf s.cores := by
  simp [State.poolTake]
@[simp] theorem State.bores_progressBy (s : State) (core unit n : Nat) : boresOf (s.progressBy core unit n).cores =
    boresOf s.cores := by
  simp [State.progressBy]
@[simp] theorem State.bores_takeTag (s : State) (core unit : Nat) : boresOf (s.takeTag core unit).1.cores = boresOf
    s.cores := by
  unfold State.takeTag
  dsimp only
  split <;> simp
@[simp] theorem State.bores_freeTags (s : State) (core n : Nat) : boresOf (s.freeTags core n).cores = boresOf s.cores := by
  simp [State.freeTags]
@[simp] theorem State.bores_semSend (s : State) (core idx : Nat) (op : SemOp) : boresOf (s.semSend core idx op).cores
    = boresOf s.cores := by
  simp [State.semSend]
@[simp] theorem State.bores_semSignal (s : State) (ctxId part x : Nat) : boresOf (s.semSignal ctxId part x).cores =
    boresOf s.cores := by
  simp [State.semSignal]
@[simp] theorem State.bores_semsetSignal (s : State) (ctxId i : Nat) : boresOf (s.semsetSignal ctxId i).cores =
    boresOf s.cores := by
  unfold State.semsetSignal
  (repeat' split) <;> simp
@[simp] theorem State.bores_semWaitSend (s : State) (ctxId : Nat) (ct : Ctx) (x : Nat) : boresOf (s.semWaitSend ctxId
    ct x).cores = boresOf s.cores := by
  simp [State.semWaitSend]
@[simp] theorem State.bores_dropWaits (s : State) (ctxId : Nat) : boresOf (s.dropWaits ctxId).cores = boresOf s.cores := by
  simp [State.dropWaits]
@[simp] theorem State.bores_modCmd (s : State) (core ctxId seq : Nat) (f : Cmd → Cmd) : boresOf (s.modCmd core ctxId
    seq f).cores = boresOf s.cores := by
  simp [State.modCmd]
@[simp] theorem State.bores_modCmdOf (s : State) (w : WorkItem) (f : Cmd → Cmd) : boresOf (s.modCmdOf w f).cores =
    boresOf s.cores := by
  simp [State.modCmdOf]
@[simp] theorem State.bores_regWait (s : State) (ctxId : Nat) : boresOf (s.regWait ctxId).cores = boresOf s.cores := by
  unfold State.regWait
  (repeat' split) <;> simp
@[simp] theorem State.bores_raiseVtime (s0 s : State) (core : Nat) : boresOf (s0.raiseVtime s core).cores = boresOf
    s.cores := by
  simp [State.raiseVtime]
@[simp] theorem State.bores_drone (s : State) (core : Nat) : boresOf (s.drone core).cores = boresOf s.cores := by
  simp [State.drone]
@[simp] theorem State.bores_settle (s0 s : State) (core : Nat) : boresOf (s0.settle s core).cores = boresOf s.cores := by
  simp [State.settle]
@[simp] theorem State.bores_latchStage (s : State) (ct : Ctx) (c : Cmd) (st : Nat) : boresOf (s.latchStage ct c
    st).1.cores = boresOf s.cores := by
  unfold State.latchStage
  dsimp only
  (repeat' split) <;> simp
@[simp] theorem State.bores_latchAll (s : State) (ct : Ctx) (c : Cmd) : boresOf (s.latchAll ct c).1.cores = boresOf
    s.cores := by
  simp [State.latchAll]
@[simp] theorem State.bores_enqueueStep (s : State) (core : Nat) (r : ReadyStep) : boresOf (s.enqueueStep core
    r).cores = boresOf s.cores := by
  simp [State.enqueueStep]
@[simp] theorem State.bores_returnSteps (s : State) (core : Nat) (l : List ReadyStep) : boresOf (s.returnSteps core
    l).cores = boresOf s.cores := by
  simp [State.returnSteps]
@[simp] theorem State.bores_queueJob (s : State) (id : Nat) (j : Job) : boresOf (s.queueJob id j).cores = boresOf
    s.cores := by
  unfold State.queueJob
  split <;> simp
@[simp] theorem State.bores_jobStepDone (s : State) (id : Nat) : boresOf (s.jobStepDone id).cores = boresOf s.cores := by
  unfold State.jobStepDone
  split <;> simp
@[simp] theorem State.bores_prepPoison (s : State) (core : Nat) (r : Round) : boresOf (s.prepPoison core r).cores =
    boresOf s.cores := by
  unfold State.prepPoison
  split <;> simp
@[simp] theorem State.bores_roundLeaves (s : State) (core : Nat) (r : Round) : boresOf (s.roundLeaves core r).cores =
    boresOf s.cores := by
  simp [State.roundLeaves]
@[simp] theorem State.bores_leaveFlight (s : State) (core : Nat) : boresOf (s.leaveFlight core).cores = boresOf
    s.cores := by
  simp [State.leaveFlight]
@[simp] theorem State.bores_orderYield (s : State) (core : Nat) : boresOf (s.orderYield core).cores = boresOf s.cores := by
  unfold State.orderYield
  dsimp only
  (repeat' split) <;> simp
@[simp] theorem State.bores_markFenced (s : State) (core ctxId : Nat) : boresOf (s.markFenced core ctxId).cores =
    boresOf s.cores := by
  simp [State.markFenced]
@[simp] theorem State.bores_dropCredits (s : State) (h : CreditHolder) : boresOf (s.dropCredits h).cores = boresOf
    s.cores := by
  simp [State.dropCredits]
@[simp] theorem State.bores_freeChannel (s : State) (core chan : Nat) : boresOf (s.freeChannel core chan).cores =
    boresOf s.cores := by
  simp [State.freeChannel]
@[simp] theorem State.bores_stopChannels (s : State) (core ctxId : Nat) : boresOf (s.stopChannels core ctxId).cores =
    boresOf s.cores := by
  simp [State.stopChannels]
@[simp] theorem State.bores_rejectWith (s : State) (ctxId : Nat) (r : Completion) (n : Nat) (prog : Option Nat) :
    boresOf (s.rejectWith ctxId r n prog).cores = boresOf s.cores := by
  unfold State.rejectWith
  (repeat' split) <;> simp
@[simp] theorem State.bores_reject (s : State) (ctxId seq n : Nat) (code : Word16) (prog : Option Nat) : boresOf
    (s.reject ctxId seq n code prog).cores = boresOf s.cores := by
  simp [State.reject]
@[simp] theorem State.bores_purgeItems (s : State) (p : WorkItem → Bool) : boresOf (s.purgeItems p).cores = boresOf
    s.cores := by
  simp [State.purgeItems]
@[simp] theorem State.bores_charge (s : State) (ct : Ctx) (cls cycles : Nat) : boresOf (s.charge ct cls cycles).cores
    = boresOf s.cores := by
  unfold State.charge
  (repeat' split) <;> simp
@[simp] theorem State.bores_rejectRunning (s : State) (core : Nat) (c : Cmd) (code : Word16) : boresOf
    (s.rejectRunning core c code).cores = boresOf s.cores := by
  unfold State.rejectRunning
  split <;> simp
@[simp] theorem State.bores_checkOvercommit (s : State) (core : Nat) : boresOf (s.checkOvercommit core).cores =
    boresOf s.cores := by
  simp [State.checkOvercommit]
@[simp] theorem State.bores_noteTensor (s : State) (core : Nat) (c : Cmd) (st : Nat) (t : TileStats) : boresOf
    (s.noteTensor core c st t).cores = boresOf s.cores := by
  simp [State.noteTensor]
@[simp] theorem State.bores_after (s0 s : State) (core : Nat) : boresOf (s0.after s core).cores = boresOf s.cores := by
  simp [State.after]
@[simp] theorem State.bores_dispatch (s : State) (core : Nat) (c : Candidate) : boresOf (s.dispatch core c).cores =
    boresOf s.cores := by
  simp [State.dispatch]
@[simp] theorem State.bores_satisfyWait (s : State) (w : SemWait) (hold : Bool) : boresOf (s.satisfyWait w hold).cores
    = boresOf s.cores := by
  simp [State.satisfyWait]
@[simp] theorem State.bores_applySemOp (s : State) (core idx : Nat) (op : SemOp) : boresOf (s.applySemOp core idx
    op).cores = boresOf s.cores := by
  unfold State.applySemOp
  split <;> simp
@[simp] theorem State.bores_applyTakes (s : State) (core idx : Nat) (l : List SemWait) : boresOf (s.applyTakes core
    idx l).cores = boresOf s.cores := by
  simp [State.applyTakes]
@[simp] theorem State.bores_grantCtx (s : State) (ctx n : Nat) : boresOf (s.grantCtx ctx n).cores = boresOf s.cores := by
  unfold State.grantCtx
  split <;> simp
@[simp] theorem State.bores_foldMaxAbs (s : State) (ct : Ctx) (c : Cmd) : boresOf (s.foldMaxAbs ct c).cores = boresOf
    s.cores := by
  unfold State.foldMaxAbs
  refine State.bores_foldl _ _ _ (fun _ _ => ?_)
  (repeat' split) <;> simp
@[simp] theorem State.bores_countNumeric (s : State) (core part : Nat) (c : Cmd) : boresOf (s.countNumeric core part
    c).cores = boresOf s.cores := by
  simp [State.countNumeric]
@[simp] theorem State.bores_issueFlushes (s : State) (core : Nat) (l : List (Nat × BitVec 512)) :
    boresOf (s.issueFlushes core l).cores = boresOf s.cores := by
  induction l generalizing s with
  | nil => simp [State.issueFlushes]
  | cons q l ih =>
    unfold State.issueFlushes
    repeat' split
    all_goals simp [ih]
@[simp] theorem State.bores_swapOutFlush (s : State) (core out : Nat) : boresOf (s.swapOutFlush core out).cores =
    boresOf s.cores := by
  unfold State.swapOutFlush
  (repeat' split) <;> simp
@[simp] theorem State.bores_complete (s : State) (core : Nat) (ct : Ctx) (c : Cmd) : boresOf (s.complete core ct
    c).cores = boresOf s.cores := by
  unfold State.complete
  dsimp only
  (repeat' split) <;> simp
@[simp] theorem State.bores_makeRound (s : State) (core : Nat) (h : ReadyStep) (ctxId : Nat) (ct : Ctx) : boresOf
    (s.makeRound core h ctxId ct).cores = boresOf s.cores := by
  simp [State.makeRound]
@[simp] theorem State.bores_yieldRound (s : State) (core : Nat) (r : Round) (ct : Ctx) : boresOf (s.yieldRound core r
    ct).cores = boresOf s.cores := by
  simp [State.yieldRound]
@[simp] theorem State.bores_quietCtx (s : State) (ctxId core : Nat) : boresOf (s.quietCtx ctxId core).cores = boresOf
    s.cores := by
  simp [State.quietCtx]
@[simp] theorem State.bores_feedQueues (s : State) (core : Nat) : boresOf (s.feedQueues core).cores = boresOf s.cores := by
  simp [State.feedQueues]
@[simp] theorem State.bores_noEngine (s : State) (core : Nat) (c : Cmd) : boresOf (s.noEngine core c).cores = boresOf
    s.cores := by
  simp [State.noEngine]
@[simp] theorem State.bores_issueStage (s : State) (core : Nat) (c : Cmd) : boresOf (s.issueStage core c).cores =
    boresOf s.cores := by
  unfold State.issueStage
  dsimp only
  (repeat' split) <;> simp
@[simp] theorem State.bores_chargeItem (s : State) (eng : Nat) (w : WorkItem) (rerun : Bool) : boresOf (s.chargeItem
    eng w rerun).cores = boresOf s.cores := by
  simp [State.chargeItem]
@[simp] theorem State.bores_itemDone (s : State) (core e : Nat) (w : WorkItem) (status : Word16) (maxAbs : Frac) :
    boresOf (s.itemDone core e w status maxAbs).cores = boresOf s.cores := by
  simp [State.itemDone]
@[simp] theorem State.bores_requeue (s : State) (l : List WorkItem) : boresOf (s.requeue l).cores = boresOf s.cores := by
  simp [State.requeue]
@[simp] theorem State.bores_quarantine (s : State) (core e : Nat) : boresOf (s.quarantine core e).cores = boresOf
    s.cores := by
  simp [State.quarantine]
@[simp] theorem State.bores_mismatch (s : State) (eng : Nat) : boresOf (s.mismatch eng).cores = boresOf s.cores := by
  simp [State.mismatch]
@[simp] theorem State.bores_bellQueue (s : State) (c : Cmd) (core e : Nat) (w : WorkItem) : boresOf (s.bellQueue c
    core e w).1.cores = boresOf s.cores := by
  unfold State.bellQueue
  dsimp only
  (repeat' split) <;> simp
@[simp] theorem State.bores_lookAhead (s : State) (core e : Nat) : boresOf (s.lookAhead core e).cores = boresOf
    s.cores := by
  unfold State.lookAhead
  dsimp only
  (repeat' split) <;> simp
@[simp] theorem State.bores_issueExt (s : State) (core e : Nat) (rows : List (List (List Nat))) : boresOf (s.issueExt
    core e rows).cores = boresOf s.cores := by
  simp [State.issueExt]
@[simp] theorem State.bores_bellDecode (s : State) (core e : Nat) (w : WorkItem) (rows : List (List (List Nat))) (n :
    Nat) : boresOf (s.bellDecode core e w rows n).cores = boresOf s.cores := by
  simp [State.bellDecode]
@[simp] theorem State.bores_bellReach (s : State) (c : Cmd) (core e : Nat) (w : WorkItem) (upTo : Nat) : boresOf
    (s.bellReach c core e w upTo).1.cores = boresOf s.cores := by
  unfold State.bellReach
  dsimp only
  (repeat' split) <;> simp
@[simp] theorem State.bores_startItem (s : State) (c : Cmd) (core e i segs : Nat) (w : WorkItem) (record : List Byte)
    : boresOf (s.startItem c core e i segs w record).cores = boresOf s.cores := by
  simp [State.startItem]
@[simp] theorem State.bores_giveItem (s : State) (core e : Nat) (w : WorkItem) : boresOf (s.giveItem core e w).cores =
    boresOf s.cores := by
  simp [State.giveItem]
@[simp] theorem State.bores_fillFinds (s : State) (c : Cmd) (core e : Nat) (w : WorkItem) (errs : BoreErrs) : boresOf
    (s.fillFinds c core e w errs).cores = boresOf s.cores := by
  simp [State.fillFinds]
@[simp] theorem State.bores_failTile (s : State) (core e : Nat) (w : WorkItem) : boresOf (s.failTile core e w).cores =
    boresOf s.cores := by
  simp [State.failTile]
@[simp] theorem State.bores_unresolved (s : State) (eng : Nat) (w : WorkItem) : boresOf (s.unresolved eng w).cores =
    boresOf s.cores := by
  simp [State.unresolved]
@[simp] theorem State.bores_fillDone (s : State) (core e i : Nat) (w : WorkItem) (d : Nat) (rows : List (List Word32))
    (status : Word16) : boresOf (s.fillDone core e i w d rows status).cores = boresOf s.cores := by
  unfold State.fillDone
  dsimp only
  split <;> simp
@[simp] theorem State.bores_bellWaits (s : State) (c : Cmd) (core e : Nat) (w : WorkItem) : boresOf (s.bellWaits c
    core e w).cores = boresOf s.cores := by
  simp [State.bellWaits]
@[simp] theorem State.bores_modWalk (s : State) (core : Nat) (c : Cmd) (f : Walk → Option Walk) : boresOf (s.modWalk
    core c f).cores = boresOf s.cores := by
  simp [State.modWalk]
@[simp] theorem State.bores_noteDecision (s : State) (core : Nat) (r : CkptReport) (x : StreamCtx) (c : Chunk) (v :
    Verdict) (rr : RerunDecision) (exceeds wider clipped : Bool) (rem : Option (Nat × Nat × Nat × Nat)) : boresOf
    (s.noteDecision core r x c v rr exceeds wider clipped rem).cores = boresOf s.cores := by
  unfold State.noteDecision
  (repeat' split) <;> simp
@[simp] theorem State.bores_decideReport (s : State) (core : Nat) (r : CkptReport) : boresOf (s.decideReport core
    r).1.cores = boresOf s.cores := by
  unfold State.decideReport
  (repeat' split) <;> simp
@[simp] theorem State.bores_freeStream (s : State) (stream : Nat) : boresOf (s.freeStream stream).cores = boresOf
    s.cores := by
  unfold State.freeStream
  split <;> simp
@[simp] theorem State.bores_stepTime (s : State) (d : Int) : boresOf (s.stepTime d).cores = boresOf s.cores := by
  unfold State.stepTime
  simp only [State.logFw_frame]
  exact State.bores_modCores _ _ (fun _ _ => rfl)
@[simp] theorem State.bores_measure (s : State) (off : Int) : boresOf (s.measure off).cores = boresOf s.cores := by
  simp [State.measure]
@[simp] theorem State.bores_ptpSync (s : State) (origin arrival : Nat) : boresOf (s.ptpSync origin arrival).cores =
    boresOf s.cores := by
  simp [State.ptpSync]
@[simp] theorem State.bores_modSeq (s : State) (c : Nat) (f : Sequencer → Sequencer) : boresOf (s.modSeq c f).cores =
    boresOf s.cores := by
  simp [State.modSeq]
@[simp] theorem State.bores_takeSample (s : State) (c level cause kind unit : Nat) : boresOf (s.takeSample c level
    cause kind unit).cores = boresOf s.cores := by
  unfold State.takeSample
  dsimp only
  split <;> simp
@[simp] theorem State.bores_endSample (s : State) (c : Nat) : boresOf (s.endSample c).cores = boresOf s.cores := by
  unfold State.endSample
  dsimp only
  split <;> simp
@[simp] theorem State.bores_returnTakes (s : State) (c : Nat) : boresOf (s.returnTakes c).cores = boresOf s.cores := by
  simp [State.returnTakes]
@[simp] theorem State.bores_returnCredits (s : State) (c : Nat) : boresOf (s.returnCredits c).cores = boresOf s.cores := by
  simp [State.returnCredits]
@[simp] theorem State.bores_fence (s : State) (c : Nat) : boresOf (s.fence c).cores = boresOf s.cores := by
  simp [State.fence]
@[simp] theorem State.bores_beginCore (s : State) (c last level cause kind unit : Nat) (byDie : Bool) : boresOf
    (s.beginCore c last level cause kind unit byDie).cores = boresOf s.cores := by
  simp [State.beginCore]
@[simp] theorem State.bores_declareCore (s : State) (c last cause kind unit : Nat) : boresOf (s.declareCore c last
    cause kind unit).cores = boresOf s.cores := by
  simp [State.declareCore]
@[simp] theorem State.bores_declareDie (s : State) (d cause kind unit : Nat) : boresOf (s.declareDie d cause kind
    unit).cores = boresOf s.cores := by
  simp [State.declareDie]
@[simp] theorem State.bores_noteHang (s : State) (c : Nat) (u : DroneUnit) : boresOf (s.noteHang c u).cores = boresOf
    s.cores := by
  unfold State.noteHang
  dsimp only
  (repeat' split) <;> simp
@[simp] theorem State.bores_requestReset (s : State) (c sc : Nat) : boresOf (s.requestReset c sc).cores = boresOf
    s.cores := by
  simp [State.requestReset]
@[simp] theorem State.bores_discardCtx (s : State) (i : Nat) (ct : Ctx) (c : Nat) : boresOf (s.discardCtx i ct
    c).cores = boresOf s.cores := by
  simp [State.discardCtx]
@[simp] theorem State.bores_returnFenced (s : State) (c : Nat) : boresOf (s.returnFenced c).cores = boresOf s.cores := by
  simp [State.returnFenced]
@[simp] theorem State.bores_resumeCore (s : State) (c : Nat) : boresOf (s.resumeCore c).cores = boresOf s.cores := by
  simp [State.resumeCore]
@[simp] theorem State.bores_modChan (s : State) (core n : Nat) (f : Channel → Channel) : boresOf (s.modChan core n
    f).cores = boresOf s.cores := by
  simp [State.modChan]
@[simp] theorem State.bores_startPass (s : State) (core n : Nat) (desc : BitVec 256) (ctx seq : Nat) : boresOf
    (s.startPass core n desc ctx seq).cores = boresOf s.cores := by
  simp [State.startPass]
@[simp] theorem State.bores_returnPlainCredit (s : State) (core n : Nat) : boresOf (s.returnPlainCredit core n).cores
    = boresOf s.cores := by
  simp [State.returnPlainCredit]
@[simp] theorem State.bores_nextPass (s : State) (core n : Nat) : boresOf (s.nextPass core n).cores = boresOf s.cores := by
  unfold State.nextPass
  dsimp only
  split <;> simp
@[simp] theorem State.bores_endPass (s : State) (core n : Nat) : boresOf (s.endPass core n).cores = boresOf s.cores := by
  simp [State.endPass]
@[simp] theorem State.bores_dstFilled (s : State) (core : Nat) (c : Channel) (q : Nat) : boresOf (s.dstFilled core c
    q).cores = boresOf s.cores := by
  simp [State.dstFilled]
@[simp] theorem State.bores_spendCredit (s : State) (core : Nat) (c : Channel) (o : CreditHolder) (q : Nat) : boresOf
    (s.spendCredit core c o q).cores = boresOf s.cores := by
  simp [State.spendCredit]
@[simp] theorem State.bores_askCredit (s : State) (core n : Nat) (c : Channel) : boresOf (s.askCredit core n c).cores
    = boresOf s.cores := by
  simp [State.askCredit]
@[simp] theorem State.bores_rearm (s : State) (core : Nat) (c : Cmd) : boresOf (s.rearm core c).cores = boresOf
    s.cores := by
  unfold State.rearm
  dsimp only
  split <;> simp
@[simp] theorem State.bores_poolWait (s : State) (core n : Nat) : boresOf (s.poolWait core n).cores = boresOf s.cores := by
  simp [State.poolWait]
@[simp] theorem State.bores_takeSlot (s : State) (core n : Nat) (c : Channel) (q : Nat) : boresOf (s.takeSlot core n c
    q).1.cores = boresOf s.cores := by
  unfold State.takeSlot
  dsimp only
  (repeat' split) <;> simp
@[simp] theorem State.bores_pieceReady (s : State) (core n : Nat) (c : Channel) : boresOf (s.pieceReady core n
    c).1.cores = boresOf s.cores := by
  unfold State.pieceReady
  dsimp only
  (repeat' split) <;> simp
@[simp] theorem State.bores_issuePiece (s : State) (core n : Nat) (c : Channel) (errs : BoreErrs) : boresOf
    (s.issuePiece core n c errs).cores = boresOf s.cores := by
  simp [State.issuePiece]
@[simp] theorem State.bores_grantPool (s : State) (core n : Nat) : boresOf (s.grantPool core n).cores = boresOf
    s.cores := by
  simp [State.grantPool]
@[simp] theorem State.bores_submitJob (s : State) (v : List Byte) (slot : Nat) (p : Package) : boresOf (s.submitJob v
    slot p).cores = boresOf s.cores := by
  simp [State.submitJob]
@[simp] theorem State.bores_cancelJob (s : State) (id : Nat) : boresOf (s.cancelJob id).cores = boresOf s.cores := by
  simp [State.cancelJob]
@[simp] theorem State.bores_releaseEngines (s : State) (core mask : Nat) : boresOf (s.releaseEngines core mask).cores
    = boresOf s.cores := by
  simp [State.releaseEngines]
@[simp] theorem State.bores_startDrain (s : State) (ms : Nat) : boresOf (s.startDrain ms).cores = boresOf s.cores := by
  simp [State.startDrain]
@[simp] theorem State.bores_loaderStalls (s : State) (core e : Nat) : boresOf (s.loaderStalls core e).cores = boresOf
    s.cores := by
  simp [State.loaderStalls]
@[simp] theorem State.bores_addCtx (s : State) (part : Nat) (slot : Option Nat) (i : CtxInit) : boresOf (s.addCtx part
    slot i).cores = boresOf s.cores := by
  unfold State.addCtx
  dsimp only
  split <;> simp
@[simp] theorem State.bores_dropCtx (s : State) (id core : Nat) : boresOf (s.dropCtx id core).cores = boresOf s.cores := by
  simp [State.dropCtx]
@[simp] theorem State.bores_dropCtxs (s : State) (p : Ctx → Bool) : boresOf (s.dropCtxs p).cores = boresOf s.cores := by
  simp [State.dropCtxs]
@[simp] theorem State.bores_placePart (s : State) (n : Nat) (r : PartRec) (ch : PartChoice) (ext : List (Nat × Nat)) :
    boresOf (s.placePart n r ch ext).cores = boresOf s.cores := by
  simp [State.placePart]
@[simp] theorem State.bores_createPart (s : State) (n : Nat) (r : PartRec) (ch : PartChoice) : boresOf (s.createPart n
    r ch).cores = boresOf s.cores := by
  simp [State.createPart]
@[simp] theorem State.bores_destroyPart (s : State) (n : Nat) (r : PartRec) : boresOf (s.destroyPart n r).cores =
    boresOf s.cores := by
  simp [State.destroyPart]
@[simp] theorem State.bores_acceptLoad (s : State) (slot : Nat) (m : ModelSlot) (p : Package) (l : List CtxInit) :
    boresOf (s.acceptLoad slot m p l).cores = boresOf s.cores := by
  simp [State.acceptLoad]
@[simp] theorem State.bores_veProgress (s : State) (core e n : Nat) : boresOf (s.veProgress core e n).cores = boresOf
    s.cores := by
  simp [State.veProgress]
@[simp] theorem VeRun.bores_release (m : VeRun) (core e : Nat) : boresOf (m.release core e).s.cores = boresOf m.s.cores := by
  unfold VeRun.release
  split
  · rfl
  · exact State.bores_modEngine ..

/-! ### Operations that write bore memory, and those that use them -/

/-- Every core's bore memory of these is in its canonical form. -/
structure BoresWf (b : Nat → Mem) : Prop where
  wf : ∀ c, Memory.wf (b c) = true

theorem State.boresWf_modCore (s : State) (c : Nat) (f : Core → Core) (hf : ∀ k, Memory.wf k.bore = true → Memory.wf (f k).bore = true)
    (h : BoresWf (boresOf s.cores)) : BoresWf (boresOf (s.modCore c f).cores) := by
  refine ⟨fun d => ?_⟩
  by_cases hd : d = c
  · rw [hd]
    change Memory.wf ((s.modCore c f).core c).bore = true
    rw [State.core_modCore_self]
    exact hf _ (h.wf c)
  · change Memory.wf ((s.modCore c f).core d).bore = true
    rw [State.core_modCore_ne s f hd]
    exact h.wf d

theorem State.boresWf_foldl {β : Type} (f : State → β → State) (l : List β) (s : State)
    (hf : ∀ t x, BoresWf (boresOf t.cores) → BoresWf (boresOf (f t x).cores)) (h : BoresWf (boresOf s.cores)) :
    BoresWf (boresOf (l.foldl f s).cores) := by
  induction l generalizing s with
  | nil => exact h
  | cons x l ih => exact ih _ (hf s x h)
theorem VeRun.boresWf_foldl {β : Type} (f : VeRun → β → VeRun) (l : List β) (m : VeRun)
    (hf : ∀ t x, BoresWf (boresOf t.s.cores) → BoresWf (boresOf (f t x).s.cores)) (h : BoresWf (boresOf m.s.cores)) :
    BoresWf (boresOf (l.foldl f m).s.cores) := by
  induction l generalizing m with
  | nil => exact h
  | cons x l ih => exact ih _ (hf m x h)

theorem VeRun.boresWf_ite {c : Prop} [Decidable c] {m n : VeRun} (hm : BoresWf (boresOf m.s.cores)) (hn : BoresWf (boresOf n.s.cores)) :
    BoresWf (boresOf (if c then m else n).s.cores) := by
  split
  · exact hm
  · exact hn

theorem State.boresWf_foldl_fst {β γ : Type} (f : State × γ → β → State × γ) (l : List β) (q : State × γ)
    (hf : ∀ q x, BoresWf (boresOf q.1.cores) → BoresWf (boresOf (f q x).1.cores)) (h : BoresWf (boresOf q.1.cores)) :
    BoresWf (boresOf (l.foldl f q).1.cores) := by
  induction l generalizing q with
  | nil => exact h
  | cons x l ih => exact ih _ (hf q x h)

theorem foldl_wrByte_wf {β : Type} (g : β → Nat) (v : β → Byte) (l : List β) (m : Mem) (h : Memory.wf m = true) :
    Memory.wf (l.foldl (fun m i => wrByte m (g i) (v i)) m) = true := by
  induction l generalizing m with
  | nil => exact h
  | cons x l ih => exact ih _ (wf_wrByte _ _ h)

theorem boresWf_nil : BoresWf (boresOf []) := ⟨fun _ => rfl⟩
theorem boresWf_reset : BoresWf (boresOf State.reset.cores) := ⟨fun _ => rfl⟩

/-- What a program writes to bore memory, a byte at a time. -/
@[simp] theorem State.boresWf_bufWrite (s : State) (core : Nat) (a : HandleEntry) (o : Nat) (bs : List Byte) (poison : Bool)
    (h : BoresWf (boresOf s.cores)) : BoresWf (boresOf (s.bufWrite core a o bs poison).cores) :=
  s.boresWf_modCore core _ (fun _ hk => foldl_wrByte_wf _ _ _ _ hk) h
@[simp] theorem boresWf_powerOff (s : State) : BoresWf (boresOf (powerOff s).cores) := boresWf_nil
@[simp] theorem boresWf_moduleReset (s : State) (cause : Nat) (hs : BoresWf (boresOf s.cores)) : BoresWf (boresOf
    (moduleReset s cause).cores) := by
  simp [moduleReset, hs]
@[simp] theorem boresWf_shutdown (s : State) (causes : List (Nat × Nat × Int)) (hs : BoresWf (boresOf s.cores)) :
    BoresWf (boresOf (shutdown s causes).cores) := by
  unfold shutdown
  (repeat' split) <;> simp [hs]
@[simp] theorem boresWf_trip (s : State) (causes : List (Nat × Nat × Int)) (hs : BoresWf (boresOf s.cores)) : BoresWf
    (boresOf (trip s causes).cores) := by
  unfold trip
  (repeat' split) <;> simp [hs]
@[simp] theorem boresWf_startSequence (s : State) (hs : BoresWf (boresOf s.cores)) : BoresWf (boresOf (startSequence
    s).cores) := by
  simp [startSequence, hs]
@[simp] theorem boresWf_tryStart (s : State) (hs : BoresWf (boresOf s.cores)) : BoresWf (boresOf (tryStart s).cores) := by
  unfold tryStart
  (repeat' split) <;> simp [hs]
@[simp] theorem State.boresWf_putCodes (s : State) (core : Nat) (h : HandleEntry) (o fmt : Nat) (l : List (Option
    Nat)) (poison : Bool) (hs : BoresWf (boresOf s.cores)) : BoresWf (boresOf (s.putCodes core h o fmt l
    poison).cores) := by
  unfold State.putCodes
  refine State.boresWf_foldl _ _ _ (fun t _ ht => ?_) hs
  simp [ht]
@[simp] theorem State.boresWf_writeSegment (s : State) (core : Nat) (a : HandleEntry) (d r ct extra : Nat) (w : Word16)
    (l : List (Option Nat)) (e : Nat) (poison : Bool) (hs : BoresWf (boresOf s.cores)) :
    BoresWf (boresOf (s.writeSegment core a d r ct extra w l e poison).cores) := by
  unfold State.writeSegment
  dsimp only
  split
  · exact hs
  · have hcodes := s.boresWf_putCodes core a (outRow d r + extra + colOffset (dOFmt d) (32 * ct) (dMicro d)) (dOFmt d) l poison hs
    split
    · exact hcodes
    · refine State.boresWf_bufWrite _ _ _ _ _ _ ?_
      split
      · exact State.boresWf_bufWrite _ _ _ _ _ _ hcodes
      · exact hcodes
@[simp] theorem State.boresWf_zeroRange (s : State) (core : Nat) (h : HandleEntry) (a b : Nat) (poison : Bool) (hs :
    BoresWf (boresOf s.cores)) : BoresWf (boresOf (s.zeroRange core h a b poison).cores) := by
  unfold State.zeroRange
  dsimp only
  (repeat' split) <;> simp [hs]
@[simp] theorem State.boresWf_writeMasked (s : State) (core : Nat) (a : HandleEntry) (d r ct extra : Nat) (poison : Bool)
    (hs : BoresWf (boresOf s.cores)) : BoresWf (boresOf (s.writeMasked core a d r ct extra poison).cores) := by
  unfold State.writeMasked
  dsimp only
  have hzero (u v w x : Nat) := State.boresWf_zeroRange _ core a u v poison (s.boresWf_zeroRange core a w x poison hs)
  split
  · exact State.boresWf_bufWrite _ _ _ _ _ _ (hzero ..)
  · exact hzero ..
@[simp] theorem State.boresWf_writeStats (s : State) (core : Nat) (c : Cmd) (st rt ct : Nat) (t : TileStats) (poison :
    Bool) (hs : BoresWf (boresOf s.cores)) : BoresWf (boresOf (s.writeStats core c st rt ct t poison).cores) := by
  unfold State.writeStats
  dsimp only
  (repeat' split) <;> simp [hs]
@[simp] theorem State.boresWf_convertTile (s : State) (c : Cmd) (core e i : Nat) (w : WorkItem) (a : AccSet)
    (hs : BoresWf (boresOf s.cores)) : BoresWf (boresOf (s.convertTile c core e i w a).cores) := by
  unfold State.convertTile
  simp only [State.bores_itemDone, State.bores_modCmdOf, State.bores_modEngine]
  have hmasked (p : Bool) (t : State) (h : BoresWf (boresOf t.cores)) : BoresWf (boresOf (if dMicro (c.desc w.stage) = true then
      ((List.range 64).drop a.rows.length).foldl (fun t r =>
        t.writeMasked w.home (c.map w.stage (dOH (c.desc w.stage))) (c.desc w.stage) (64 * w.rt + r) w.ct 0 p) t
      else t).cores) := by
    split
    · exact State.boresWf_foldl _ _ _ (fun t _ ht => t.boresWf_writeMasked _ _ _ _ _ _ _ ht) h
    · exact h
  split
  · exact hmasked _ _ (State.boresWf_foldl _ _ _ (fun t _ ht => t.boresWf_bufWrite _ _ _ _ _ ht) hs)
  · refine State.boresWf_writeStats _ _ _ _ _ _ _ _ (hmasked _ _ ?_)
    exact State.boresWf_foldl_fst _ _ _ (fun q _ hq => q.1.boresWf_writeSegment _ _ _ _ _ _ _ _ _ _ hq) hs
@[simp] theorem State.boresWf_linesWrite (s : State) (core : Nat) (h : HandleEntry) (o : Nat) (bs : List Byte) (poison
    : Nat → Bool) (hs : BoresWf (boresOf s.cores)) : BoresWf (boresOf (s.linesWrite core h o bs poison).cores) := by
  unfold State.linesWrite
  refine State.boresWf_foldl _ _ _ (fun t _ ht => ?_) hs
  simp [ht]
@[simp] theorem State.boresWf_gatherCol (s : State) (core : Nat) (h : HandleEntry) (o w : Nat) (l : List (Nat × Bool))
    (hs : BoresWf (boresOf s.cores)) : BoresWf (boresOf (s.gatherCol core h o w l).cores) := by
  simp [State.gatherCol, hs]
@[simp] theorem State.boresWf_gatherMember (s : State) (core : Nat) (h : HandleEntry) (d m : Nat) (l : List KeyCol)
    (hs : BoresWf (boresOf s.cores)) : BoresWf (boresOf (s.gatherMember core h d m l).cores) := by
  unfold State.gatherMember
  refine State.boresWf_foldl _ _ _ (fun t _ ht => ?_) hs
  (repeat' split) <;> simp [ht]
@[simp] theorem State.boresWf_gatherCheck (s : State) (core : Nat) (h : HandleEntry) (d m : Nat) (l : List KeyCol) (hs
    : BoresWf (boresOf s.cores)) : BoresWf (boresOf (s.gatherCheck core h d m l).cores) := by
  unfold State.gatherCheck
  refine State.boresWf_foldl _ _ _ (fun t _ ht => ?_) hs
  simp [ht]
@[simp] theorem State.boresWf_scoreBlock (s : State) (core : Nat) (a : HandleEntry) (d : Nat) (l : List KeyCol)
    (hs : BoresWf (boresOf s.cores)) : BoresWf (boresOf (s.scoreBlock core a d l).cores) := by
  unfold State.scoreBlock
  exact State.boresWf_linesWrite _ _ _ _ _ _ (State.boresWf_linesWrite _ _ _ _ _ _ (State.boresWf_linesWrite _ _ _ _ _ _ hs))
@[simp] theorem State.boresWf_walk (s : State) (core : Nat) (c : Cmd) (hs : BoresWf (boresOf s.cores)) :
    BoresWf (boresOf (s.walk core c).cores) := by
  unfold State.walk
  dsimp only
  have hmembers (t : State) (h : BoresWf (boresOf t.cores)) : BoresWf (boresOf ((List.range (dMembers (c.desc c.stage))).foldl
      (fun t m =>
        let t := t.gatherMember core (c.map c.stage (dBH (c.desc c.stage))) (c.desc c.stage) m (s.walkAll c core c.stage).cols
        if dCheck (c.desc c.stage) then
          t.gatherCheck core (c.map c.stage (dBH (c.desc c.stage))) (c.desc c.stage) m (s.walkAll c core c.stage).cols
        else t) t).cores) := by
    refine State.boresWf_foldl _ _ _ (fun t m ht => ?_) h
    dsimp only
    split <;> simp [ht]
  have hbeats : BoresWf (boresOf (State.progressBy ((s.walkAll c core c.stage).reads.foldl (fun t q => t.wcReads q.1 q.2) s) core 116
      (s.walkBeats c core c.stage (s.walkAll c core c.stage))).cores) := by simpa using hs
  split
  · rw [State.bores_foldl _ _ _ (fun t x => by simp)]
    split
    · exact State.boresWf_scoreBlock _ _ _ _ _ (hmembers _ hbeats)
    · exact hmembers _ hbeats
  · simp only [State.bores_modCmd, State.kvCount_frame]
    rw [State.bores_foldl _ _ _ (fun t x => by simp)]
    split
    · exact State.boresWf_scoreBlock _ _ _ _ _ (hmembers _ hbeats)
    · exact hmembers _ hbeats
@[simp] theorem State.boresWf_walkStage (s : State) (ctx op : Nat) (hs : BoresWf (boresOf s.cores)) : BoresWf (boresOf
    (s.walkStage ctx op).cores) := by
  unfold State.walkStage
  dsimp only
  (repeat' split) <;> simp [hs]
@[simp] theorem State.boresWf_pairDone (s : State) (core : Nat) (c : Cmd) (w : Walk) (q : PairRef)
    (hs : BoresWf (boresOf s.cores)) : BoresWf (boresOf (s.pairDone core c w q).cores) := by
  unfold State.pairDone
  simp only [State.bores_modWalk, State.bores_ite, State.markWalk_frame, State.bores_progressBy, ite_self]
  split
  · exact State.boresWf_foldl _ _ _ (fun t _ ht => t.boresWf_bufWrite _ _ _ _ _ ht) hs
  · exact State.boresWf_bufWrite _ _ _ _ _ _ (State.boresWf_bufWrite _ _ _ _ _ _
      (State.boresWf_foldl _ _ _ (fun t _ ht => t.boresWf_bufWrite _ _ _ _ _ ht) hs))
@[simp] theorem State.boresWf_pairArrived (s : State) (core : Nat) (c : Cmd) (w : Walk) (q : PairRef) (l : Nat) (hs :
    BoresWf (boresOf s.cores)) : BoresWf (boresOf (s.pairArrived core c w q l).cores) := by
  unfold State.pairArrived
  dsimp only
  (repeat' split) <;> simp [hs]
@[simp] theorem State.boresWf_pairLost (s : State) (ctx : Nat) (hs : BoresWf (boresOf s.cores)) : BoresWf (boresOf
    (s.pairLost ctx).cores) := by
  unfold State.pairLost
  (repeat' split) <;> simp [hs]
@[simp] theorem State.boresWf_linkGoDown (s : State) (l : Nat) (code : Word16) (hs : BoresWf (boresOf s.cores)) :
    BoresWf (boresOf (s.linkGoDown l code).cores) := by
  unfold State.linkGoDown
  dsimp only
  split
  · exact hs
  · simp only [State.bores_ite, State.logEvent_frame, ite_self, State.markCause_frame, State.modLink_frame]
    rw [State.bores_foldl _ _ _ (fun t q => by simp)]
    refine State.boresWf_foldl _ _ _ (fun t x => t.boresWf_pairLost x) ?_
    rw [State.bores_foldl _ _ _ (fun t w => by simp)]
    exact hs
@[simp] theorem State.boresWf_linkReplay (s : State) (l n : Nat) (hs : BoresWf (boresOf s.cores)) :
    BoresWf (boresOf (s.linkReplay l n).cores) := by
  unfold State.linkReplay
  dsimp only
  split
  · exact hs
  · split
    · exact hs
    · split
      · exact State.boresWf_linkGoDown _ _ _ (by simpa using hs)
      · exact hs
@[simp] theorem State.boresWf_linkUnauth (s : State) (l : Nat) (hs : BoresWf (boresOf s.cores)) : BoresWf (boresOf
    (s.linkUnauth l).cores) := by
  unfold State.linkUnauth
  (repeat' split) <;> simp [hs]
@[simp] theorem State.boresWf_writeObj (s : State) (index sub : Nat) (v : List Byte) (hs : BoresWf (boresOf s.cores)) :
    BoresWf (boresOf (s.writeObj index sub v).cores) := by
  unfold State.writeObj
  have hput : boresOf (if index = 0x5001 then s.holdClip (sub - 1) else s).cores = boresOf s.cores := by simp
  generalize (if index = 0x5001 then s.holdClip (sub - 1) else s) = u at hput ⊢
  have hu : BoresWf (boresOf u.cores) := by rwa [hput]
  dsimp only
  repeat' split
  · simpa using hu
  · exact State.boresWf_linkGoDown _ _ _ hu
  · rw [State.bores_foldl _ _ _ (fun t c => t.bores_checkOvercommit c)]
    exact hu
  · exact hu
@[simp] theorem State.boresWf_applyWrite (s : State) (r : Req) (c : Caller) (hs : BoresWf (boresOf s.cores)) :
    BoresWf (boresOf (s.applyWrite r c).cores) := by
  have hwrites := State.boresWf_foldl (fun t (e : Entry) => t.writeObj e.index e.sub e.value) r.entries s
    (fun t e ht => t.boresWf_writeObj _ _ _ ht) hs
  unfold State.applyWrite
  dsimp only
  repeat' split
  all_goals simp [hs, hwrites]
@[simp] theorem State.boresWf_declareModule (s : State) (cause : Nat) (hs : BoresWf (boresOf s.cores)) : BoresWf
    (boresOf (s.declareModule cause).cores) := by
  simp [State.declareModule, hs]
@[simp] theorem State.boresWf_escalate (s : State) (core event kind index unit : Nat) (hs : BoresWf (boresOf s.cores))
    : BoresWf (boresOf (s.escalate core event kind index unit).cores) := by
  unfold State.escalate
  dsimp only
  (repeat' split) <;> simp [hs]
@[simp] theorem State.boresWf_resetCore (s : State) (c : Nat) (h : BoresWf (boresOf s.cores)) :
    BoresWf (boresOf (s.resetCore c).cores) := by
  refine State.boresWf_modCore _ c _ (fun _ _ => rfl) ?_
  simpa using h
@[simp] theorem State.boresWf_beatWrite (s : State) (core : Nat) (c : Channel) (p : Nat) (bs : List Byte) (poison :
    Bool) (hs : BoresWf (boresOf s.cores)) : BoresWf (boresOf (s.beatWrite core c p bs poison).cores) := by
  unfold State.beatWrite
  dsimp only
  (repeat' split) <;> simp [hs]
@[simp] theorem State.boresWf_pieceWrite (s : State) (core : Nat) (c : Channel) (q : Piece) (hs : BoresWf (boresOf
    s.cores)) : BoresWf (boresOf (s.pieceWrite core c q).cores) := by
  unfold State.pieceWrite
  refine State.boresWf_foldl _ _ _ (fun t _ ht => ?_) hs
  simp [ht]
@[simp] theorem State.boresWf_failRing (s : State) (core n : Nat) (c : Channel) (l : List Nat) (hs : BoresWf (boresOf s.cores)) :
    BoresWf (boresOf (s.failRing core n c l).cores) := by
  induction l generalizing s with
  | nil => simpa [State.failRing] using hs
  | cons q l ih =>
    unfold State.failRing
    dsimp only
    have hzero : BoresWf (boresOf ((List.range c.dstMap.slotLines).foldl (fun t i =>
        if t.poolHole (sideCore core c.desc.toNat (sdDstKind c.desc.toNat)) c.dstMap
            ((c.dstSlot + q) % c.dstMap.slots * c.dstMap.slotBytes + i * 64) then t
        else t.bufWrite (sideCore core c.desc.toNat (sdDstKind c.desc.toNat)) c.dstMap
          ((c.dstSlot + q) % c.dstMap.slots * c.dstMap.slotBytes + i * 64) (List.replicate 64 0) true) s).cores) := by
      refine State.boresWf_foldl _ _ _ (fun t i ht => ?_) hs
      split
      · exact ht
      · exact t.boresWf_bufWrite _ _ _ _ _ ht
    split
    · exact ih _ (by simpa using hzero)
    · split
      · simpa using hs
      · split
        · split
          · simpa using hs
          · exact ih _ (by simpa using hzero)
        · exact ih _ (by simpa using hzero)
@[simp] theorem State.boresWf_failChannel (s : State) (core n : Nat) (code : Word16) (hs : BoresWf (boresOf s.cores)) :
    BoresWf (boresOf (s.failChannel core n code).cores) := by
  have hpieces (b : Prop) [Decidable b] (c : Channel) : BoresWf (boresOf (if b then s else
      c.flight.foldl (fun t q => t.pieceWrite core c q) s).cores) := by
    split
    · exact hs
    · exact State.boresWf_foldl _ _ _ (fun t q => t.boresWf_pieceWrite core c q) hs
  have hbeats (b : Prop) [Decidable b] (c : Channel) (l : List (Nat × Nat)) (t : State) (h : BoresWf (boresOf t.cores)) :
      BoresWf (boresOf (if b then t else l.foldl (fun t b => t.beatWrite core c b.1 (List.replicate b.2 0) true) t).cores) := by
    split
    · exact h
    · exact State.boresWf_foldl _ _ _ (fun t _ ht => t.boresWf_beatWrite _ _ _ _ _ ht) h
  have hring (b : Prop) [Decidable b] (c : Channel) (l : List Nat) (t : State) (h : BoresWf (boresOf t.cores)) :
      BoresWf (boresOf (if b then t.failRing core n c l else t).cores) := by
    split
    · exact State.boresWf_failRing _ _ _ _ _ h
    · exact h
  unfold State.failChannel
  simp only [State.logEvent_frame]
  have hmark (b : Prop) [Decidable b] (c : Nat) (t : State) : boresOf (if b then t.markFenced core c else t).cores = boresOf t.cores := by
    split <;> simp
  rw [hmark]
  refine hring _ _ _ _ ?_
  simpa using hbeats _ _ _ _ (hpieces _ _)
@[simp] theorem State.boresWf_dropLinkKeys (s : State) (hs : BoresWf (boresOf s.cores)) : BoresWf (boresOf
    (s.dropLinkKeys).cores) := by
  unfold State.dropLinkKeys
  refine State.boresWf_foldl _ _ _ (fun t _ ht => ?_) hs
  (repeat' split) <;> simp [ht]
@[simp] theorem State.boresWf_decommission (s : State) (hs : BoresWf (boresOf s.cores)) : BoresWf (boresOf
    (s.decommission).cores) := by
  simp [State.decommission, hs]
@[simp] theorem VeEnv.boresWf_store (v : VeEnv) (m : VeRun) (w i : Nat) (poison : Bool) (hs : BoresWf (boresOf
    m.s.cores)) : BoresWf (boresOf (VeEnv.store v m w i poison).s.cores) := by
  unfold VeEnv.store
  refine State.boresWf_foldl _ _ _ (fun t _ ht => ?_) hs
  simp [ht]
@[simp] theorem VeEnv.boresWf_packMasked (v : VeEnv) (s : State) (row extra : Nat) (poison : Bool) (hs : BoresWf
    (boresOf s.cores)) : BoresWf (boresOf (VeEnv.packMasked v s row extra poison).cores) := by
  unfold VeEnv.packMasked
  dsimp only
  (repeat' split) <;> simp [hs]
@[simp] theorem VeEnv.boresWf_packRow (v : VeEnv) (w i : Nat) (poison : Bool) (m : VeRun) (r : Nat) (hs : BoresWf
    (boresOf m.s.cores)) : BoresWf (boresOf (VeEnv.packRow v w i poison m r).s.cores) := by
  unfold VeEnv.packRow
  dsimp only
  (repeat' split) <;> simp [hs]
@[simp] theorem VeEnv.boresWf_pack (v : VeEnv) (m : VeRun) (w i : Nat) (poison : Bool) (hs : BoresWf (boresOf
    m.s.cores)) : BoresWf (boresOf (VeEnv.pack v m w i poison).s.cores) := by
  unfold VeEnv.pack
  refine VeRun.boresWf_foldl _ _ _ (fun t _ ht => ?_) hs
  simp [ht]
@[simp] theorem VeEnv.boresWf_chkst (v : VeEnv) (m : VeRun) (w i : Nat) (hs : BoresWf (boresOf m.s.cores)) : BoresWf
    (boresOf (VeEnv.chkst v m w i).s.cores) := by
  simp [VeEnv.chkst, hs]
@[simp] theorem VeEnv.boresWf_flagst (v : VeEnv) (m : VeRun) (w i : Nat) (poison : Bool) (hs : BoresWf (boresOf
    m.s.cores)) : BoresWf (boresOf (VeEnv.flagst v m w i poison).s.cores) := by
  simp [VeEnv.flagst, hs]
@[simp] theorem VeEnv.boresWf_exec (v : VeEnv) (m : VeRun) (q : Nat × Nat) (hs : BoresWf (boresOf m.s.cores)) :
    BoresWf (boresOf (v.exec m q).s.cores) := by
  unfold VeEnv.exec
  dsimp only
  repeat' with_reducible refine VeRun.boresWf_ite ?_ ?_
  all_goals simp [hs]
@[simp] theorem VeEnv.boresWf_issue (v : VeEnv) (core e : Nat) (errs : BoreErrs) (m : VeRun) (q : Nat × Nat) (slots :
    List (Nat × Nat × Bool)) (hs : BoresWf (boresOf m.s.cores)) : BoresWf (boresOf (VeEnv.issue v core e errs m q
    slots).s.cores) := by
  unfold VeEnv.issue
  dsimp only
  (repeat' split) <;> simp [hs]
@[simp] theorem VeEnv.boresWf_runSteps (v : VeEnv) (core e : Nat) (errs : BoreErrs) (l : List (Nat × Nat)) (m : VeRun)
    (hs : BoresWf (boresOf m.s.cores)) : BoresWf (boresOf (v.runSteps core e errs l m).1.s.cores) := by
  induction l generalizing m with
  | nil => exact hs
  | cons q l ih =>
    unfold VeEnv.runSteps
    dsimp only
    split
    · exact ih _ (VeEnv.boresWf_issue _ _ _ _ _ _ _ hs)
    · exact hs
@[simp] theorem State.boresWf_endBody (s : State) (core e : Nat) (v : VeEnv) (m : VeRun) (float : Bool) (hs : BoresWf
    (boresOf m.s.cores)) : BoresWf (boresOf (s.endBody core e v m float).cores) := by
  unfold State.endBody
  (repeat' split) <;> simp [hs]
@[simp] theorem State.boresWf_runBody (s : State) (core e : Nat) (c : Cmd) (b : VeBody) (first : Bool) (errs :
    BoreErrs) (hs : BoresWf (boresOf s.cores)) : BoresWf (boresOf (s.runBody core e c b first errs).cores) := by
  unfold State.runBody
  dsimp only
  (repeat' split) <;> simp [hs]

end Sys2Proof.Machine

/-! PROOFS. What every command keeps: the queue of waiting commands and the canonical form of memory. -/

namespace Sys2Proof.Machine
open Sys2Proof.Safety
/-- A command's answer is a next state with the property. -/
def Answers (o : Host.Outcome State Fault Refusal) (P : State → Prop) : Prop := ∃ t, o = .next t ∧ P t

@[simp] theorem answers_next (t : State) (P : State → Prop) : Answers (.next t) P ↔ P t :=
  ⟨fun ⟨_, h, hp⟩ => by cases h; exact hp, fun h => ⟨t, rfl, h⟩⟩

/-- What every command keeps of the state that it finds: the queue of waiting commands, and the canonical form of memory. -/
structure Keeps (s t : State) : Prop where
  pending : t.pending = s.pending
  hbm : Memory.wf s.mem.hbm = true → Memory.wf t.mem.hbm = true
  bore : BoresWf (boresOf s.cores) → BoresWf (boresOf t.cores)

@[simp] theorem keeps_iff (s t : State) : Keeps s t ↔ t.pending = s.pending
    ∧ (Memory.wf s.mem.hbm = true → Memory.wf t.mem.hbm = true) ∧ (BoresWf (boresOf s.cores) → BoresWf (boresOf t.cores)) :=
  ⟨fun ⟨hp, hm, hb⟩ => ⟨hp, hm, hb⟩, fun ⟨hp, hm, hb⟩ => ⟨hp, hm, hb⟩⟩

theorem Keeps.refl (s : State) : Keeps s s := ⟨rfl, id, id⟩
theorem Keeps.trans {s t u : State} (h : Keeps s t) (k : Keeps t u) : Keeps s u :=
  ⟨k.pending.trans h.pending, k.hbm ∘ h.hbm, k.bore ∘ h.bore⟩

/-- Read backwards: what the last operation keeps, and then what those before it keep. -/
theorem Keeps.comp {s t u : State} (k : Keeps t u) (h : Keeps s t) : Keeps s u := h.trans k

theorem Keeps.foldl {β : Type} {f : State → β → State} (h : ∀ t x, Keeps t (f t x)) (l : List β) (s : State) : Keeps s (l.foldl f s) := by
  induction l generalizing s with
  | nil => exact Keeps.refl s
  | cons x l ih => exact (h s x).trans (ih _)

theorem Keeps.of_frame {s t : State} (hp : t.pending = s.pending) (hm : t.mem = s.mem)
    (hb : boresOf t.cores = boresOf s.cores) : Keeps s t :=
  ⟨hp, by rw [hm]; exact id, by rw [hb]; exact id⟩

@[simp] theorem State.next_fails (s : State) (code : Word16) : (s.fails code).next = s := rfl

@[simp] theorem State.pending_foldl {β : Type} (f : State → β → State) (l : List β) (s : State)
    (h : ∀ t x, (f t x).pending = t.pending) : (l.foldl f s).pending = s.pending := foldl_proj State.pending f h l s
@[simp] theorem State.mem_foldl {β : Type} (f : State → β → State) (l : List β) (s : State)
    (h : ∀ t x, (f t x).mem = t.mem) : (l.foldl f s).mem = s.mem := foldl_proj State.mem f h l s

theorem State.keeps_apply (s : State) (k : Kind) (f : State → Req → Caller → State) (h : ∀ t r c, Keeps t (f t r c)) :
    Keeps s (s.apply k f) := by
  unfold State.apply
  repeat' split
  · exact Keeps.refl s
  · exact Keeps.refl s
  · dsimp only
    split
    · exact .of_frame (by simp) (by simp) (by simp)
    · refine Keeps.trans (t := { s with clotha := { s.clotha with queue := _ } }) ?_ (h _ _ _)
      exact .of_frame rfl rfl rfl

theorem State.keeps_act (s : State) (i j : Nat) (f : State → Caller → Entry → ActRes) (h : ∀ t c e, Keeps t (f t c e).next) :
    Keeps s (s.act i j f) := by
  refine s.keeps_apply _ _ (fun t r c => ?_)
  have hno (code : Word16) (body : List Byte) : Keeps t (t.respond r code body []) := .of_frame (by simp) (by simp) (by simp)
  split
  · next e _ =>
    dsimp only
    split
    · exact hno _ _
    · exact hno _ _
    · split
      · exact hno _ _
      · refine (h t c e).trans ?_
        split <;> exact .of_frame (by simp) (by simp) (by simp)
  · exact hno _ _

theorem Keeps.next_ite {s : State} {p : Prop} [Decidable p] {x y : ActRes} (hx : Keeps s x.next) (hy : Keeps s y.next) :
    Keeps s (if p then x else y).next := by
  split
  · exact hx
  · exact hy

theorem Keeps.after {s t : State} (h : Keeps s t) (s0 : State) (core : Nat) : Keeps s (State.after s0 t core) :=
  h.trans ⟨by simp, State.after_hbm s0 t core, by simp⟩

theorem State.keeps_of_linkMsg? {s t : State} {l : Nat} {m : LinkMsg} (h : s.linkMsg? l m = some t) : Keeps s t := by
  unfold State.linkMsg? at h
  split at h
  · cases h
  · cases h
    exact .of_frame (by simp) (by simp) (by simp)

theorem State.keeps_of_fifoWait {s t : State} {port : Nat} {f : FifoFrame} (h : s.fifoWait port f = some t) : Keeps s t := by
  unfold State.fifoWait at h
  dsimp only at h
  split_ifs at h <;> cases h <;> exact .of_frame (by simp) (by simp) (by simp)

theorem State.keeps_of_enrolTenant {s t : State} {v : List Byte} (h : s.enrolTenant v = some t) : Keeps s t := by
  unfold State.enrolTenant at h
  dsimp only at h
  split at h
  · cases h
    exact .of_frame rfl rfl rfl
  · obtain ⟨n, _, rfl⟩ := Option.map_eq_some_iff.mp h
    exact .of_frame rfl rfl rfl

theorem State.keeps_of_recreatePart {s t : State} {n : Nat} {r : PartRec} {ch : PartChoice} (h : s.recreatePart n r ch = some t) :
    Keeps s t := by
  unfold State.recreatePart at h
  dsimp only at h
  split at h
  · cases h
  · cases h
    exact ⟨by simp, fun hm => State.placePart_hbm _ _ _ _ _ hm, by simp⟩

theorem State.keeps_of_recreateParts {s t : State} {l : List (Nat × PartChoice)} {ps : List (Nat × PartRec)}
    (h : s.recreateParts l ps = some t) : Keeps s t := by
  induction ps generalizing s with
  | nil => cases h; exact Keeps.refl _
  | cons p ps ih =>
    obtain ⟨n, r⟩ := p
    unfold State.recreateParts at h
    split at h
    · cases h
    · split at h
      · cases h
      · next u hu => exact (State.keeps_of_recreatePart hu).trans (ih h)

theorem State.keeps_logFw (s : State) (event code : Nat) (l : List (Nat × Int)) : Keeps s (s.logFw event code l) := ⟨rfl, id, id⟩

theorem State.keeps_bootFirmware (s : State) (check : Nat → ImageCheck) (j : Bool) (l : List (Nat × PartChoice)) :
    Keeps s (s.bootFirmware check j l) := by
  unfold State.bootFirmware
  dsimp only
  split
  · exact .of_frame (by simp) (by simp) (by simp)
  · split
    · exact Keeps.refl s
    · next u hu =>
      have hpick : Keeps s ((s.pickImage check s.bootOrder).1.restoreValues j) := .of_frame (by simp) (by simp) (by simp)
      have hlost : Keeps u (u.streams.lost.foldl (fun (t : State) (i : Nat) => t.logFw 0x2007 0 [(16, (i : Int))])
          u.shutdownEvent.startLinks) :=
        Keeps.trans (t := u.shutdownEvent.startLinks) (.of_frame (by simp) (by simp) (by simp))
          (Keeps.foldl (fun t i => t.keeps_logFw ..) _ _)
      exact ((hpick.trans (State.keeps_of_recreateParts hu)).trans hlost).trans (.of_frame rfl rfl rfl)

theorem State.keeps_rejectLoad (s : State) (slot : Nat) (m : ModelSlot) (code : Word16) : Keeps s (s.rejectLoad slot m code).next :=
  .of_frame rfl rfl rfl

theorem State.keeps_openStream (s : State) (ch : OpenChoice) (v : List Byte) : Keeps s (s.openStream ch v).next := by
  unfold State.openStream
  split
  · dsimp only
    split <;> exact .of_frame (by simp) (by simp) (by simp)
  · dsimp only
    split
    · exact Keeps.refl s
    · exact .of_frame (by simp) (by simp) (by simp)

theorem State.keeps_verdict {s t : State} (core e : Nat) (w : WorkItem) (res : CheckRes) (st : Word16) (next : State → Word16 → State)
    (hnext : ∀ u st, Keeps u (next u st)) (h : Keeps s t) : Keeps s (t.verdict core e w res st next) := by
  have hun : Keeps t (t.unresolved (engNo core e) w) := by simp [State.unresolved]
  refine h.trans ?_
  unfold State.verdict
  split
  · split
    · exact hun.trans (hnext _ _)
    · simp
  · exact hnext _ _

theorem State.keeps_pairDone (s : State) (core : Nat) (c : Cmd) (w : Walk) (q : PairRef) : Keeps s (s.pairDone core c w q) :=
  ⟨by simp, by simp, s.boresWf_pairDone core c w q⟩

theorem State.keeps_markWalk (s : State) (core ctx : Nat) : Keeps s (s.markWalk core ctx) :=
  .of_frame (by simp) (by simp) (by simp)
theorem State.keeps_modWalk (s : State) (core : Nat) (c : Cmd) (f : Walk → Option Walk) : Keeps s (s.modWalk core c f) :=
  .of_frame (by simp) (by simp) (by simp)
theorem State.keeps_pairArrived (s : State) (core : Nat) (c : Cmd) (w : Walk) (q : PairRef) (l : Nat) :
    Keeps s (s.pairArrived core c w q l) := ⟨by simp, s.pairArrived_hbm core c w q l, by simp +contextual⟩
theorem State.keeps_markCore (s : State) (c : Nat) : Keeps s (s.markCore c) := .of_frame (by simp) (by simp) (by simp)
theorem State.keeps_kvCount_logEvent (s : State) (part i a b c d : Nat) (l : List (Nat × Int)) :
    Keeps s ((s.kvCount part i).logEvent a b c d l) := ⟨rfl, id, id⟩
theorem State.keeps_pairRead (s : State) (l part ctx off dest n : Nat) : Keeps s (s.pairRead l part ctx off dest n) :=
  ⟨by simp, s.pairRead_hbm l part ctx off dest n, by simp⟩
theorem State.keeps_pieceWrite (s : State) (core : Nat) (c : Channel) (q : Piece) : Keeps s (s.pieceWrite core c q) :=
  ⟨by simp, s.pieceWrite_hbm core c q, s.boresWf_pieceWrite core c q⟩
theorem State.keeps_modChan (s : State) (core n : Nat) (f : Channel → Channel) : Keeps s (s.modChan core n f) := by simp
theorem State.keeps_freeTags (s : State) (core n : Nat) : Keeps s (s.freeTags core n) := by simp
theorem State.keeps_dstFilled (s : State) (core : Nat) (c : Channel) (q : Nat) : Keeps s (s.dstFilled core c q) := by simp
theorem State.keeps_progress (s : State) (core unit : Nat) : Keeps s (s.progress core unit) := by simp
theorem State.keeps_endPass (s : State) (core n : Nat) : Keeps s (s.endPass core n) := by simp
theorem Keeps.ite {s t u : State} {p : Prop} [Decidable p] (ht : Keeps s t) (hu : Keeps s u) : Keeps s (if p then t else u) := by
  split
  · exact ht
  · exact hu

theorem State.keeps_linkDiscard (s : State) (l : Nat) (crc : Bool) : Keeps s (s.linkDiscard l crc) := by simp
theorem State.keeps_linkReplay (s : State) (l n : Nat) : Keeps s (s.linkReplay l n) :=
  ⟨by simp, s.linkReplay_hbm l n, s.boresWf_linkReplay l n⟩
theorem State.keeps_modEngine (s : State) (core e : Nat) (f : Engine → Engine) : Keeps s (s.modEngine core e f) := by simp
theorem State.keeps_issueExt (s : State) (core e : Nat) (rows : List (List (List Nat))) : Keeps s (s.issueExt core e rows) := by
  simp
theorem keeps_trip (s : State) (trips : List (Nat × Nat × Int)) : Keeps s (trip s trips) :=
  ⟨by simp, trip_hbm s trips, by simp +contextual⟩
theorem keeps_tryStart (s : State) : Keeps s (tryStart s) := ⟨by simp, tryStart_hbm s, by simp +contextual⟩
theorem State.keeps_markCause (s : State) (n : Nat) (f : Nat → StreamCtx → Bool) : Keeps s (s.markCause n f) := by simp

theorem State.keeps_resetCores (s : State) (l : List Nat) : Keeps s (l.foldl State.resetCore s) :=
  Keeps.foldl (fun t c => by simp +contextual) l s

theorem keeps_warn (s : State) (key b : Nat) (standing fw : Bool) (event : Nat) (detail : List (Nat × Int)) :
    Keeps s (warn s key b standing fw event detail) := by
  simp

theorem execMediaPacket_keeps (port : Fin 2) (pkt : RxPacket) (authOk : Bool) (s : State) : Answers (execMediaPacket port pkt
    authOk s) (Keeps s) := by
  unfold execMediaPacket
  rw [answers_next]
  split
  · split
    · split
      · exact Keeps.refl s
      · dsimp only
        split
        · exact .of_frame (by simp) (by simp) (by simp)
        · split
          · exact (State.keeps_of_fifoWait ‹_›).comp (.of_frame (by simp) (by simp) (by simp))
          · exact ⟨by simp, by simp +contextual [State.takeMedia_hbm], by simp⟩
    · exact Keeps.refl s
  · exact Keeps.refl s

theorem execUnmatchedDatagram_keeps (port : Fin 2) (pkt : RxPacket) (s : State) : Answers (execUnmatchedDatagram port pkt s)
    (Keeps s) := by
  unfold execUnmatchedDatagram
  (repeat' split) <;> simp +contextual

theorem execFrameReceiveDrop_keeps (port : Fin 2) (why : FrameFault) (s : State) : Answers (execFrameReceiveDrop port why s)
    (Keeps s) := by
  unfold execFrameReceiveDrop
  (repeat' split) <;> simp +contextual

theorem execRxFifoWaitTimeout_keeps (port : Fin 2) (s : State) : Answers (execRxFifoWaitTimeout port s) (Keeps s) := by
  unfold execRxFifoWaitTimeout
  (repeat' split) <;> simp +contextual

theorem execPoolBufferGrant_keeps (pool : PoolSel) (s : State) : Answers (execPoolBufferGrant pool s) (Keeps s) := by
  unfold execPoolBufferGrant
  dsimp only
  (repeat' split) <;> simp +contextual [State.after_hbm, State.grantFrame_hbm]

theorem execArpRequest_keeps (port : Fin 2) (senderMac : BitVec 48) (_senderIp targetIp : BitVec 32) (s : State) : Answers
    (execArpRequest port senderMac _senderIp targetIp s) (Keeps s) := by
  unfold execArpRequest
  dsimp only
  (repeat' split) <;> simp +contextual

theorem execNeighbourSolicitation_keeps (port : Fin 2) (senderMac : BitVec 48) (_senderIp targetIp : IpAddr) (s : State) :
    Answers (execNeighbourSolicitation port senderMac _senderIp targetIp s) (Keeps s) := by
  unfold execNeighbourSolicitation
  dsimp only
  (repeat' split) <;> simp +contextual

theorem execIcmpEchoRequest_keeps (port : Fin 2) (senderIp targetIp : IpAddr) (data : List Byte) (s : State) : Answers
    (execIcmpEchoRequest port senderIp targetIp data s) (Keeps s) := by
  unfold execIcmpEchoRequest
  dsimp only
  (repeat' split) <;> simp +contextual

theorem execPauseFrame_keeps (port : Fin 2) (holdNs : Nat) (_pfc : Bool) (s : State) : Answers (execPauseFrame port holdNs _pfc
    s) (Keeps s) := by
  unfold execPauseFrame
  dsimp only
  (repeat' split) <;> simp +contextual

theorem execPauseExpiry_keeps (port : Fin 2) (s : State) : Answers (execPauseExpiry port s) (Keeps s) := by
  unfold execPauseExpiry
  dsimp only
  (repeat' split) <;> simp +contextual

theorem execPortLinkChange_keeps (port : Fin 2) (up : Bool) (s : State) : Answers (execPortLinkChange port up s) (Keeps s) := by
  unfold execPortLinkChange
  dsimp only
  (repeat' split) <;> simp +contextual

theorem execChunkCloseAtBoundary_keeps (stream : Fin 16384) (s : State) : Answers (execChunkCloseAtBoundary stream s) (Keeps s)
    := by
  unfold execChunkCloseAtBoundary
  (repeat' split) <;> simp +contextual [State.closeChunks_hbm]

theorem execLateLimitExpiry_keeps (stream : Fin 16384) (s : State) : Answers (execLateLimitExpiry stream s) (Keeps s) := by
  unfold execLateLimitExpiry
  (repeat' split) <;> simp +contextual [State.closeChunks_hbm]

theorem execStepEligible_keeps (stream : Fin 16384) (s : State) : Answers (execStepEligible stream s) (Keeps s) := by
  unfold execStepEligible
  dsimp only
  (repeat' split) <;> simp +contextual [State.after_hbm]

theorem execRoundForm_keeps (core : Fin 8) (s : State) : Answers (execRoundForm core s) (Keeps s) := by
  unfold execRoundForm
  dsimp only
  (repeat' split) <;> simp +contextual [State.after_hbm, State.makeRound_hbm]

theorem execRoundYield_keeps (core : Fin 8) (s : State) : Answers (execRoundYield core s) (Keeps s) := by
  unfold execRoundYield
  (repeat' split) <;> simp +contextual [State.after_hbm, State.yieldRound_hbm]

theorem execRoundEndStore_keeps (core : Fin 8) (prep : Fin 4) (value : Word64) (s : State) : Answers (execRoundEndStore core
    prep value s) (Keeps s) := by
  unfold execRoundEndStore
  dsimp only
  (repeat' split) <;> simp +contextual [State.after_hbm]

theorem execCheckpointReport_keeps (core : Fin 8) (s : State) : Answers (execCheckpointReport core s) (Keeps s) := by
  unfold execCheckpointReport
  dsimp only
  (repeat' split) <;> simp +contextual [State.after_hbm, State.hbmWrite_hbm]

theorem execChunkCommit_keeps (stream : Fin 16384) (s : State) : Answers (execChunkCommit stream s) (Keeps s) := by
  unfold execChunkCommit
  dsimp only
  (repeat' split) <;> simp +contextual

theorem execResultDelivered_keeps (port : Fin 2) (s : State) : Answers (execResultDelivered port s) (Keeps s) := by
  unfold execResultDelivered
  dsimp only
  (repeat' split) <;> simp +contextual

theorem execDeadlineExpiry_keeps (stream : Fin 16384) (s : State) : Answers (execDeadlineExpiry stream s) (Keeps s) := by
  unfold execDeadlineExpiry
  dsimp only
  (repeat' split) <;> simp +contextual

theorem execStreamContextFree_keeps (stream : Fin 16384) (s : State) : Answers (execStreamContextFree stream s) (Keeps s) := by
  unfold execStreamContextFree
  simp +contextual

theorem execStreamOpen_keeps (choice : OpenChoice) (s : State) : Answers (execStreamOpen choice s) (Keeps s) := by
  refine (answers_next _ _).2 (s.keeps_act _ _ _ (fun t c e => ?_))
  split
  · exact Keeps.refl t
  · exact t.keeps_openStream choice e.value

theorem execStreamClose_keeps (s : State) : Answers (execStreamClose s) (Keeps s) := by
  refine (answers_next _ _).2 (s.keeps_act _ _ _ (fun t c e => ?_))
  dsimp only
  (repeat' split) <;> simp +contextual

theorem execClothaRequestReceive_keeps (port : Fin 2) (srcAddr : IpAddr) (srcPort : Word16) (msg : List Byte) (tagOk : Bool) (s
    : State) : Answers (execClothaRequestReceive port srcAddr srcPort msg tagOk s) (Keeps s) := by
  unfold execClothaRequestReceive
  rw [answers_next]
  split
  · exact Keeps.refl s
  · dsimp only
    split
    · exact .of_frame (by simp) (by simp) (by simp)
    · split
      · exact (State.keeps_of_fifoWait ‹_›).comp (.of_frame (by simp) (by simp) (by simp))
      · exact .of_frame (by simp) (by simp) (by simp)

theorem execPing_keeps (s : State) : Answers (execPing s) (Keeps s) := by
  refine (answers_next _ _).2 (s.keeps_apply _ _ (fun t r c => ?_))
  simp +contextual

theorem execRead_keeps (s : State) : Answers (execRead s) (Keeps s) := by
  refine (answers_next _ _).2 (s.keeps_apply _ _ (fun t r c => ?_))
  simp +contextual

theorem execReadTable_keeps (s : State) : Answers (execReadTable s) (Keeps s) := by
  refine (answers_next _ _).2 (s.keeps_apply _ _ (fun t r c => ?_))
  dsimp only
  (repeat' split) <;> simp +contextual

theorem execInfo_keeps (s : State) : Answers (execInfo s) (Keeps s) := by
  refine (answers_next _ _).2 (s.keeps_apply _ _ (fun t r c => ?_))
  simp +contextual

theorem execWrite_keeps (s : State) : Answers (execWrite s) (Keeps s) := by
  refine (answers_next _ _).2 (s.keeps_apply _ _ (fun t r c => ?_))
  simp +contextual [State.applyWrite_hbm]

theorem execBulkReadDump_keeps (s : State) : Answers (execBulkReadDump s) (Keeps s) := by
  refine (answers_next _ _).2 (s.keeps_apply _ _ (fun t r c => ?_))
  dsimp only
  (repeat' split) <;> simp +contextual

theorem execBulkReadEventLog_keeps (s : State) : Answers (execBulkReadEventLog s) (Keeps s) := by
  refine (answers_next _ _).2 (s.keeps_apply _ _ (fun t r c => ?_))
  dsimp only
  (repeat' split) <;> simp +contextual

theorem execBulkReadFirmwareStaging_keeps (s : State) : Answers (execBulkReadFirmwareStaging s) (Keeps s) := by
  refine (answers_next _ _).2 (s.keeps_apply _ _ (fun t r c => ?_))
  dsimp only
  (repeat' split) <;> simp +contextual

theorem execBulkWriteFirmwareStaging_keeps (s : State) : Answers (execBulkWriteFirmwareStaging s) (Keeps s) := by
  refine (answers_next _ _).2 (s.keeps_apply _ _ (fun t r c => ?_))
  dsimp only
  (repeat' split) <;> simp +contextual

theorem execBulkWritePackageStaging_keeps (segment : Option SegmentDone) (s : State) : Answers (execBulkWritePackageStaging
    segment s) (Keeps s) := by
  refine (answers_next _ _).2 (s.keeps_apply _ _ (fun t r c => ?_))
  dsimp only
  (repeat' split) <;> simp +contextual [State.placeSegment_hbm]

theorem execFlashCommitDone_keeps (s : State) : Answers (execFlashCommitDone s) (Keeps s) := by
  unfold execFlashCommitDone
  simp +contextual

theorem execPartitionCreate_keeps (choice : PartChoice) (s : State) : Answers (execPartitionCreate choice s) (Keeps s) := by
  refine (answers_next _ _).2 (s.keeps_act _ _ _ (fun t c e => ?_))
  dsimp only
  (repeat' split) <;> simp +contextual [State.createPart_hbm]

theorem execPartitionReady_keeps (p : Fin 8) (s : State) : Answers (execPartitionReady p s) (Keeps s) := by
  unfold execPartitionReady
  dsimp only
  (repeat' split) <;> simp +contextual

theorem execPartitionDestroy_keeps (s : State) : Answers (execPartitionDestroy s) (Keeps s) := by
  refine (answers_next _ _).2 (s.keeps_act _ _ _ (fun t c e => ?_))
  dsimp only
  (repeat' split) <;> simp +contextual [State.destroyPart_hbm]

theorem execJobSubmit_keeps (s : State) : Answers (execJobSubmit s) (Keeps s) := by
  refine (answers_next _ _).2 (s.keeps_act _ _ _ (fun t c e => ?_))
  dsimp only
  (repeat' split) <;> simp +contextual

theorem execJobCancel_keeps (s : State) : Answers (execJobCancel s) (Keeps s) := by
  refine (answers_next _ _).2 (s.keeps_act _ _ _ (fun t c e => ?_))
  dsimp only
  (repeat' split) <;> simp +contextual

theorem execMeRelease_keeps (s : State) : Answers (execMeRelease s) (Keeps s) := by
  refine (answers_next _ _).2 (s.keeps_act _ _ _ (fun t c e => ?_))
  dsimp only
  simp +contextual

theorem execResetCore_keeps (sc : Fin 4) (s : State) : Answers (execResetCore sc s) (Keeps s) := by
  refine (answers_next _ _).2 (s.keeps_act _ _ _ (fun t c e => ?_))
  dsimp only
  (repeat' split) <;> simp +contextual

theorem execDumpRelease_keeps (s : State) : Answers (execDumpRelease s) (Keeps s) := by
  refine (answers_next _ _).2 (s.keeps_act _ _ _ (fun t c e => ?_))
  dsimp only
  (repeat' split) <;> simp +contextual

theorem execRestoreDefaults_keeps (s : State) : Answers (execRestoreDefaults s) (Keeps s) := by
  refine (answers_next _ _).2 (s.keeps_act _ _ _ (fun t c e => ?_))
  dsimp only
  (repeat' split) <;> simp +contextual

theorem execKeyEnrol_keeps (check : EnrolCheck) (s : State) : Answers (execKeyEnrol check s) (Keeps s) := by
  refine (answers_next _ _).2 (s.keeps_act _ _ _ (fun t c e => ?_))
  (repeat' split) <;> simp +contextual

theorem execKeyRevoke_keeps (s : State) : Answers (execKeyRevoke s) (Keeps s) := by
  refine (answers_next _ _).2 (s.keeps_act _ _ _ (fun t c e => ?_))
  dsimp only
  (repeat' split) <;> simp +contextual

theorem execDecommission_keeps (s : State) : Answers (execDecommission s) (Keeps s) := by
  refine (answers_next _ _).2 (s.keeps_act _ _ _ (fun t c e => ?_))
  (repeat' split) <;> simp +contextual [State.decommission_hbm]

theorem execTenantEnrol_keeps (s : State) : Answers (execTenantEnrol s) (Keeps s) := by
  refine (answers_next _ _).2 (s.keeps_act _ _ _ (fun t c e => ?_))
  repeat' split
  · exact Keeps.refl t
  · exact Keeps.refl t
  · exact State.keeps_of_enrolTenant ‹_›

theorem execTenantRemove_keeps (s : State) : Answers (execTenantRemove s) (Keeps s) := by
  refine (answers_next _ _).2 (s.keeps_act _ _ _ (fun t c e => ?_))
  dsimp only
  (repeat' split) <;> simp +contextual

theorem execFwVerify_keeps (check : ImageCheck) (s : State) : Answers (execFwVerify check s) (Keeps s) := by
  refine (answers_next _ _).2 (s.keeps_act _ _ _ (fun t c e => ?_))
  dsimp only
  (repeat' split) <;> simp +contextual

theorem execFwActivate_keeps (s : State) : Answers (execFwActivate s) (Keeps s) := by
  refine (answers_next _ _).2 (s.keeps_act _ _ _ (fun t c e => ?_))
  dsimp only
  (repeat' split) <;> simp +contextual

theorem execFwActivationTimeout_keeps (s : State) : Answers (execFwActivationTimeout s) (Keeps s) := by
  unfold execFwActivationTimeout
  dsimp only
  (repeat' split) <;> simp +contextual

theorem execFwFloorRaise_keeps (s : State) : Answers (execFwFloorRaise s) (Keeps s) := by
  refine (answers_next _ _).2 (s.keeps_act _ _ _ (fun t c e => ?_))
  dsimp only
  (repeat' split) <;> simp +contextual

theorem execModelStage_keeps (s : State) : Answers (execModelStage s) (Keeps s) := by
  refine (answers_next _ _).2 (s.keeps_act _ _ _ (fun t c e => ?_))
  dsimp only
  (repeat' split) <;> simp +contextual

theorem execModelLoad_keeps (choice : LoadChoice) (s : State) : Answers (execModelLoad choice s) (Keeps s) := by
  refine (answers_next _ _).2 (s.keeps_act _ _ _ (fun t c e => ?_))
  dsimp only
  split
  · exact Keeps.refl t
  · exact Keeps.refl t
  · refine Keeps.next_ite (Keeps.refl t) ?_
    split
    · exact t.keeps_rejectLoad _ _ _
    · refine Keeps.next_ite (Keeps.refl t) (Keeps.next_ite ?_ (Keeps.refl t))
      simp +contextual

theorem execModelRemove_keeps (s : State) : Answers (execModelRemove s) (Keeps s) := by
  refine (answers_next _ _).2 (s.keeps_act _ _ _ (fun t c e => ?_))
  dsimp only
  (repeat' split) <;> simp +contextual

theorem execAttRequest_keeps (s : State) : Answers (execAttRequest s) (Keeps s) := by
  refine (answers_next _ _).2 (s.keeps_act _ _ _ (fun t c e => ?_))
  dsimp only
  (repeat' split) <;> simp +contextual

theorem execSrtpKeyWrite_keeps (s : State) : Answers (execSrtpKeyWrite s) (Keeps s) := by
  refine (answers_next _ _).2 (s.keeps_act _ _ _ (fun t c e => ?_))
  dsimp only
  (repeat' split) <;> simp +contextual

theorem execPpsEpochWrite_keeps (s : State) : Answers (execPpsEpochWrite s) (Keeps s) := by
  refine (answers_next _ _).2 (s.keeps_act _ _ _ (fun t c e => ?_))
  dsimp only
  (repeat' split) <;> simp +contextual

theorem execTimeSourceWrite_keeps (s : State) : Answers (execTimeSourceWrite s) (Keeps s) := by
  refine (answers_next _ _).2 (s.keeps_apply _ _ (fun t r c => ?_))
  simp +contextual [State.applyWrite_hbm]

theorem execAlertClear_keeps (s : State) : Answers (execAlertClear s) (Keeps s) := by
  refine (answers_next _ _).2 (s.keeps_act _ _ _ (fun t c e => ?_))
  dsimp only
  simp +contextual

theorem execPowerDrain_keeps (s : State) : Answers (execPowerDrain s) (Keeps s) := by
  refine (answers_next _ _).2 (s.keeps_act _ _ _ (fun t c e => ?_))
  dsimp only
  (repeat' split) <;> simp +contextual

theorem execDrainGraceExpiry_keeps (s : State) : Answers (execDrainGraceExpiry s) (Keeps s) := by
  unfold execDrainGraceExpiry
  dsimp only
  (repeat' split) <;> simp +contextual

theorem execTelemetrySample_keeps (map : Fin 16) (s : State) : Answers (execTelemetrySample map s) (Keeps s) := by
  unfold execTelemetrySample
  rw [answers_next]
  dsimp only
  repeat' split
  all_goals exact .of_frame (by simp) (by simp) (by simp)

theorem execMgmtRead_keeps (addr : Word32) (len : Nat) (s : State) : Answers (execMgmtRead addr len s) (Keeps s) := by
  unfold execMgmtRead
  (repeat' split) <;> simp +contextual

theorem execTelemetryWindowRead_keeps (map : Fin 16) (s : State) : Answers (execTelemetryWindowRead map s) (Keeps s) := by
  unfold execTelemetryWindowRead
  (repeat' split) <;> simp +contextual

theorem execMgmtWrite_keeps (addr : Word32) (bytes : List Byte) (s : State) : Answers (execMgmtWrite addr bytes s) (Keeps s) :=
    by
  unfold execMgmtWrite
  dsimp only
  (repeat' split) <;> simp +contextual

theorem execReadStatus_keeps (s : State) : Answers (execReadStatus s) (Keeps s) := by
  unfold execReadStatus
  dsimp only
  (repeat' split) <;> simp +contextual

theorem execWriteEnable_keeps (s : State) : Answers (execWriteEnable s) (Keeps s) := by
  unfold execWriteEnable
  dsimp only
  (repeat' split) <;> simp +contextual

theorem execMgmtOtherCommand_keeps (_command _extension : Byte) (s : State) : Answers (execMgmtOtherCommand _command _extension
    s) (Keeps s) := by
  unfold execMgmtOtherCommand
  dsimp only
  (repeat' split) <;> simp +contextual

theorem execReqGo_keeps (tagOk : Bool) (s : State) : Answers (execReqGo tagOk s) (Keeps s) := by
  unfold execReqGo
  dsimp only
  (repeat' split) <;> simp +contextual

theorem execRespAck_keeps (s : State) : Answers (execRespAck s) (Keeps s) := by
  unfold execRespAck
  dsimp only
  (repeat' split) <;> simp +contextual

theorem execPtpMessage_keeps (port : Fin 2) (transport : PtpTransport) (msg : PtpMsg) (s : State) : Answers (execPtpMessage port
    transport msg s) (Keeps s) := by
  unfold execPtpMessage
  dsimp only
  (repeat' split) <;> simp +contextual

theorem execPpsInEdge_keeps (s : State) : Answers (execPpsInEdge s) (Keeps s) := by
  unfold execPpsInEdge
  dsimp only
  (repeat' split) <;> simp +contextual

theorem execTimeSourceTimeout_keeps (s : State) : Answers (execTimeSourceTimeout s) (Keeps s) := by
  unfold execTimeSourceTimeout
  dsimp only
  (repeat' split) <;> simp +contextual

theorem execHoldoverExpiry_keeps (s : State) : Answers (execHoldoverExpiry s) (Keeps s) := by
  unfold execHoldoverExpiry
  dsimp only
  (repeat' split) <;> simp +contextual

theorem execPpsOutPulse_keeps (s : State) : Answers (execPpsOutPulse s) (Keeps s) := by
  unfold execPpsOutPulse
  dsimp only
  (repeat' split) <;> simp +contextual

theorem execDoorbell_keeps (core : Fin 8) (prep : Fin 4) (value : Word64) (s : State) : Answers (execDoorbell core prep value s)
    (Keeps s) := by
  unfold execDoorbell
  dsimp only
  (repeat' split) <;> simp +contextual [State.after_hbm]

theorem execCommandDispatch_keeps (core : Fin 8) (s : State) : Answers (execCommandDispatch core s) (Keeps s) := by
  unfold execCommandDispatch
  dsimp only
  (repeat' split) <;> simp +contextual [State.after_hbm, State.reject_hbm]

theorem execNop_keeps (ctx : Nat) (s : State) : Answers (execNop ctx s) (Keeps s) := by
  unfold execNop
  (repeat' split) <;> simp +contextual

theorem execMatmul_keeps (ctx : Nat) (s : State) : Answers (execMatmul ctx s) (Keeps s) := by
  unfold execMatmul
  (repeat' split) <;> simp +contextual [State.after_hbm]

theorem execMatmulGather_keeps (ctx : Nat) (s : State) : Answers (execMatmulGather ctx s) (Keeps s) := by
  unfold execMatmulGather
  simp +contextual [State.walkStage_hbm]

theorem execMatmulScore_keeps (ctx : Nat) (s : State) : Answers (execMatmulScore ctx s) (Keeps s) := by
  unfold execMatmulScore
  simp +contextual [State.walkStage_hbm]

theorem execFence_keeps (ctx : Nat) (s : State) : Answers (execFence ctx s) (Keeps s) := by
  unfold execFence
  (repeat' split) <;> simp +contextual

theorem execSemWait_keeps (ctx : Nat) (s : State) : Answers (execSemWait ctx s) (Keeps s) := by
  unfold execSemWait
  dsimp only
  (repeat' split) <;> simp +contextual

theorem execSemSignal_keeps (ctx : Nat) (s : State) : Answers (execSemSignal ctx s) (Keeps s) := by
  unfold execSemSignal
  (repeat' split) <;> simp +contextual

theorem execSemaphoreOpApply_keeps (core : Fin 8) (index : Fin 4096) (s : State) : Answers (execSemaphoreOpApply core index s)
    (Keeps s) := by
  unfold execSemaphoreOpApply
  dsimp only
  simp +contextual [State.after_hbm]

theorem execSemWaitTimeout_keeps (ctx : Nat) (s : State) : Answers (execSemWaitTimeout ctx s) (Keeps s) := by
  unfold execSemWaitTimeout
  dsimp only
  (repeat' split) <;> simp +contextual [State.after_hbm, State.reject_hbm]

theorem execCreditAcquire_keeps (ctx : Nat) (s : State) : Answers (execCreditAcquire ctx s) (Keeps s) := by
  unfold execCreditAcquire
  dsimp only
  (repeat' split) <;> simp +contextual

theorem execCreditRelease_keeps (ctx : Nat) (s : State) : Answers (execCreditRelease ctx s) (Keeps s) := by
  unfold execCreditRelease
  dsimp only
  (repeat' split) <;> simp +contextual

theorem execCreditGrant_keeps (target : Fin 8) (handle : Fin 256) (s : State) : Answers (execCreditGrant target handle s) (Keeps
    s) := by
  unfold execCreditGrant
  rw [answers_next]
  split
  · exact Keeps.refl s
  · split
    · exact Keeps.refl s
    · dsimp only
      split
      · exact Keeps.refl s
      · split
        · exact Keeps.after (.of_frame (by simp) (by simp) (by simp)) s target
        · split <;> exact .of_frame (by simp) (by simp) (by simp)

theorem execCreditTimeout_keeps (ctx : Nat) (s : State) : Answers (execCreditTimeout ctx s) (Keeps s) := by
  unfold execCreditTimeout
  dsimp only
  (repeat' split) <;> simp +contextual

theorem execStreamStart_keeps (ctx : Nat) (s : State) : Answers (execStreamStart ctx s) (Keeps s) := by
  unfold execStreamStart
  dsimp only
  (repeat' split) <;> simp +contextual [State.after_hbm, State.rejectRunning_hbm]

theorem execStreamRearm_keeps (ctx : Nat) (s : State) : Answers (execStreamRearm ctx s) (Keeps s) := by
  unfold execStreamRearm
  (repeat' split) <;> simp +contextual [State.after_hbm, State.rearm_hbm]

theorem execStreamStop_keeps (ctx : Nat) (s : State) : Answers (execStreamStop ctx s) (Keeps s) := by
  unfold execStreamStop
  (repeat' split) <;> simp +contextual [State.after_hbm, State.rearm_hbm]

theorem execVecRun_keeps (ctx : Nat) (s : State) : Answers (execVecRun ctx s) (Keeps s) := by
  unfold execVecRun
  (repeat' split) <;> simp +contextual [State.after_hbm]

theorem execCheckpoint_keeps (ctx : Nat) (s : State) : Answers (execCheckpoint ctx s) (Keeps s) := by
  unfold execCheckpoint
  dsimp only
  (repeat' split) <;> simp +contextual

theorem execCommandComplete_keeps (ctx : Nat) (s : State) : Answers (execCommandComplete ctx s) (Keeps s) := by
  unfold execCommandComplete
  rw [answers_next]
  dsimp only
  repeat' split
  · exact Keeps.refl s
  · exact Keeps.refl s
  · exact Keeps.refl s
  · refine Keeps.after ⟨by simp, fun hs => ?_, by simp⟩ s _
    exact State.issueFlushes_hbm _ _ _ (State.complete_hbm _ _ _ _ hs)

theorem execStealGrant_keeps (core : Fin 8) (engine : Fin 16) (s : State) : Answers (execStealGrant core engine s) (Keeps s) :=
    by
  unfold execStealGrant
  dsimp only
  (repeat' split) <;> simp +contextual [State.after_hbm]

theorem execWorkItemStart_keeps (core : Fin 8) (engine : Fin 16) (s : State) : Answers (execWorkItemStart core engine s) (Keeps
    s) := by
  unfold execWorkItemStart
  dsimp only
  (repeat' split) <;> simp +contextual [State.after_hbm]

theorem execAccumulationDone_keeps (me : EngineId) (flips : AccFlips) (errs : BoreErrs) (s : State) : Answers
    (execAccumulationDone me flips errs s) (Keeps s) := by
  unfold execAccumulationDone
  rw [answers_next]
  dsimp only
  repeat' split
  · exact Keeps.refl s
  · exact Keeps.refl s
  · exact Keeps.refl s
  · exact Keeps.refl s
  · exact Keeps.after ⟨by simp, by simp, by simp⟩ s _
  · exact Keeps.after ⟨by simp, by simp, by simp⟩ s _
  · exact Keeps.after (State.keeps_verdict _ _ _ _ _ _ (fun u st => by simp) ⟨by simp, by simp, by simp⟩) s _

theorem execSegmentDone_keeps (me : EngineId) (flips addFlips : AccFlips) (errs : BoreErrs) (s : State) : Answers
    (execSegmentDone me flips addFlips errs s) (Keeps s) := by
  unfold execSegmentDone
  rw [answers_next]
  split
  · exact Keeps.refl s
  · split
    · exact Keeps.refl s
    · dsimp only
      split
      · exact Keeps.refl s
      · split
        · exact Keeps.after ⟨by simp, by simp, by simp⟩ s _
        · exact Keeps.after (State.keeps_verdict _ _ _ _ _ _ (fun u st => by simp) ⟨by simp, by simp, by simp⟩) s _

theorem execMismatchAgeOut_keeps (core : Fin 8) (engine : Fin 16) (s : State) : Answers (execMismatchAgeOut core engine s)
    (Keeps s) := by
  unfold execMismatchAgeOut
  simp +contextual

theorem execConversionDone_keeps (me : EngineId) (errs : BoreErrs) (s : State) : Answers (execConversionDone me errs s) (Keeps
    s) := by
  unfold execConversionDone
  dsimp only
  (repeat' split) <;> simp +contextual [State.after_hbm]

theorem execVeBodyEnd_keeps (me : EngineId) (errs : BoreErrs) (s : State) : Answers (execVeBodyEnd me errs s) (Keeps s) := by
  unfold execVeBodyEnd
  dsimp only
  (repeat' split) <;> simp +contextual [State.after_hbm]

theorem execCodebookLoadStart_keeps (core : Fin 8) (engine : Fin 16) (s : State) : Answers (execCodebookLoadStart core engine s)
    (Keeps s) := by
  unfold execCodebookLoadStart
  dsimp only
  (repeat' split) <;> simp +contextual [State.after_hbm]

theorem execCodebookLoadDone_keeps (me : EngineId) (errs : BoreErrs) (s : State) : Answers (execCodebookLoadDone me errs s)
    (Keeps s) := by
  unfold execCodebookLoadDone
  dsimp only
  (repeat' split) <;> simp +contextual [State.after_hbm, State.rejectRunning_hbm]

theorem execExtensionReadReturn_keeps (core : Fin 8) (engine : Fin 16) (ecc : EccResult) (s : State) : Answers
    (execExtensionReadReturn core engine ecc s) (Keeps s) := by
  unfold execExtensionReadReturn
  rw [answers_next]
  split
  · exact Keeps.refl s
  · split
    · split
      · exact Keeps.refl s
      · have hchecked (t : State) (a : Nat) : Keeps t (t.hbmChecked a ecc) := ⟨by simp, t.hbmChecked_hbm a ecc, by simp⟩
        refine Keeps.after ((State.keeps_progress ..).comp ?_) s core
        refine (State.keeps_issueExt ..).comp ((State.keeps_freeTags ..).comp ((State.keeps_modEngine ..).comp ?_))
        have hread (owned : Bool) (p a : Nat) : Keeps s (if owned then s.wcReads a 64 else s.rangeEvent p a) :=
          .ite ⟨by simp, s.wcReads_hbm a 64, by simp⟩ (.of_frame rfl rfl rfl)
        exact (hread ..).trans (.ite (.refl _) (hchecked ..))
    · exact Keeps.refl s

theorem execHandleEntryStore_keeps (core : Fin 8) (prep : Fin 4) (addr : Fin 8704) (value : Word64) (s : State) : Answers
    (execHandleEntryStore core prep addr value s) (Keeps s) := by
  unfold execHandleEntryStore
  dsimp only
  (repeat' split) <;> simp +contextual

theorem execPageFree_keeps (core : Fin 8) (prep : Fin 4) (value : Word64) (s : State) : Answers (execPageFree core prep value s)
    (Keeps s) := by
  unfold execPageFree
  dsimp only
  (repeat' split) <;> simp +contextual

theorem execPageRelease_keeps (p : Fin 8) (s : State) : Answers (execPageRelease p s) (Keeps s) := by
  unfold execPageRelease
  dsimp only
  (repeat' split) <;> simp +contextual [State.hbmWriteAs_hbm, State.kvCount_hbm]

theorem execPrepFence_keeps (_core : Fin 8) (_prep : Fin 4) (s : State) : Answers (execPrepFence _core _prep s) (Keeps s) := by
  unfold execPrepFence
  simp +contextual

theorem execLinkRequest_keeps (core : Fin 8) (prep : Fin 4) (tail : Word16) (s : State) : Answers (execLinkRequest core prep
    tail s) (Keeps s) := by
  unfold execLinkRequest
  rw [answers_next]
  split
  · exact Keeps.refl s
  · split
    · exact Keeps.refl s
    · split
      · exact Keeps.refl s
      · dsimp only
        split
        · exact Keeps.refl s
        · refine (Keeps.foldl (fun t l => ⟨by simp, t.sendAll_hbm l 1024, by simp⟩) _ _).comp ?_
          have htake (ring : Nat) (f : Nat → Nat) (l : List Nat) (part : Nat) :
              Keeps s (l.foldl (fun t i => t.takeRequest part ring (f i)) s) :=
            Keeps.foldl (fun t i => .of_frame (by simp) (by simp) (by simp)) l s
          exact (htake _ _ _ _).trans (.of_frame rfl rfl rfl)

theorem execLinkRequestComplete_keeps (p : Fin 8) (s : State) : Answers (execLinkRequestComplete p s) (Keeps s) := by
  unfold execLinkRequestComplete
  dsimp only
  (repeat' split) <;> simp +contextual [State.hbmWriteAs_hbm, State.kvCount_hbm]

theorem execSpillPairRequest_keeps (ctx : Nat) (s : State) : Answers (execSpillPairRequest ctx s) (Keeps s) := by
  unfold execSpillPairRequest
  rw [answers_next]
  have hzeros (c : Cmd) (land : Nat) (l : List (Nat × Nat)) : Keeps s (l.foldl (fun t x =>
      t.hbmWriteAs c.part (land + x.1) (List.replicate x.2 0) true) s) :=
    Keeps.foldl (fun t x => ⟨by simp, t.hbmWriteAs_hbm _ _ _ _, by simp⟩) l s
  split
  · exact Keeps.refl s
  · split
    · exact Keeps.refl s
    · split
      · exact Keeps.refl s
      · dsimp only
        split
        · refine Keeps.after ((State.keeps_pairDone ..).comp ?_) s _
          split
          · exact (State.keeps_markWalk ..).comp (hzeros _ _ _)
          · exact hzeros _ _ _
        · split
          · exact Keeps.refl s
          · exact (Keeps.foldl (fun t x => t.keeps_pairRead ..) _ _).comp (State.keeps_modWalk ..)

theorem execSpillWalkTimeout_keeps (ctx : Nat) (s : State) : Answers (execSpillWalkTimeout ctx s) (Keeps s) := by
  unfold execSpillWalkTimeout
  rw [answers_next]
  have hended (c : Nat) : Keeps s ((List.range 8).foldl (fun t l =>
      ((t.link l).pairWaits c).foldl (fun t x => t.endWait l x none 0) t) s) :=
    Keeps.foldl (fun t l => Keeps.foldl (fun u x => ⟨by simp, u.endWait_hbm _ _ _ _, by simp⟩) _ t) _ s
  split
  · exact Keeps.refl s
  · split
    · dsimp only
      split
      · exact Keeps.refl s
      · refine Keeps.after ((State.keeps_pairDone ..).comp ((State.keeps_markWalk ..).comp ?_)) s _
        split
        · exact (State.keeps_kvCount_logEvent ..).comp (hended _)
        · refine (Keeps.foldl (fun t x => ⟨by simp, t.hbmWriteAs_hbm _ _ _ _, by simp⟩) _ _).comp ?_
          exact (State.keeps_kvCount_logEvent ..).comp (hended _)
    · exact Keeps.refl s

theorem execChannelPieceIssue_keeps (ch : ChannelId) (errs : BoreErrs) (s : State) : Answers (execChannelPieceIssue ch errs s)
    (Keeps s) := by
  unfold execChannelPieceIssue
  dsimp only
  (repeat' split) <;> simp +contextual [State.after_hbm, State.failChannel_hbm, State.issuePiece_hbm]

theorem execChannelPieceWritten_keeps (core : Fin 8) (chan : Fin 64) (piece : Nat) (s : State) : Answers
    (execChannelPieceWritten core chan piece s) (Keeps s) := by
  unfold execChannelPieceWritten
  rw [answers_next]
  split
  · exact Keeps.refl s
  · split
    · exact Keeps.refl s
    · next q _ =>
      split
      · simp +contextual [State.after_hbm, State.failChannel_hbm]
      · dsimp only
        refine Keeps.after ?_ s _
        have hwrite : Keeps s ((s.pieceWrite core (s.chan core chan) q).modChan core chan
            (fun c => { c with flight := c.flight.eraseIdx piece })) :=
          (State.keeps_modChan ..).comp (s.keeps_pieceWrite ..)
        have htag (t : State) : Keeps t ((t.freeTags core 1).modChan core chan (fun c => { c with tags := c.tags - 1 })) :=
          (State.keeps_modChan ..).comp (t.keeps_freeTags ..)
        refine Keeps.trans ?_ (.ite (State.keeps_endPass ..) (.refl _))
        refine Keeps.trans ?_ (State.keeps_progress ..)
        refine Keeps.trans ?_ (.ite (State.keeps_dstFilled ..) (.refl _))
        exact hwrite.trans (.ite (htag _) (.refl _))

theorem execPoolBufferTimeout_keeps (core : Fin 8) (chan : Fin 64) (s : State) : Answers (execPoolBufferTimeout core chan s)
    (Keeps s) := by
  unfold execPoolBufferTimeout
  dsimp only
  (repeat' split) <;> simp +contextual [State.after_hbm, State.failChannel_hbm]

theorem execHbmRequest_keeps (die : Fin 2) (source : HbmId) (addr : BitVec 40) (op : HbmOp) (ecc : EccResult) (s : State) :
    Answers (execHbmRequest die source addr op ecc s) (Keeps s) := by
  unfold execHbmRequest
  dsimp only
  (repeat' split) <;> simp +contextual [State.hbmChecked_hbm, State.hbmStore_hbm, State.wcReads_hbm]

theorem execWindchestFill_keeps (slice : Fin 16) (s : State) : Answers (execWindchestFill slice s) (Keeps s) := by
  unfold execWindchestFill
  dsimp only
  (repeat' split) <;> simp +contextual

theorem execScrubStep_keeps (stack : Fin 12) (ecc : EccResult) (s : State) : Answers (execScrubStep stack ecc s) (Keeps s) := by
  unfold execScrubStep
  dsimp only
  (repeat' split) <;> simp +contextual [State.hbmChecked_hbm, State.hbmCount_hbm]

theorem execEventLogCommit_keeps (s : State) : Answers (execEventLogCommit s) (Keeps s) := by
  unfold execEventLogCommit
  dsimp only
  (repeat' split) <;> simp +contextual

theorem execContextSwapStart_keeps (ctx : Nat) (s : State) : Answers (execContextSwapStart ctx s) (Keeps s) := by
  unfold execContextSwapStart
  dsimp only
  (repeat' split) <;> simp +contextual [State.after_hbm, State.swapOutFlush_hbm]

theorem execContextSwapDone_keeps (ctx : Nat) (s : State) : Answers (execContextSwapDone ctx s) (Keeps s) := by
  unfold execContextSwapDone
  dsimp only
  (repeat' split) <;> simp +contextual [State.after_hbm]

theorem execHangDetected_keeps (core : Fin 8) (unit : DroneUnit) (s : State) : Answers (execHangDetected core unit s) (Keeps s)
    := by
  unfold execHangDetected
  dsimp only
  (repeat' split) <;> simp +contextual [State.escalate_hbm]

theorem execDumpPartTimeout_keeps (core : Fin 8) (part : DumpPart) (s : State) : Answers (execDumpPartTimeout core part s)
    (Keeps s) := by
  unfold execDumpPartTimeout
  dsimp only
  (repeat' split) <;> simp +contextual [State.complete_hbm]

theorem execFenceReadExpiry_keeps (core : Fin 8) (s : State) : Answers (execFenceReadExpiry core s) (Keeps s) := by
  unfold execFenceReadExpiry
  dsimp only
  (repeat' split) <;> simp +contextual [State.walk_hbm]

theorem execFenceDrainComplete_keeps (dom : ResetDom) (s : State) : Answers (execFenceDrainComplete dom s) (Keeps s) := by
  unfold execFenceDrainComplete
  rw [answers_next]
  split
  · dsimp only
    split
    · exact Keeps.refl s
    · split <;> simp +contextual
  · dsimp only
    split
    · exact Keeps.refl s
    · exact (s.keeps_resetCores _).trans (.of_frame rfl rfl rfl)

theorem execComputeResetDone_keeps (dom : ResetDom) (s : State) : Answers (execComputeResetDone dom s) (Keeps s) := by
  unfold execComputeResetDone
  dsimp only
  (repeat' split) <;> simp +contextual

theorem execResume_keeps (dom : ResetDom) (s : State) : Answers (execResume dom s) (Keeps s) := by
  unfold execResume
  rw [answers_next]
  have hresume (t : State) (c : Nat) : Keeps t (t.resumeCore c) := ⟨by simp, t.resumeCore_hbm c, by simp⟩
  split
  · dsimp only
    split
    · exact Keeps.refl s
    · refine Keeps.after ?_ s _
      split
      · exact (State.keeps_markCore ..).comp (hresume s _)
      · exact hresume s _
  · dsimp only
    split
    · exact Keeps.refl s
    · exact (Keeps.foldl (fun t c => (hresume t c).after s c) _ _).comp (.of_frame rfl rfl rfl)

theorem execLcServiceResume_keeps (core : Fin 8) (s : State) : Answers (execLcServiceResume core s) (Keeps s) := by
  unfold execLcServiceResume
  dsimp only
  (repeat' split) <;> simp +contextual

theorem execClearanceIntervalEnd_keeps (stream : Fin 16384) (s : State) : Answers (execClearanceIntervalEnd stream s) (Keeps s)
    := by
  unfold execClearanceIntervalEnd
  (repeat' split) <;> simp +contextual

theorem execCoreResetTimeout_keeps (core : Fin 8) (unit : DroneUnit) (s : State) : Answers (execCoreResetTimeout core unit s)
    (Keeps s) := by
  unfold execCoreResetTimeout
  dsimp only
  (repeat' split) <;> simp +contextual

theorem execDieResetTimeout_keeps (u : DieUnit) (s : State) : Answers (execDieResetTimeout u s) (Keeps s) := by
  unfold execDieResetTimeout
  dsimp only
  (repeat' split) <;> simp +contextual [State.declareModule_hbm]

theorem execLinkFlitReceive_keeps (link : Fin 8) (flit : Flit) (s : State) (hflit : flit.payload.length = 242) :     Answers
    (execLinkFlitReceive link flit s) (Keeps s) := by
  unfold execLinkFlitReceive
  dsimp only
  rw [if_neg (not_not_intro hflit)]
  rw [answers_next]
  repeat' split
  · exact Keeps.refl s
  · exact s.keeps_linkDiscard _ _
  · exact s.keeps_linkDiscard _ _
  · exact .of_frame rfl rfl rfl
  · exact Keeps.refl s
  · exact .of_frame rfl rfl rfl
  · exact (State.keeps_linkReplay ..).comp (.of_frame rfl rfl rfl)
  · exact Keeps.refl s

theorem execLinkNak_keeps (link : Fin 8) (lastGood : BitVec 12) (s : State) : Answers (execLinkNak link lastGood s) (Keeps s) :=
    by
  unfold execLinkNak
  simp +contextual [State.linkReplay_hbm]

theorem execLinkDown_keeps (link : Fin 8) (s : State) : Answers (execLinkDown link s) (Keeps s) := by
  unfold execLinkDown
  simp +contextual [State.linkGoDown_hbm]

theorem execLinkUp_keeps (link : Fin 8) (s : State) : Answers (execLinkUp link s) (Keeps s) := by
  unfold execLinkUp
  dsimp only
  (repeat' split) <;> simp +contextual

theorem execLinkRetrainTimeout_keeps (link : Fin 8) (s : State) : Answers (execLinkRetrainTimeout link s) (Keeps s) := by
  unfold execLinkRetrainTimeout
  dsimp only
  (repeat' split) <;> simp +contextual

theorem execLinkKeyExchange_keeps (link : Fin 8) (peerKey : List Byte) (sigOk : Bool) (peerSerial : List Byte) (s : State) :
    Answers (execLinkKeyExchange link peerKey sigOk peerSerial s) (Keeps s) := by
  unfold execLinkKeyExchange
  dsimp only
  (repeat' split) <;> simp +contextual

theorem execLinkRekey_keeps (link : Fin 8) (s : State) : Answers (execLinkRekey link s) (Keeps s) := by
  unfold execLinkRekey
  dsimp only
  (repeat' split) <;> simp +contextual

theorem execLinkWriteMessage_keeps (link : Fin 8) (msg : LinkMsg) (s : State) : Answers (execLinkWriteMessage link msg s) (Keeps
    s) := by
  unfold execLinkWriteMessage
  rw [answers_next]
  dsimp only
  repeat' split
  · simp +contextual [State.linkUnauth_hbm]
  · exact Keeps.refl s
  · exact Keeps.refl s
  · exact (State.keeps_of_linkMsg? ‹_›).trans (by simp +contextual [State.hbmWriteAs_hbm])
  · exact (State.keeps_of_linkMsg? ‹_›).trans (by simp)

theorem execLinkReadRequest_keeps (link : Fin 8) (msg : LinkMsg) (s : State) : Answers (execLinkReadRequest link msg s) (Keeps
    s) := by
  unfold execLinkReadRequest
  rw [answers_next]
  dsimp only
  repeat' split
  · simp +contextual [State.linkUnauth_hbm]
  · exact Keeps.refl s
  · exact Keeps.refl s
  · exact (State.keeps_of_linkMsg? ‹_›).trans (by simp)
  · exact (State.keeps_of_linkMsg? ‹_›).trans (by simp)

theorem execLinkResponse_keeps (link : Fin 8) (msg : LinkMsg) (s : State) : Answers (execLinkResponse link msg s) (Keeps s) :=
    by
  unfold execLinkResponse
  rw [answers_next]
  have hend (t : State) (w : LinkWait) (d : Option (List Byte)) (code : Word16) :
      Keeps t (((t.endWait link w d code).modLink link (·.settleEpoch)).sendAll link 1024) := by
    refine Keeps.trans (t := t.endWait link w d code) ⟨by simp, t.endWait_hbm _ _ _ _, by simp⟩ ?_
    exact Keeps.trans (t := (t.endWait link w d code).modLink link (·.settleEpoch)) (.of_frame rfl rfl rfl)
      ⟨by simp, State.sendAll_hbm _ _ _, by simp⟩
  split
  · exact ⟨by simp, s.linkUnauth_hbm _, by simp +contextual⟩
  · split
    · exact Keeps.refl s
    · next t ht =>
      have hmsg := State.keeps_of_linkMsg? ht
      dsimp only
      split
      · exact Keeps.refl s
      · split
        · exact hmsg
        · split
          · exact hmsg
          · next w _ _ =>
            have hu := hmsg.trans (hend t w (if lhOp msg.header.toNat = 3 then some (linkPayload msg.header.toNat msg) else none)
              (if lhOp msg.header.toNat = 1 then BitVec.ofNat 16 (leAt msg.payload 0 2) else 0))
            generalize ((t.endWait link w _ _).modLink link (·.settleEpoch)).sendAll link 1024 = u at hu ⊢
            split
            · exact hu
            · split
              · exact hu
              · split
                · exact hu
                · split
                  · exact hu.trans (State.keeps_modWalk ..)
                  · exact Keeps.after (hu.trans (State.keeps_pairArrived ..)) s _

theorem execLinkWriteAckTimeout_keeps (link : Fin 8) (tag : BitVec 10) (s : State) : Answers (execLinkWriteAckTimeout link tag
    s) (Keeps s) := by
  unfold execLinkWriteAckTimeout
  dsimp only
  (repeat' split) <;> simp +contextual [State.endWait_hbm, State.sendAll_hbm]

theorem execPwrEnHigh_keeps (straps : Straps) (s : State) : Answers (execPwrEnHigh straps s) (Keeps s) := by
  unfold execPwrEnHigh
  dsimp only
  (repeat' split) <;> simp +contextual [shutdown_hbm, tryStart_hbm]

theorem execPwrEnLow_keeps (s : State) : Answers (execPwrEnLow s) (Keeps s) := by
  unfold execPwrEnLow
  dsimp only
  (repeat' split) <;> simp +contextual [powerOff_hbm]

theorem execRailGroupInRegulation_keeps (s : State) : Answers (execRailGroupInRegulation s) (Keeps s) := by
  unfold execRailGroupInRegulation
  dsimp only
  (repeat' split) <;> simp +contextual [shutdown_hbm]

theorem execRailSequenceTimeout_keeps (s : State) : Answers (execRailSequenceTimeout s) (Keeps s) := by
  unfold execRailSequenceTimeout
  dsimp only
  (repeat' split) <;> simp +contextual [shutdown_hbm]

theorem execRailFault_keeps (rail : Fin 9) (mv : Int) (s : State) : Answers (execRailFault rail mv s) (Keeps s) := by
  unfold execRailFault
  dsimp only
  (repeat' split) <;> simp +contextual [trip_hbm]

theorem execModRstAssert_keeps (s : State) : Answers (execModRstAssert s) (Keeps s) := by
  unfold execModRstAssert
  dsimp only
  (repeat' split) <;> simp +contextual [moduleReset_hbm]

theorem execModRstRelease_keeps (straps : Straps) (s : State) : Answers (execModRstRelease straps s) (Keeps s) := by
  unfold execModRstRelease
  dsimp only
  (repeat' split) <;> simp +contextual

theorem execInputTrip_keeps (overVolt : Bool) (mv : Int) (s : State) : Answers (execInputTrip overVolt mv s) (Keeps s) := by
  unfold execInputTrip
  dsimp only
  (repeat' split) <;> simp +contextual [trip_hbm]

theorem execSensorSample_keeps (r : SensorReading) (s : State) : Answers (execSensorSample r s) (Keeps s) := by
  unfold execSensorSample
  rw [answers_next]
  split
  · exact Keeps.refl s
  · dsimp only
    refine .ite (.ite ?_ (.ite ?_ ?_)) (.ite ?_ ?_)
    · exact (keeps_trip ..).comp (.of_frame rfl rfl rfl)
    · refine Keeps.trans ?_ (.ite (.refl _) (State.keeps_markCause ..))
      refine (keeps_warn ..).comp ((keeps_warn ..).comp ((Keeps.foldl (fun t i => ?_) _ _).comp ((keeps_warn ..).comp ?_)))
      · exact .ite (.refl t) (keeps_warn ..)
      · exact .of_frame rfl rfl rfl
    · exact .of_frame rfl rfl rfl
    · exact (keeps_tryStart _).comp (.of_frame rfl rfl rfl)
    · exact .of_frame rfl rfl rfl

theorem execThermalTrip_keeps (sensor : Fin 25) (mC : Int) (s : State) : Answers (execThermalTrip sensor mC s) (Keeps s) := by
  unfold execThermalTrip
  dsimp only
  (repeat' split) <;> simp +contextual [trip_hbm]

theorem execBootRomCheck_keeps (slot0 slot1 : ImageCheck) (s : State) : Answers (execBootRomCheck slot0 slot1 s) (Keeps s) := by
  unfold execBootRomCheck
  dsimp only
  (repeat' split) <;> simp +contextual

theorem execHbmTrainingDone_keeps (allOk : Bool) (s : State) : Answers (execHbmTrainingDone allOk s) (Keeps s) := by
  unfold execHbmTrainingDone
  dsimp only
  (repeat' split) <;> simp +contextual

theorem execServiceFirmwareStart_keeps (slot2 slot3 : ImageCheck) (journalOk : Bool) (parts : List (Nat × PartChoice)) (s :
    State) : Answers (execServiceFirmwareStart slot2 slot3 journalOk parts s) (Keeps s) := by
  unfold execServiceFirmwareStart
  rw [answers_next]
  repeat' split
  · exact Keeps.refl s
  · exact .of_frame (by simp) (by simp) (by simp)
  · exact .of_frame (by simp) (by simp) (by simp)
  · exact Keeps.refl s
  · exact s.keeps_bootFirmware _ _ _

theorem execModuleReady_keeps (s : State) : Answers (execModuleReady s) (Keeps s) := by
  unfold execModuleReady
  dsimp only
  (repeat' split) <;> simp +contextual

theorem execStandbySupplyUp_keeps (inputMv : Nat) (s : State) : Answers (execStandbySupplyUp inputMv s) (Keeps s) := by
  unfold execStandbySupplyUp
  dsimp only
  (repeat' split) <;> simp +contextual

theorem execStandbySupplyLoss_keeps (s : State) : Answers (execStandbySupplyLoss s) (Keeps s) := by
  exact (answers_next _ _).2 ⟨rfl, fun _ => wf_empty, fun _ => boresWf_nil⟩

theorem execPwrEnLowTimeElapsed_keeps (s : State) : Answers (execPwrEnLowTimeElapsed s) (Keeps s) := by
  unfold execPwrEnLowTimeElapsed
  dsimp only
  (repeat' split) <;> simp +contextual [shutdown_hbm, tryStart_hbm]

theorem execRailGroupBelowTenPercent_keeps (s : State) : Answers (execRailGroupBelowTenPercent s) (Keeps s) := by
  unfold execRailGroupBelowTenPercent
  dsimp only
  (repeat' split) <;> simp +contextual

theorem execKeptResponseExpiry_keeps (keyId : Word16) (reqId : Word32) (s : State) : Answers (execKeptResponseExpiry keyId reqId
    s) (Keeps s) := by
  unfold execKeptResponseExpiry
  dsimp only
  simp +contextual

theorem execSrtpKeyOverlapExpiry_keeps (slot : Fin 4096) (s : State) : Answers (execSrtpKeyOverlapExpiry slot s) (Keeps s) := by
  unfold execSrtpKeyOverlapExpiry
  dsimp only
  simp +contextual

theorem execContextRecreate_keeps (init : CtxInit) (s : State) : Answers (execContextRecreate init s) (Keeps s) := by
  unfold execContextRecreate
  dsimp only
  (repeat' split) <;> simp +contextual [State.after_hbm]

theorem execNarrowViewAccess_keeps (core : Fin 8) (prep : Fin 4) (line : Fin 65536) (word : Fin 8) (store : Option Word64) (ecc
    : EccResult) (s : State) : Answers (execNarrowViewAccess core prep line word store ecc s) (Keeps s) := by
  unfold execNarrowViewAccess
  rw [answers_next]
  split
  · split <;> simp +contextual [State.escalate_hbm]
  · split
    · exact ⟨rfl, id, State.boresWf_modCore s core _ (fun _ hk => wf_wrBytes _ _ hk)⟩
    · refine ⟨rfl, id, State.boresWf_modCore s core _ (fun k hk => ?_)⟩
      cases ecc <;> dsimp only <;> split <;> exact hk

theorem execNextHopReply_keeps (port : Fin 2) (ip : IpAddr) (mac : BitVec 48) (s : State) : Answers (execNextHopReply port ip
    mac s) (Keeps s) := by
  unfold execNextHopReply
  dsimp only
  (repeat' split) <;> simp +contextual

theorem execDelayRequest_keeps (s : State) : Answers (execDelayRequest s) (Keeps s) := by
  unfold execDelayRequest
  dsimp only
  (repeat' split) <;> simp +contextual

theorem execLinkFlitReceive_fault (link : Fin 8) (flit : Flit) (s : State) (hflit : flit.payload.length ≠ 242) :
    execLinkFlitReceive link flit s = .fault .notAFlit := by
  unfold execLinkFlitReceive
  exact if_pos hflit

/-- Every command keeps them; the one stop is the operand that is no flit. -/
theorem exec_keeps (i : Instr) (s : State) : Answers (exec i s) (Keeps s) ∨ ∃ link flit, i = .linkFlitReceive link flit
    ∧ flit.payload.length ≠ 242 ∧ ∃ f, exec i s = .fault f := by
  cases i with
  | mediaPacket port pkt authOk => exact .inl (execMediaPacket_keeps port pkt authOk s)
  | unmatchedDatagram port pkt => exact .inl (execUnmatchedDatagram_keeps port pkt s)
  | frameReceiveDrop port why => exact .inl (execFrameReceiveDrop_keeps port why s)
  | rxFifoWaitTimeout port => exact .inl (execRxFifoWaitTimeout_keeps port s)
  | poolBufferGrant pool => exact .inl (execPoolBufferGrant_keeps pool s)
  | arpRequest port senderMac _senderIp targetIp => exact .inl (execArpRequest_keeps port senderMac _senderIp targetIp s)
  | neighbourSolicitation port senderMac _senderIp targetIp => exact .inl (execNeighbourSolicitation_keeps port senderMac _senderIp targetIp s)
  | icmpEchoRequest port senderIp targetIp data => exact .inl (execIcmpEchoRequest_keeps port senderIp targetIp data s)
  | pauseFrame port holdNs _pfc => exact .inl (execPauseFrame_keeps port holdNs _pfc s)
  | pauseExpiry port => exact .inl (execPauseExpiry_keeps port s)
  | portLinkChange port up => exact .inl (execPortLinkChange_keeps port up s)
  | chunkCloseAtBoundary stream => exact .inl (execChunkCloseAtBoundary_keeps stream s)
  | lateLimitExpiry stream => exact .inl (execLateLimitExpiry_keeps stream s)
  | stepEligible stream => exact .inl (execStepEligible_keeps stream s)
  | roundForm core => exact .inl (execRoundForm_keeps core s)
  | roundYield core => exact .inl (execRoundYield_keeps core s)
  | roundEndStore core prep value => exact .inl (execRoundEndStore_keeps core prep value s)
  | checkpointReport core => exact .inl (execCheckpointReport_keeps core s)
  | chunkCommit stream => exact .inl (execChunkCommit_keeps stream s)
  | resultDelivered port => exact .inl (execResultDelivered_keeps port s)
  | deadlineExpiry stream => exact .inl (execDeadlineExpiry_keeps stream s)
  | streamContextFree stream => exact .inl (execStreamContextFree_keeps stream s)
  | streamOpen choice => exact .inl (execStreamOpen_keeps choice s)
  | streamClose => exact .inl (execStreamClose_keeps s)
  | clothaRequestReceive port srcAddr srcPort msg tagOk => exact .inl (execClothaRequestReceive_keeps port srcAddr srcPort msg tagOk s)
  | ping => exact .inl (execPing_keeps s)
  | read => exact .inl (execRead_keeps s)
  | readTable => exact .inl (execReadTable_keeps s)
  | info => exact .inl (execInfo_keeps s)
  | write => exact .inl (execWrite_keeps s)
  | bulkReadDump => exact .inl (execBulkReadDump_keeps s)
  | bulkReadEventLog => exact .inl (execBulkReadEventLog_keeps s)
  | bulkReadFirmwareStaging => exact .inl (execBulkReadFirmwareStaging_keeps s)
  | bulkWriteFirmwareStaging => exact .inl (execBulkWriteFirmwareStaging_keeps s)
  | bulkWritePackageStaging segment => exact .inl (execBulkWritePackageStaging_keeps segment s)
  | flashCommitDone => exact .inl (execFlashCommitDone_keeps s)
  | partitionCreate choice => exact .inl (execPartitionCreate_keeps choice s)
  | partitionReady p => exact .inl (execPartitionReady_keeps p s)
  | partitionDestroy => exact .inl (execPartitionDestroy_keeps s)
  | jobSubmit => exact .inl (execJobSubmit_keeps s)
  | jobCancel => exact .inl (execJobCancel_keeps s)
  | meRelease => exact .inl (execMeRelease_keeps s)
  | resetCore sc => exact .inl (execResetCore_keeps sc s)
  | dumpRelease => exact .inl (execDumpRelease_keeps s)
  | restoreDefaults => exact .inl (execRestoreDefaults_keeps s)
  | keyEnrol check => exact .inl (execKeyEnrol_keeps check s)
  | keyRevoke => exact .inl (execKeyRevoke_keeps s)
  | decommission => exact .inl (execDecommission_keeps s)
  | tenantEnrol => exact .inl (execTenantEnrol_keeps s)
  | tenantRemove => exact .inl (execTenantRemove_keeps s)
  | fwVerify check => exact .inl (execFwVerify_keeps check s)
  | fwActivate => exact .inl (execFwActivate_keeps s)
  | fwActivationTimeout => exact .inl (execFwActivationTimeout_keeps s)
  | fwFloorRaise => exact .inl (execFwFloorRaise_keeps s)
  | modelStage => exact .inl (execModelStage_keeps s)
  | modelLoad choice => exact .inl (execModelLoad_keeps choice s)
  | modelRemove => exact .inl (execModelRemove_keeps s)
  | attRequest => exact .inl (execAttRequest_keeps s)
  | srtpKeyWrite => exact .inl (execSrtpKeyWrite_keeps s)
  | ppsEpochWrite => exact .inl (execPpsEpochWrite_keeps s)
  | timeSourceWrite => exact .inl (execTimeSourceWrite_keeps s)
  | alertClear => exact .inl (execAlertClear_keeps s)
  | powerDrain => exact .inl (execPowerDrain_keeps s)
  | drainGraceExpiry => exact .inl (execDrainGraceExpiry_keeps s)
  | telemetrySample map => exact .inl (execTelemetrySample_keeps map s)
  | mgmtRead addr len => exact .inl (execMgmtRead_keeps addr len s)
  | telemetryWindowRead map => exact .inl (execTelemetryWindowRead_keeps map s)
  | mgmtWrite addr bytes => exact .inl (execMgmtWrite_keeps addr bytes s)
  | readStatus => exact .inl (execReadStatus_keeps s)
  | writeEnable => exact .inl (execWriteEnable_keeps s)
  | mgmtOtherCommand _command _extension => exact .inl (execMgmtOtherCommand_keeps _command _extension s)
  | reqGo tagOk => exact .inl (execReqGo_keeps tagOk s)
  | respAck => exact .inl (execRespAck_keeps s)
  | ptpMessage port transport msg => exact .inl (execPtpMessage_keeps port transport msg s)
  | ppsInEdge => exact .inl (execPpsInEdge_keeps s)
  | timeSourceTimeout => exact .inl (execTimeSourceTimeout_keeps s)
  | holdoverExpiry => exact .inl (execHoldoverExpiry_keeps s)
  | ppsOutPulse => exact .inl (execPpsOutPulse_keeps s)
  | doorbell core prep value => exact .inl (execDoorbell_keeps core prep value s)
  | commandDispatch core => exact .inl (execCommandDispatch_keeps core s)
  | nop ctx => exact .inl (execNop_keeps ctx s)
  | matmul ctx => exact .inl (execMatmul_keeps ctx s)
  | matmulGather ctx => exact .inl (execMatmulGather_keeps ctx s)
  | matmulScore ctx => exact .inl (execMatmulScore_keeps ctx s)
  | fence ctx => exact .inl (execFence_keeps ctx s)
  | semWait ctx => exact .inl (execSemWait_keeps ctx s)
  | semSignal ctx => exact .inl (execSemSignal_keeps ctx s)
  | semaphoreOpApply core index => exact .inl (execSemaphoreOpApply_keeps core index s)
  | semWaitTimeout ctx => exact .inl (execSemWaitTimeout_keeps ctx s)
  | creditAcquire ctx => exact .inl (execCreditAcquire_keeps ctx s)
  | creditRelease ctx => exact .inl (execCreditRelease_keeps ctx s)
  | creditGrant target handle => exact .inl (execCreditGrant_keeps target handle s)
  | creditTimeout ctx => exact .inl (execCreditTimeout_keeps ctx s)
  | streamStart ctx => exact .inl (execStreamStart_keeps ctx s)
  | streamRearm ctx => exact .inl (execStreamRearm_keeps ctx s)
  | streamStop ctx => exact .inl (execStreamStop_keeps ctx s)
  | vecRun ctx => exact .inl (execVecRun_keeps ctx s)
  | checkpoint ctx => exact .inl (execCheckpoint_keeps ctx s)
  | commandComplete ctx => exact .inl (execCommandComplete_keeps ctx s)
  | stealGrant core engine => exact .inl (execStealGrant_keeps core engine s)
  | workItemStart core engine => exact .inl (execWorkItemStart_keeps core engine s)
  | accumulationDone me flips errs => exact .inl (execAccumulationDone_keeps me flips errs s)
  | segmentDone me flips addFlips errs => exact .inl (execSegmentDone_keeps me flips addFlips errs s)
  | mismatchAgeOut core engine => exact .inl (execMismatchAgeOut_keeps core engine s)
  | conversionDone me errs => exact .inl (execConversionDone_keeps me errs s)
  | veBodyEnd me errs => exact .inl (execVeBodyEnd_keeps me errs s)
  | codebookLoadStart core engine => exact .inl (execCodebookLoadStart_keeps core engine s)
  | codebookLoadDone me errs => exact .inl (execCodebookLoadDone_keeps me errs s)
  | extensionReadReturn core engine ecc => exact .inl (execExtensionReadReturn_keeps core engine ecc s)
  | handleEntryStore core prep addr value => exact .inl (execHandleEntryStore_keeps core prep addr value s)
  | pageFree core prep value => exact .inl (execPageFree_keeps core prep value s)
  | pageRelease p => exact .inl (execPageRelease_keeps p s)
  | prepFence _core _prep => exact .inl (execPrepFence_keeps _core _prep s)
  | linkRequest core prep tail => exact .inl (execLinkRequest_keeps core prep tail s)
  | linkRequestComplete p => exact .inl (execLinkRequestComplete_keeps p s)
  | spillPairRequest ctx => exact .inl (execSpillPairRequest_keeps ctx s)
  | spillWalkTimeout ctx => exact .inl (execSpillWalkTimeout_keeps ctx s)
  | channelPieceIssue ch errs => exact .inl (execChannelPieceIssue_keeps ch errs s)
  | channelPieceWritten core chan piece => exact .inl (execChannelPieceWritten_keeps core chan piece s)
  | poolBufferTimeout core chan => exact .inl (execPoolBufferTimeout_keeps core chan s)
  | hbmRequest die source addr op ecc => exact .inl (execHbmRequest_keeps die source addr op ecc s)
  | windchestFill slice => exact .inl (execWindchestFill_keeps slice s)
  | scrubStep stack ecc => exact .inl (execScrubStep_keeps stack ecc s)
  | eventLogCommit => exact .inl (execEventLogCommit_keeps s)
  | contextSwapStart ctx => exact .inl (execContextSwapStart_keeps ctx s)
  | contextSwapDone ctx => exact .inl (execContextSwapDone_keeps ctx s)
  | hangDetected core unit => exact .inl (execHangDetected_keeps core unit s)
  | dumpPartTimeout core part => exact .inl (execDumpPartTimeout_keeps core part s)
  | fenceReadExpiry core => exact .inl (execFenceReadExpiry_keeps core s)
  | fenceDrainComplete dom => exact .inl (execFenceDrainComplete_keeps dom s)
  | computeResetDone dom => exact .inl (execComputeResetDone_keeps dom s)
  | resume dom => exact .inl (execResume_keeps dom s)
  | lcServiceResume core => exact .inl (execLcServiceResume_keeps core s)
  | clearanceIntervalEnd stream => exact .inl (execClearanceIntervalEnd_keeps stream s)
  | coreResetTimeout core unit => exact .inl (execCoreResetTimeout_keeps core unit s)
  | dieResetTimeout u => exact .inl (execDieResetTimeout_keeps u s)
  | linkFlitReceive link flit =>
    by_cases hflit : flit.payload.length = 242
    · exact .inl (execLinkFlitReceive_keeps link flit s hflit)
    · exact .inr ⟨link, flit, rfl, hflit, _, execLinkFlitReceive_fault link flit s hflit⟩
  | linkNak link lastGood => exact .inl (execLinkNak_keeps link lastGood s)
  | linkDown link => exact .inl (execLinkDown_keeps link s)
  | linkUp link => exact .inl (execLinkUp_keeps link s)
  | linkRetrainTimeout link => exact .inl (execLinkRetrainTimeout_keeps link s)
  | linkKeyExchange link peerKey sigOk peerSerial => exact .inl (execLinkKeyExchange_keeps link peerKey sigOk peerSerial s)
  | linkRekey link => exact .inl (execLinkRekey_keeps link s)
  | linkWriteMessage link msg => exact .inl (execLinkWriteMessage_keeps link msg s)
  | linkReadRequest link msg => exact .inl (execLinkReadRequest_keeps link msg s)
  | linkResponse link msg => exact .inl (execLinkResponse_keeps link msg s)
  | linkWriteAckTimeout link tag => exact .inl (execLinkWriteAckTimeout_keeps link tag s)
  | pwrEnHigh straps => exact .inl (execPwrEnHigh_keeps straps s)
  | pwrEnLow => exact .inl (execPwrEnLow_keeps s)
  | railGroupInRegulation => exact .inl (execRailGroupInRegulation_keeps s)
  | railSequenceTimeout => exact .inl (execRailSequenceTimeout_keeps s)
  | railFault rail mv => exact .inl (execRailFault_keeps rail mv s)
  | modRstAssert => exact .inl (execModRstAssert_keeps s)
  | modRstRelease straps => exact .inl (execModRstRelease_keeps straps s)
  | inputTrip overVolt mv => exact .inl (execInputTrip_keeps overVolt mv s)
  | sensorSample r => exact .inl (execSensorSample_keeps r s)
  | thermalTrip sensor mC => exact .inl (execThermalTrip_keeps sensor mC s)
  | bootRomCheck slot0 slot1 => exact .inl (execBootRomCheck_keeps slot0 slot1 s)
  | hbmTrainingDone allOk => exact .inl (execHbmTrainingDone_keeps allOk s)
  | serviceFirmwareStart slot2 slot3 journalOk parts => exact .inl (execServiceFirmwareStart_keeps slot2 slot3 journalOk parts s)
  | moduleReady => exact .inl (execModuleReady_keeps s)
  | standbySupplyUp inputMv => exact .inl (execStandbySupplyUp_keeps inputMv s)
  | standbySupplyLoss => exact .inl (execStandbySupplyLoss_keeps s)
  | pwrEnLowTimeElapsed => exact .inl (execPwrEnLowTimeElapsed_keeps s)
  | railGroupBelowTenPercent => exact .inl (execRailGroupBelowTenPercent_keeps s)
  | keptResponseExpiry keyId reqId => exact .inl (execKeptResponseExpiry_keeps keyId reqId s)
  | srtpKeyOverlapExpiry slot => exact .inl (execSrtpKeyOverlapExpiry_keeps slot s)
  | contextRecreate init => exact .inl (execContextRecreate_keeps init s)
  | narrowViewAccess core prep line word store ecc => exact .inl (execNarrowViewAccess_keeps core prep line word store ecc s)
  | nextHopReply port ip mac => exact .inl (execNextHopReply_keeps port ip mac s)
  | delayRequest => exact .inl (execDelayRequest_keeps s)

/-! ### The statements about every command and every step -/

theorem exec_next_keeps {i : Instr} {s t : State} (h : exec i s = .next t) : Keeps s t := by
  obtain ⟨u, hu, hk⟩ | ⟨_, _, _, _, f, hf⟩ := exec_keeps i s
  · rw [h] at hu
    cases hu
    exact hk
  · rw [h] at hf
    cases hf

theorem step_of_pending {s : State} {c : Instr} {rest : List Instr} (h : s.pending = c :: rest) :
    step s = exec c { s with pending := rest } := by
  unfold step
  rw [h]

theorem step_of_empty {s : State} (h : s.pending = []) : step s = .next (tick s) := by
  unfold step
  rw [h]

theorem boreOk_iff (s : State) : BoreOk s ↔ BoresWf (boresOf s.cores) := ⟨fun h => ⟨h⟩, fun h => h.wf⟩

/-- A step keeps memory canonical: a tick changes none, and a command keeps it. -/
theorem step_keeps_memory {s t : State} (h : step s = .next t) : (HbmOk s → HbmOk t) ∧ (BoreOk s → BoreOk t) := by
  match hp : s.pending with
  | [] =>
    rw [step_of_empty hp] at h
    cases h
    exact ⟨id, id⟩
  | c :: rest =>
    rw [step_of_pending hp] at h
    obtain ⟨_, hhbm, hbore⟩ := exec_next_keeps h
    exact ⟨hhbm, fun hs => (boreOk_iff t).mpr (hbore ((boreOk_iff s).mp hs))⟩

/-- Settles O4: every command keeps the queue (`exec_keeps`), and a step runs the front command on the rest of it. -/
theorem stepConsumesOneCommand : Obligations.StepConsumesOneCommand := by
  unfold Obligations.StepConsumesOneCommand
  refine ⟨fun i s t h => (exec_next_keeps h).pending, fun s t c rest hp h => ?_⟩
  rw [step_of_pending hp] at h
  exact (exec_next_keeps h).pending

/-- Settles O6, by `exec_keeps`. -/
theorem stepKeepsHbmCanonical : Obligations.StepKeepsHbmCanonical := fun _ _ hs h => (step_keeps_memory h).1 hs

/-- Settles O7, by `exec_keeps`. -/
theorem stepKeepsBoreCanonical : Obligations.StepKeepsBoreCanonical := fun _ _ hs h => (step_keeps_memory h).2 hs

/-- Settles O3, by `exec_keeps`. -/
theorem onlyANonFlitStops : Obligations.OnlyANonFlitStops := by
  intro i s
  obtain ⟨t, ht, _⟩ | ⟨link, flit, hi, hlen, f, hf⟩ := exec_keeps i s
  · exact .inl ⟨t, ht⟩
  · exact .inr ⟨link, flit, f, hi, hlen, hf⟩

/-- Settles O5. -/
theorem resetMemoryCanonical : Obligations.ResetMemoryCanonical := ⟨wf_empty, fun _ => rfl⟩

/-- Settles O1. -/
theorem stepRunsFrontCommand : Obligations.StepRunsFrontCommand := fun _ _ _ h => step_of_pending h

theorem TimeBase.tick_cases (t : TimeBase) : ∃ k, k ≤ 2 ∧ (k ≠ 1 → t.slew ≠ 0 ∧ (t.ticks + 1) % 10000 = 0)
    ∧ t.tick.now = (if k ≠ 0 then (t.now + k) % 2 ^ 64 else t.now)
    ∧ t.tick = { t with now := t.tick.now, ticks := t.tick.ticks, slew := t.tick.slew } := by
  unfold TimeBase.tick
  dsimp only
  by_cases hplain : t.slew = 0 ∨ (t.ticks + 1) % 10000 ≠ 0
  · rw [if_pos hplain]
    exact ⟨1, by simp⟩
  · rw [if_neg hplain]
    have hslew : t.slew ≠ 0 ∧ (t.ticks + 1) % 10000 = 0 := by simpa using hplain
    split
    · exact ⟨2, by simp [hslew]⟩
    · exact ⟨0, by simp [hslew]⟩

theorem tick_aon (s : State) : (tick s).aon = { s.aon with clock := (tick s).aon.clock } := by
  unfold tick
  dsimp only
  split <;> rfl

theorem tick_clock (s : State) : (tick s).aon.clock =
    if s.aon.phase = .unpowered then s.aon.clock else s.aon.clock + Config.aonAdvance s.draws := by
  unfold tick
  dsimp only
  split <;> rfl

theorem tick_eq {s : State} (h : (tick s).time =
    { s.time with now := (tick s).time.now, ticks := (tick s).time.ticks, slew := (tick s).time.slew }) :
    tick s = { s with
      aon := { s.aon with clock := (tick s).aon.clock }
      time := { s.time with now := (tick s).time.now, ticks := (tick s).time.ticks, slew := (tick s).time.slew }
      draws := s.draws + 1 } := by
  rw [← h, ← tick_aon]
  rfl

/-- Settles O2, by the cases of the timebase's tick. -/
theorem emptyQueueTicks : Obligations.EmptyQueueTicks := by
  intro s hp
  obtain ⟨k, hk, hslew, hnow, htick⟩ := s.time.tick_cases
  by_cases hrun : s.time.running = true
  · have htime : (tick s).time = s.time.tick := if_pos hrun
    refine ⟨tick s, k, step_of_empty hp, hk, hslew, tick_clock s, ?_, tick_eq ?_⟩
    · simpa [htime, hrun] using hnow
    · rw [htime]
      exact htick
  · have htime : (tick s).time = s.time := if_neg hrun
    refine ⟨tick s, 1, step_of_empty hp, by omega, fun h => absurd rfl h, tick_clock s, ?_, tick_eq ?_⟩
    · simp [htime, hrun]
    · rw [htime]

end Sys2Proof.Machine

/-! PROOFS. Shared rules of the state's operations: parts that a fold leaves alone, and what an update leaves of the part it changes. -/

namespace Sys2Proof.Machine
open Sys2Proof.Safety

section
variable {β : Type} (f : State → β → State) (l : List β) (s : State)

@[simp] theorem State.aon_foldl (h : ∀ t x, (f t x).aon = t.aon) : (l.foldl f s).aon = s.aon := foldl_proj State.aon f h l s
@[simp] theorem State.time_foldl (h : ∀ t x, (f t x).time = t.time) : (l.foldl f s).time = s.time := foldl_proj State.time f h l s
@[simp] theorem State.persist_foldl (h : ∀ t x, (f t x).persist = t.persist) : (l.foldl f s).persist = s.persist :=
  foldl_proj State.persist f h l s
@[simp] theorem State.flash_foldl (h : ∀ t x, (f t x).flash = t.flash) : (l.foldl f s).flash = s.flash := foldl_proj State.flash f h l s
@[simp] theorem State.streams_foldl (h : ∀ t x, (f t x).streams = t.streams) : (l.foldl f s).streams = s.streams :=
  foldl_proj State.streams f h l s
@[simp] theorem State.cores_foldl (h : ∀ t x, (f t x).cores = t.cores) : (l.foldl f s).cores = s.cores := foldl_proj State.cores f h l s
@[simp] theorem State.ctxs_foldl (h : ∀ t x, (f t x).ctxs = t.ctxs) : (l.foldl f s).ctxs = s.ctxs := foldl_proj State.ctxs f h l s
@[simp] theorem State.recov_foldl (h : ∀ t x, (f t x).recov = t.recov) : (l.foldl f s).recov = s.recov := foldl_proj State.recov f h l s
@[simp] theorem State.clotha_foldl (h : ∀ t x, (f t x).clotha = t.clotha) : (l.foldl f s).clotha = s.clotha :=
  foldl_proj State.clotha f h l s
@[simp] theorem State.net_foldl (h : ∀ t x, (f t x).net = t.net) : (l.foldl f s).net = s.net := foldl_proj State.net f h l s
@[simp] theorem State.links_foldl (h : ∀ t x, (f t x).links = t.links) : (l.foldl f s).links = s.links := foldl_proj State.links f h l s
@[simp] theorem State.svc_foldl (h : ∀ t x, (f t x).svc = t.svc) : (l.foldl f s).svc = s.svc := foldl_proj State.svc f h l s
end

theorem kset_kset {α : Type} (m : KMap α) (i : Nat) (a b : α) : kset (kset m i a) i b = kset m i b := by
  induction m with
  | nil => simp [kset]
  | cons p m ih =>
    obtain ⟨j, c⟩ := p
    rcases lt_trichotomy i j with h | rfl | h
    · simp [kset, h]
    · simp [kset]
    · simp [kset, h.not_gt, h.ne', ih]

theorem kmod_kmod {α : Type} (m : KMap α) (i : Nat) (d : α) (f g : α → α) : kmod (kmod m i d f) i d g = kmod m i d (g ∘ f) := by
  simp [kmod, kset_kset]

@[simp] theorem State.modPort_tx (s : State) (p : Nat) (f : Port → Port) : (s.modPort p f).net.tx = s.net.tx := rfl
theorem State.logEvent_heldEvents (s : State) (a b c d : Nat) (l : List (Nat × Int)) : ∃ e,
    (s.logEvent a b c d l).recov.heldEvents = s.recov.heldEvents ++ [e] ∧ e.event = BitVec.ofNat 16 a ∧ e.code = BitVec.ofNat 16 b :=
  ⟨_, rfl, rfl, rfl⟩

theorem State.modPort_modPort (s : State) (p : Nat) (f g : Port → Port) : (s.modPort p f).modPort p g = s.modPort p (g ∘ f) := by
  simp [State.modPort, kmod_kmod]

theorem bestBy_eq_none {α : Type} {lt : α → α → Bool} {l : List α} (h : bestBy lt l = none) : l = [] := by
  match l, h with
  | [], _ => rfl
  | a :: l, h =>
    unfold bestBy at h
    split at h <;> cases h

theorem mem_of_bestBy {α : Type} {lt : α → α → Bool} {l : List α} {a : α} (h : bestBy lt l = some a) : a ∈ l := by
  induction l generalizing a with
  | nil => cases h
  | cons b l ih =>
    unfold bestBy at h
    split at h
    · cases h
      exact List.mem_cons_self
    · next d hd =>
      cases h
      split
      · exact List.mem_cons_of_mem _ (ih hd)
      · exact List.mem_cons_self

/-- The best by a key has the smallest. -/
theorem bestBy_le {α : Type} {key : α → Nat} {l : List α} {a : α} (h : bestBy (fun x y => decide (key x < key y)) l = some a) :
    ∀ b ∈ l, key a ≤ key b := by
  induction l generalizing a with
  | nil => cases h
  | cons c l ih =>
    unfold bestBy at h
    split at h
    · next hnone =>
      cases h
      simp [bestBy_eq_none hnone]
    · next d hd =>
      cases h
      simp only [decide_eq_true_eq]
      have hleast := ih hd
      intro b hb
      rcases List.mem_cons.mp hb with rfl | hb
      · split <;> omega
      · have := hleast b hb
        split <;> omega

/-- Messages that leave change the ports' part alone. -/
theorem State.foldl_send (l : List TxItem) (s : State) : ∃ net, l.foldl (fun t i => t.send i) s = { s with net := net } := by
  induction l generalizing s with
  | nil => exact ⟨s.net, rfl⟩
  | cons x l ih => exact ih (s.send x)
end Sys2Proof.Machine

/-! PROOFS. The ports: what they drop, answer, hold and resolve (R585 to R593). -/

namespace Sys2Proof.Machine
open Sys2Proof.Safety

theorem takeFirst_cons_of_pos {α : Type} {p : α → Bool} {a : α} {l : List α} (h : p a = true) : takeFirst p (a :: l) = some (a, l) := by
  simp [takeFirst, h]

theorem State.countPort_eq (s : State) (port i : Nat) :
    s.countPort port i = s.modPort port (fun p => { p with counts := p.counts.modify i (· + 1) }) := rfl

@[simp] theorem State.poolDrop_net (s : State) (port i : Nat) (code : Word16) :
    (s.poolDrop port i code).net = (s.countPort port i).net := by
  unfold State.poolDrop
  dsimp only
  split_ifs <;> rfl

@[simp] theorem State.poolDrop_port (s : State) (port i : Nat) (code : Word16) :
    (s.poolDrop port i code).port port = { s.port port with counts := (s.port port).counts.modify i (· + 1) } := by
  rw [State.port_congr (s.poolDrop_net port i code), State.countPort_eq, State.port_modPort_self]

@[simp] theorem State.countPort_tx (s : State) (port i : Nat) : (s.countPort port i).net.tx = s.net.tx := rfl

/-- Settles O8. -/
theorem portDropsAreCounted : Obligations.PortDropsAreCounted := by
  unfold Obligations.PortDropsAreCounted
  refine ⟨?mac, ?unmatched, ?waited⟩
  case mac =>
    intro s port why hup
    change execFrameReceiveDrop port why s = _
    cases why <;> simp [execFrameReceiveDrop, hup, State.countPort_eq]
  case unmatched =>
    intro s port src sport dst bs hup hother
    change execUnmatchedDatagram port (.udp src sport dst true bs) s = _
    simp [execUnmatchedDatagram, hup, hother, State.countPort_eq, State.modPort_modPort, Function.comp_def]
  case waited =>
    intro s port f rest hfifo hsince
    refine ⟨(s.modPort port (fun p => { p with fifo := rest })).poolDrop port 8 memPOOL_EXHAUSTED, ?_, ?_⟩
    · change execRxFifoWaitTimeout port s = _
      unfold execRxFifoWaitTimeout
      rw [hfifo, takeFirst_cons_of_pos (p := fun (f : FifoFrame) => decide (f.since + 50000 ≤ s.now)) (decide_eq_true hsince)]
    · simp

/-- A port that is up and not held sends a frame at once and counts it as sent. -/
theorem State.sendFrame_eq {s : State} {port : Nat} (x : TxItem) (hup : (s.port port).up = true)
    (hfree : (s.port port).holdUntil = none) : s.sendFrame port x = (s.modPort port (·.sent 1)).send x := by
  simp [State.sendFrame, hup, hfree]

theorem State.sendIp_eq {s : State} {port : Nat} {dst : IpAddr} (x : TxItem)
    (hhop : (s.port port).hops.any (fun q => q.1 == s.nextHop port dst) = true) : s.sendIp port dst x = s.sendFrame port x := by
  simp [State.sendIp, State.resolveHop, hhop]

@[simp] theorem State.nextHop_countPort (s : State) (port i p : Nat) (a : IpAddr) :
    (s.countPort port i).nextHop p a = s.nextHop p a := rfl

@[simp] theorem State.countPort_hops (s : State) (port i : Nat) : ((s.countPort port i).port port).hops = (s.port port).hops := by
  simp [State.countPort_eq]

/-- Settles O9. -/
theorem portsAnswerNeighbours : Obligations.PortsAnswerNeighbours := by
  unfold Obligations.PortsAnswerNeighbours
  have hsent (s : State) (port : Fin 2) (x : TxItem) (hup : (s.port port).up = true) (hfree : (s.port port).holdUntil = none) :
      (s.countPort port 2).sendFrame port x = ((s.countPort port 2).modPort port (·.sent 1)).send x :=
    State.sendFrame_eq x (by simp [State.countPort_eq, hup]) (by simp [State.countPort_eq, hfree])
  refine ⟨?arp, ?solicitation, ?echo⟩
  case arp =>
    intro s port mac ip target hup hfree hv4 htarget
    refine ⟨((s.countPort port 2).modPort port (·.sent 1)).send (.arpReply port mac target), ?_, rfl, rfl, rfl, rfl, rfl⟩
    change execArpRequest port mac ip target s = _
    unfold execArpRequest
    dsimp only
    rw [← hsent s port _ hup hfree, if_neg (by simp [hup]), if_pos ⟨hv4, htarget⟩]
  case solicitation =>
    intro s port mac ip target hup hfree hholds hv6
    refine ⟨((s.countPort port 2).modPort port (·.sent 1)).send (.neighbourAdvert port mac target), ?_, rfl, rfl, rfl, rfl, rfl⟩
    change execNeighbourSolicitation port mac ip target s = _
    unfold execNeighbourSolicitation
    rw [← hsent s port _ hup hfree]
    simp [hup, hholds, hv6]
  case echo =>
    intro s port ip target data hup hfree hholds hhop
    refine ⟨((s.countPort port 2).modPort port (·.sent 1)).send (.echoReply port ip target data), ?_, rfl, rfl, rfl, rfl, rfl⟩
    change execIcmpEchoRequest port ip target data s = _
    unfold execIcmpEchoRequest
    rw [← hsent s port _ hup hfree, ← State.sendIp_eq (dst := ip) _ (by simpa using hhop)]
    simp [hup, hholds]

/-- What a list of frames leaves on a port that is up and not held. -/
theorem State.foldl_sendFrame (l : List (Option IpAddr × TxItem)) (s : State) (port : Nat) (hup : (s.port port).up = true)
    (hfree : (s.port port).holdUntil = none) :
    ((l.foldl (fun t q => t.sendFrame port q.2) s).port port).holdUntil = none
      ∧ (l.foldl (fun t q => t.sendFrame port q.2) s).net.tx = (l.map Prod.snd).reverse ++ s.net.tx := by
  induction l generalizing s with
  | nil => exact ⟨hfree, rfl⟩
  | cons q l ih =>
    rw [List.foldl_cons, State.sendFrame_eq _ hup hfree]
    obtain ⟨hhold, htx⟩ := ih ((s.modPort port (·.sent 1)).send q.2) (by simp [Port.sent, hup]) (by simp [Port.sent, hfree])
    exact ⟨hhold, by simp [htx]⟩

theorem State.sendFrame_hops (s : State) (port : Nat) (x : TxItem) : ((s.sendFrame port x).port port).hops = (s.port port).hops
    ∧ ((s.sendFrame port x).port port).resolving = (s.port port).resolving := by
  unfold State.sendFrame
  dsimp only
  split_ifs <;> simp [Port.sent]

theorem State.foldl_sendFrame_hops (l : List (Option IpAddr × TxItem)) (s : State) (port : Nat) :
    ((l.foldl (fun t q => t.sendFrame port q.2) s).port port).hops = (s.port port).hops
      ∧ ((l.foldl (fun t q => t.sendFrame port q.2) s).port port).resolving = (s.port port).resolving :=
  ⟨foldl_proj (fun t => (t.port port).hops) _ (fun t q => (t.sendFrame_hops port q.2).1) l s,
    foldl_proj (fun t => (t.port port).resolving) _ (fun t q => (t.sendFrame_hops port q.2).2) l s⟩

/-- Settles O10. -/
theorem portHoldsLinksAndHops : Obligations.PortHoldsLinksAndHops := by
  unfold Obligations.PortHoldsLinksAndHops
  refine ⟨?pause, ?expiry, ?link, ?hop⟩
  case pause =>
    intro s port ns pfc hup hns
    refine ⟨_, if_neg (by simp [hup]) |>.trans (if_neg (by omega)) |> congrArg Host.Outcome.next, ?_⟩
    simp [State.countPort_eq]
  case expiry =>
    intro s port e hhold he hup
    let u := s.modPort port (fun p => { p with holdUntil := none, txWait := p.txWait.filter (fun q => q.1.isSome) })
    obtain ⟨hfree, htx⟩ := State.foldl_sendFrame ((s.port port).txWait.filter (fun q => q.1.isNone)) u port
      (by simp [u, hup]) (by simp [u])
    refine ⟨_, ?_, hfree, htx, ?_⟩
    · change execPauseExpiry port s = _
      unfold execPauseExpiry
      simp only [hhold]
      rw [if_neg (by omega)]
    · simp [u]
  case link =>
    intro s port up hphase hhub hup
    cases up
    · refine ⟨_, _, congrArg Host.Outcome.next (if_neg (by simp [hphase, hhub, hup])), ?_, ?_, ?_, rfl, rfl, rfl, rfl, rfl⟩ <;>
        simp [State.logEvent, State.markCause, State.port, State.modPort]
    · refine ⟨_, _, congrArg Host.Outcome.next (if_neg (by simp [hphase, hhub, hup])), ?_, ?_, ?_, rfl, rfl, rfl, rfl, rfl⟩ <;>
        simp [State.logEvent, State.port, State.modPort]
  case hop =>
    intro s port ip mac hup hip
    refine ⟨_, congrArg Host.Outcome.next (if_neg (by simp [hup, hip])), ?_⟩
    simp [State.foldl_sendFrame_hops]

end Sys2Proof.Machine

/-! PROOFS. Rounds and the deadline monitor's rule (R440 to R447, R72). -/

namespace Sys2Proof.Machine
open Sys2Proof.Safety

/-- Settles O13. -/
theorem roundsFormYieldAndEnd : Obligations.RoundsFormYieldAndEnd := by
  unfold Obligations.RoundsFormYieldAndEnd
  refine ⟨?form, ?yields, ?ends⟩
  case form =>
    intro s core h i l ct hrec hhead hmay hfree hct
    change execRoundForm core s = _
    simp [execRoundForm, hrec, hhead, hmay, hfree, hct]
  case yields =>
    intro s core r ct hrec hyield
    change execRoundYield core s = _
    simp [execRoundYield, hrec, hyield]
  case ends =>
    intro s core prep v ct part hct hpart hfence hcore hown
    change execRoundEndStore core prep v s = _
    simp [execRoundEndStore, hct, hpart, hfence, hcore, hown]

/-- Settles O15, by the cases of the rule. -/
theorem checkpointRule : Obligations.CheckpointRule := by
  unfold Obligations.CheckpointRule
  refine ⟨?late, ?inTime, ?bestEffort⟩
  case late =>
    intro onFb available follows pred cost d reserve hlate
    have hrule : (onFb || decide (d < pred + aOut)) = true := by
      simpa [show aOut = 25000 from rfl] using hlate
    cases follows <;> simp [decideCkpt, hrule]
  case inTime =>
    intro available follows pred cost d reserve htime
    have hrule : ¬ d < pred + 25000 := Nat.not_lt.mpr htime
    have haOut : aOut = 25000 := rfl
    by_cases hroom : pred + cost + reserve + 25000 ≤ d
    · cases follows <;> simp [decideCkpt, hrule, haOut, hroom, Nat.not_lt.mpr]
    · cases follows <;> simp [decideCkpt, hrule, haOut, hroom, Nat.lt_of_not_le]
  case bestEffort =>
    intro onFb available follows pred cost d reserve
    cases follows <;> simp [decideCkpt]

/-- What the scheduler keeps of a core's rounds: its ready queue, its rounds and its counters. -/
def Core.sched (k : Core) : List ReadyStep × List Round × List Nat := (k.ready, k.rounds, k.schedStats)

theorem State.sched_dropWaits (s : State) (i c : Nat) : ((s.dropWaits i).core c).sched = (s.core c).sched := by
  unfold State.dropWaits
  rw [State.core_modCtx]
  exact s.core_modCores_keeps Core.sched _ c (fun _ _ => rfl)

theorem State.sched_dropCredits (s : State) (h : CreditHolder) (c : Nat) : ((s.dropCredits h).core c).sched = (s.core c).sched :=
  s.core_modCores_keeps Core.sched _ c (fun _ _ => rfl)

theorem State.sched_freeChannel (s : State) (core n c : Nat) : ((s.freeChannel core n).core c).sched = (s.core c).sched := by
  unfold State.freeChannel
  dsimp only
  rw [State.sched_dropCredits]
  split_ifs
  · refine (State.core_modCore_keeps Core.sched _ _ _ _ ?_).trans (State.core_modCore_keeps Core.sched _ _ _ _ ?_)
    · exact fun _ => rfl
    · exact fun _ => rfl
  · exact s.core_modCore_keeps Core.sched core c _ (fun _ => rfl)

theorem State.sched_stopChannels (s : State) (core i c : Nat) : ((s.stopChannels core i).core c).sched = (s.core c).sched :=
  foldl_proj (fun t => (t.core c).sched) _ (fun t n => t.sched_freeChannel core n c) _ s

theorem State.sched_discardQueue (s : State) (i c : Nat) : ((s.discardQueue i).core c).sched = (s.core c).sched := by
  rw [State.core_congr (t := s) (by simp)]

theorem State.core_returnSteps (s : State) (core : Nat) (l : List ReadyStep) : (s.returnSteps core l).core core =
    { s.core core with ready := l.map (fun q => { q with returned := true }) ++ (s.core core).ready } := by
  unfold State.returnSteps
  dsimp only
  rw [State.core_congr (State.cores_foldl _ _ _ (fun t q => by split <;> rfl)), State.core_modCore_self]

theorem foldl_min_le_init (l : List Nat) (a : Nat) : l.foldl Nat.min a ≤ a := by
  induction l generalizing a with
  | nil => exact le_refl a
  | cons b l ih => exact (ih _).trans (Nat.min_le_left a b)

theorem foldl_min_le_of_mem {l : List Nat} {a b : Nat} (h : b ∈ l) : l.foldl Nat.min a ≤ b := by
  induction l generalizing a with
  | nil => cases h
  | cons c l ih =>
    rcases List.mem_cons.mp h with rfl | h
    · exact (foldl_min_le_init l _).trans (Nat.min_le_right a _)
    · exact ih h

/-- What a yielding round's context loses (its waits, its queue, its credits and its channels) is no part of the scheduler's. -/
theorem State.sched_contextDrops (s : State) (core i c : Nat) (h : CreditHolder) (f : Ctx → Ctx) :
    (((((s.dropWaits i).discardQueue i).dropCredits h).modCtx i f).stopChannels core i |>.core c).sched = (s.core c).sched := by
  rw [State.sched_stopChannels, State.core_modCtx, State.sched_dropCredits, State.sched_discardQueue, State.sched_dropWaits]

/-- The scheduler's part of a core whose round yields. -/
theorem State.sched_yieldRound (s : State) (core : Nat) (r : Round) (ct : Ctx) (h : r.cancelled = false) :
    ((s.yieldRound core r ct).core core).sched =
      (r.steps.map (fun q => { q with returned := true }) ++ (s.core core).ready,
        (s.core core).rounds.map (fun q => if q.seq == r.seq && q.ctx == r.ctx then { q with yielded := true } else q),
        (s.core core).schedStats.modify 3 (· + 1)) := by
  unfold State.yieldRound
  dsimp only
  rw [h, if_neg Bool.false_ne_true, State.core_returnSteps]
  have hdrops (t : State) := t.sched_contextDrops core r.ctx core (.context r.ctx)
    (fun c => { c with dropping := true, roundDeadline := 2 ^ 64 - 1 })
  have hrec : (s.writeRecord r.ctx { seq := ct.seqNext, code := schBE_YIELD }).core core = s.core core :=
    State.core_congr (by simp) core
  simp only [Core.sched, Prod.mk.injEq] at hdrops ⊢
  simp only [hdrops, State.core_modCore_self, hrec, lbump, and_self]

/-- The round that `makeRound` makes. -/
def State.roundMade (s : State) (core : Nat) (h : ReadyStep) (i : Nat) (ct : Ctx) : Round :=
  { seq := (s.core core).roundSeq, ctx := i, slot := h.slot, stage := h.stage, fallback := h.fallback, be := h.be
    steps := s.fillRound core h
    deadline := if h.be then 2 ^ 64 - 1 else ((s.fillRound core h).map (·.deadline)).foldl Nat.min (2 ^ 64 - 1)
    formedNs := s.now, clipThreshold := kgetD s.persist.clipThreshold ct.part 64 }

theorem State.makeRound_core (s : State) (core : Nat) (h : ReadyStep) (i : Nat) (ct : Ctx) :
    ((s.makeRound core h i ct).core core).rounds = (s.core core).rounds ++ [s.roundMade core h i ct]
      ∧ ((s.makeRound core h i ct).core core).ready = (s.core core).ready.filter (fun q => !(s.fillRound core h).contains q) := by
  unfold State.makeRound
  simp [State.core, State.modCore, State.roundMade, State.ite_frame]

/-- Settles O14. -/
theorem roundsHoldAndReturnTheirSteps : Obligations.RoundsHoldAndReturnTheirSteps := by
  unfold Obligations.RoundsHoldAndReturnTheirSteps
  refine ⟨?makes, ?yields⟩
  case makes =>
    intro s core h i ct
    obtain ⟨hrounds, hready⟩ := s.makeRound_core core h i ct
    refine ⟨s.roundMade core h i ct, hrounds, rfl, rfl, rfl, rfl, rfl, ?_, ?_, by simp, by simp⟩
    · intro q hq hbe
      unfold State.roundMade
      dsimp only
      rw [hbe, if_neg Bool.false_ne_true]
      exact foldl_min_le_of_mem (List.mem_map.mpr ⟨q, hq, rfl⟩)
    · rw [hready]
      intro q hq hmem
      have hout := (List.mem_filter.mp hq).2
      simp only [State.roundMade] at hmem
      simp [hmem] at hout
  case yields =>
    intro s core r ct hcancel
    have hsched := s.sched_yieldRound core r ct hcancel
    simp only [Core.sched, Prod.mk.injEq] at hsched
    obtain ⟨hready, hrounds, hstats⟩ := hsched
    refine ⟨hready, ?_, hstats, ?_⟩
    · rw [hrounds]
      intro q hq hseq hctx
      obtain ⟨p, _, rfl⟩ := List.mem_map.mp hq
      split_ifs at hseq hctx ⊢ with hp
      · rfl
      · simp [hseq, hctx] at hp
    · simp

end Sys2Proof.Machine

/-! PROOFS. Media and chunks: what is taken in, and how chunks close and become eligible (R13, R46 to R49, R57, R590, R592, R603). -/

namespace Sys2Proof.Machine
open Sys2Proof.Safety

theorem State.stream?_congr {s t : State} (h : s.streams = t.streams) (i : Nat) : s.stream? i = t.stream? i := by
  simp [State.stream?, h]

@[simp] theorem State.stream?_fillRing (s : State) (x : StreamCtx) (g : PayShape) (a : Arrived) (i : Nat) :
    (s.fillRing x g a).stream? i = s.stream? i := State.stream?_congr (by simp) i

theorem State.stream?_modStats (s : State) (i j : Nat) (f : StreamStats → StreamStats) : (s.modStats i f).stream? j = s.stream? j := rfl

@[simp] theorem State.countPort_fifo (s : State) (port i : Nat) : ((s.countPort port i).port port).fifo = (s.port port).fifo := by
  simp [State.countPort_eq]

theorem State.takeMedia_eq {s : State} {port i : Nat} {dst : Word16} {bs : List Byte} {x : StreamCtx} {p : Package}
    (hclass : s.classify port dst bs = .media i) (hx : s.stream? i = some x) (hp : s.pkg? x.modelSlot = some p) (auth : Bool) (at_ : Nat) :
    s.takeMedia port dst bs auth at_ = s.mediaIn i x p bs auth at_ := by
  simp [State.takeMedia, hclass, hx, hp]

theorem extendTs_self {n : Nat} (h : n < 2 ^ 32) : extendTs n n = n := by
  simp [extendTs, sext]

/-- A first packet anchors its stream and is held for the chunks that it reaches. -/
theorem State.ingest_first {s : State} {i : Nat} {x : StreamCtx} {m : MediaIn} (g : PayShape) (at_ : Nat)
    (hanchored : x.anchored = false) (hclosing : x.closing = false) (harrived : x.arrived = []) (hnext : x.nextChunk = 0)
    (hts : m.ts < 2 ^ 32) (hlen : 0 < m.data.length / g.bytes * g.step) (hunits : 0 < x.units) :
    let len := m.data.length / g.bytes * g.step
    let y := { x with anchored := true, firstTs := m.ts, anchorTs := (m.ts : Int) + (len : Nat), anchorNs := at_, payloadType := m.pt }
    let a : Arrived := { ts := m.ts, len := len, data := m.data, at_ := at_, seq := m.seq }
    s.ingest i x g m at_ false = (s.modStream i (fun _ => { y with arrived := [a] })).fillRing y g a := by
  unfold State.ingest
  simp only [hanchored, hclosing, Bool.not_false, if_true, StreamCtx.openTs, hnext, harrived]
  simp only [Nat.cast_zero, zero_mul, add_zero, extendTs_self hts]
  rw [if_neg (fun h => h.elim hlen.ne' Bool.false_ne_true), if_neg (by omega), if_neg]
  · rfl
  · intro hfar
    simp only [Bool.false_or, List.any_nil, Bool.or_false, decide_eq_true_eq] at hfar
    have hfar' : (m.ts : Int) + 4 * (x.units : Int) ≤ m.ts := hfar
    omega

/-- Settles O11. -/
theorem mediaIsTakenIn : Obligations.MediaIsTakenIn := by
  unfold Obligations.MediaIsTakenIn
  refine ⟨?datagram, ?granted, ?overlap, ?anchors⟩
  case datagram =>
    intro s port src sport dst bs auth i x p hup hclass hx hp hfits hfifo
    change execMediaPacket port (.udp src sport dst true bs) auth s = _
    have hwait (f : FifoFrame) (hf : f.media = true) : (s.countPort port 2).fifoWait port f = none := by
      have hpool : (s.countPort port 2).net.poolFits port 1 = true := hfits
      unfold State.fifoWait
      simp only [hf, if_true, hpool, State.countPort_fifo, hfifo]
      rfl
    unfold execMediaPacket
    dsimp only
    rw [hclass]
    dsimp only
    rw [if_neg (by simp [hup]), if_neg (by simp), hwait _ rfl]
    exact congrArg Host.Outcome.next (State.takeMedia_eq (s := s.countPort port 2) hclass hx hp auth s.now)
  case granted =>
    intro s port f rest src sport dst ok bs hfifo hmedia hpkt hfits
    have hgrant : s.grantFrame port true = (s.modPort port (fun p => { p with fifo := rest })).takeMedia port dst bs f.authOk f.since := by
      unfold State.grantFrame
      rw [hfifo, takeFirst_cons_of_pos (p := fun (f : FifoFrame) => f.media == true) (by simp [hmedia])]
      simp [hfits, hpkt]
    change execPoolBufferGrant (.hub ⟨port, _⟩) s = _
    unfold execPoolBufferGrant
    dsimp only
    rw [if_pos port.isLt, hgrant]
  case overlap =>
    intro s slot k end_ old hk hold hend
    refine ⟨_, rfl, ?_, rfl⟩
    have hend' : end_ ≤ s.time.now := hend
    simp [hk, hold, hend']
  case anchors =>
    intro s i x g m at_ hx hanchored hclosing harrived hnext hts hlen hunits
    rw [State.ingest_first g at_ hanchored hclosing harrived hnext hts hlen hunits]
    refine ⟨_, ((State.stream?_fillRing ..).trans (State.stream?_modStream_self ..)).trans (congrArg _ hx), ?_⟩
    exact ⟨rfl, rfl, rfl, rfl, rfl, rfl, rfl, rfl, rfl⟩

/-- What a late packet's correction changes of a stream. -/
theorem StreamCtx.lagged_fst (x : StreamCtx) (lag : Option Int) : ∃ run early anchor due,
    (x.lagged lag).1 = { x with lagRun := run, earlyRun := early, anchorNs := anchor, reanchorDue := due } := by
  unfold StreamCtx.lagged
  dsimp only
  split_ifs
  · exact ⟨_, _, _, _, rfl⟩
  · exact ⟨_, _, _, _, rfl⟩
  · exact ⟨_, _, _, _, rfl⟩

theorem State.closeChunks_one {s : State} {i : Nat} {x : StreamCtx} {g : PayShape} {late : Bool} {now at_ : Nat} {lag : Option Int}
    (hx : s.stream? i = some x) (hat : x.closeAt g now late = some (at_, lag)) :
    s.closeChunks i g late now 1 = s.closeChunk i x g at_ lag := by
  simp [State.closeChunks, hx, hat]

/-- Settles O12. -/
theorem chunksCloseAndBecomeEligible : Obligations.ChunksCloseAndBecomeEligible := by
  unfold Obligations.ChunksCloseAndBecomeEligible
  refine ⟨?boundary, ?late, ?eligible, ?accepted⟩
  case boundary =>
    intro s i x g at_ lag hx hg hlast hat
    change execChunkCloseAtBoundary i s = _
    unfold execChunkCloseAtBoundary
    rw [hx]
    dsimp only
    rw [hg]
    dsimp only
    rw [if_pos hlast, State.closeChunks_one hx hat]
  case late =>
    intro s i x g hx hg hlast hanchored hclosing hlim
    have hat : x.closeAt g s.now true = some (Nat.max (x.boundary + x.lateLimit) x.lastClose, none) := by
      simp only [State.now_eq] at hlim
      simp [StreamCtx.closeAt, hlast, hanchored, hclosing, hlim]
    change execLateLimitExpiry i s = _
    unfold execLateLimitExpiry
    rw [hx]
    dsimp only
    rw [hg]
    dsimp only
    rw [if_neg (by simp [hlast]), State.closeChunks_one hx hat]
  case eligible =>
    intro s i x c hx hc hphase
    change execStepEligible i s = _
    simp [execStepEligible, hx, hc, hphase]
  case accepted =>
    intro s i x g at_ lag hx hbe
    obtain ⟨run, early, anchor, due, hlag⟩ := StreamCtx.lagged_fst { x with reanchorDue := false } lag
    rcases hl : StreamCtx.lagged { x with reanchorDue := false } lag with ⟨y, moved⟩
    rw [hl] at hlag
    dsimp only at hlag
    unfold State.closeChunk
    rw [hl, hlag, hbe]
    have hkeys (t : State) (z : StreamCtx) (f : StreamStats → StreamStats) (ht : t.stream? i = some x) :
        (((t.modStream i (fun _ => z)).modStats i f).newKeys x).stream? i = some z := by
      rw [State.stream?_congr (t := (t.modStream i (fun _ => z)).modStats i f) (by simp) i, State.stream?_modStats,
        State.stream?_modStream_self, ht]
      rfl
    cases moved
    all_goals
      refine ⟨_, s.acceptedChunk x at_ _, hkeys _ _ _ hx, rfl, ?_⟩
      simp [State.acceptedChunk, hbe]

end Sys2Proof.Machine

/-! PROOFS. STREAM_CONTEXT_FREE is no step of its own stream alone: where the core stays overcommitted it marks the cause on the
open chunks of the core's other streams (R54, R81). -/

namespace Sys2Proof.Machine
open Sys2Proof.Safety

/-- A package whose chunks need more engine cycles than a core has. -/
def heavyPackage : Package :=
  { tenant := 0, modelId := 0, version := 0, minSf := 0, stages := [], hasFallback := false, layoutDeclared := false
    tables := [{ period := 0, fallback := false, e := [1000000000000], p := 0, q := [], o := [], m := 0, xb := 0, hb := 0, lb1 := 0,
                 lb2 := 0, s := 0, k := 0, y := 0, ckpts := [] }]
    frameStep := 0, dim := 0, fmt := 0, outKind := none, spill := none, links := [], slotTables := [], watched := [], flush := []
    flushProg := none, control := (0, 0), training := false, wideBytes := 0, manifestHash := 0 }

/-- A closing stream without chunks, and on the same core a latency-critical stream of `heavyPackage` with one open chunk. -/
def overcommittedState : State :=
  { streams := { ctx := [(0, { closing := true }), (1, { chunks := [{ idx := 0, accept := 0, deadline := 0, flags := 0 }] })] }
    svc := { models := [(0, { state := 2, modelId := 0, part := 0, die := 0, bytes := 0, pkg := some heavyPackage })] } }

theorem overcommittedState_frees : ((overcommittedState.freeStream 0).drainCheck.stream? 1).map (fun x => x.chunks.map Chunk.causes)
    = some [[2]] := by decide

/-- Refutes O16: where the core of a freed stream stays overcommitted, the open chunks of the streams that remain on it are marked
with the overload, so they do not stand as they stood. -/
theorem not_reportsCommitsAndFreedStreams : ¬ Obligations.ReportsCommitsAndFreedStreams := by
  unfold Obligations.ReportsCommitsAndFreedStreams
  rintro ⟨_, _, _, _, _, hfree⟩
  obtain ⟨t, ht, _, hothers, _⟩ := hfree overcommittedState 0 { closing := true } rfl rfl rfl
  cases ht
  have hsame := overcommittedState_frees.symm.trans (congrArg (Option.map (fun x => x.chunks.map Chunk.causes)) (hothers 1 (by decide)))
  exact absurd hsame (by decide)

end Sys2Proof.Machine

/-! PROOFS. Misses and the delivery of results (R44, R58, R80 to R82, R588, R589, R596). -/

namespace Sys2Proof.Machine
open Sys2Proof.Safety

theorem mem_of_find? {α : Type} {p : α → Bool} {l : List α} {a : α} (h : l.find? p = some a) : a ∈ l := List.mem_of_find?_eq_some h

/-! ### What a miss changes -/

theorem State.countMiss_missTotal (s : State) (i : Nat) (x : StreamCtx) (c : Chunk) :
    (s.countMiss i x c).streams.missTotal = s.streams.missTotal + 1 := by
  unfold State.countMiss
  dsimp only
  split <;> rfl

theorem State.countMiss_stats (s : State) (i : Nat) (x : StreamCtx) (c : Chunk) :
    kgetD (s.countMiss i x c).streams.stats i {} = { kgetD s.streams.stats i {} with misses := (kgetD s.streams.stats i {}).misses + 1 } := by
  unfold State.countMiss
  dsimp only
  split <;> exact kgetD_kmod_self s.streams.stats i {} (fun r => { r with misses := r.misses + 1 })

theorem State.countMiss_missLog (s : State) (i : Nat) (x : StreamCtx) (c : Chunk) : ∃ m, (s.countMiss i x c).streams.missLog
      = m :: s.streams.missLog.take 255 ∧ m.stream = i ∧ m.chunk = c.idx ∧ m.deadline = c.deadline ∧ m.accept = c.accept
    ∧ m.deliver = none := by
  unfold State.countMiss
  dsimp only
  split <;> exact ⟨_, rfl, rfl, rfl, rfl, rfl, rfl⟩

theorem State.countMiss_stream (s : State) (i : Nat) (x : StreamCtx) (c : Chunk) : ∃ f : Chunk → Chunk, (∀ q, (f q).idx = q.idx) ∧
    ∀ j, (s.countMiss i x c).stream? j = (s.modChunk i c.idx f).stream? j := by
  unfold State.countMiss
  dsimp only
  split <;> exact ⟨fun q => { q with missed := true, flags := _ }, fun _ => rfl, fun _ => rfl⟩

/-- Settles O17, by what a miss changes. -/
theorem deadlineMissIsCounted : Obligations.DeadlineMissIsCounted := by
  intro s i x c hx hbe hlate hfind
  obtain ⟨m, hlog, hstream, hchunk, hdeadline, haccept, hdeliver⟩ := s.countMiss_missLog i x c
  refine ⟨s.countMiss i x c, m, _, ?_, s.countMiss_missTotal i x c, by rw [s.countMiss_stats], hlog, hstream, hchunk, hdeadline, haccept,
    hdeliver, rfl, by simp⟩
  change execDeadlineExpiry i s = _
  unfold execDeadlineExpiry
  rw [hx]
  simp only [hbe, hfind, hlate]
  simp

/-! ### A result leaves -/

theorem State.chunkGone_stream (s : State) (i chunk : Nat) : (s.chunkGone i chunk).stream? i =
    (s.stream? i).map (fun x => { x with chunks := x.chunks.filter (fun c => c.idx != chunk) }) := s.stream?_modStream_self i _

theorem State.chunkGone_stream_ne (s : State) {i j : Nat} (chunk : Nat) (h : j ≠ i) : (s.chunkGone i chunk).stream? j = s.stream? j :=
  s.stream?_modStream_ne _ h

theorem State.stream?_dropResult (s : State) (port i chunk j : Nat) : (s.dropResult port i chunk).stream? j = s.stream? j := by
  unfold State.dropResult
  dsimp only
  split
  · rfl
  · split_ifs <;> rfl

theorem State.dropResult_counts (s : State) (port i chunk : Nat) : (s.dropResult port i chunk).streams.stats = s.streams.stats
    ∧ (s.dropResult port i chunk).streams.missTotal = s.streams.missTotal ∧ (s.dropResult port i chunk).net.tx = s.net.tx := by
  unfold State.dropResult
  dsimp only
  split
  · exact ⟨rfl, rfl, rfl⟩
  · split_ifs <;> exact ⟨rfl, rfl, rfl⟩

/-- What a delivery makes of the streams: the stream's chunk is gone and it has one delivery more. -/
structure Delivers (s t : State) (i chunk n : Nat) : Prop where
  gone : ∃ y, t.stream? i = some y ∧ ∀ q ∈ y.chunks, q.idx ≠ chunk
  others : ∀ j, j ≠ i → t.stream? j = s.stream? j
  delivered : (kgetD t.streams.stats i {}).delivered = (kgetD s.streams.stats i {}).delivered + n
  missTotal : t.streams.missTotal = s.streams.missTotal
  mem : t.mem = s.mem
  cores : t.cores = s.cores
  persist : t.persist = s.persist

theorem Delivers.drop {s u : State} {i n : Nat} {x : StreamCtx} (port chunk : Nat) (hx : u.stream? i = some x)
    (hothers : ∀ j, j ≠ i → u.stream? j = s.stream? j)
    (hdel : (kgetD u.streams.stats i {}).delivered = (kgetD s.streams.stats i {}).delivered + n)
    (hmiss : u.streams.missTotal = s.streams.missTotal) (hmem : u.mem = s.mem) (hcores : u.cores = s.cores)
    (hpersist : u.persist = s.persist) : Delivers s ((u.dropResult port i chunk).chunkGone i chunk) i chunk n := by
  obtain ⟨hstats, hdropMiss, _⟩ := u.dropResult_counts port i chunk
  refine ⟨⟨{ x with chunks := x.chunks.filter (fun c => c.idx != chunk) }, ?_, ?_⟩, ?_, ?_, hdropMiss.trans hmiss, by simpa using hmem,
    by simpa using hcores, by simpa using hpersist⟩
  · rw [State.chunkGone_stream, State.stream?_dropResult, hx]
    rfl
  · intro q hq
    simpa using (List.mem_filter.mp hq).2
  · intro j hj
    rw [State.chunkGone_stream_ne _ _ hj, State.stream?_dropResult, hothers j hj]
  · exact (congrArg (fun l => (kgetD l i {}).delivered) hstats).trans hdel

theorem State.delivers_deliverFrames {s : State} {r : EgressResult} {y : StreamCtx} (port : Nat) (x : StreamCtx) (p : Package) (c : Chunk)
    (hy : s.stream? r.stream = some y) : Delivers s (s.deliverFrames port r x p c) r.stream c.idx 1 := by
  unfold State.deliverFrames
  dsimp only
  generalize resultFrames p x _ _ _ = frames
  obtain ⟨l, seq, ts⟩ := frames
  dsimp only
  obtain ⟨net, hnet⟩ := State.foldl_send l s
  have hpoison (u : State) (b : Prop) [Decidable b] : (if b then u.bumpPoison x.part 3 else u).streams = u.streams := by
    split <;> rfl
  rw [hnet]
  refine Delivers.drop (x := { y with outSeq := seq, outTs := ts }) port c.idx ?_ ?_ ?_ ?_ (by simp [State.ite_frame])
    (by simp [State.ite_frame]) (by simp [State.ite_frame])
  · rw [State.stream?_congr (hpoison _ _)]
    exact (State.stream?_modStream_self s r.stream _).trans (congrArg _ hy)
  · intro j hj
    rw [State.stream?_congr (hpoison _ _)]
    exact State.stream?_modStream_ne s _ hj
  · rw [hpoison]
    exact congrArg StreamStats.delivered (kgetD_kmod_self s.streams.stats r.stream {} (fun q => { q with
      delivered := q.delivered + 1, degraded := _, maxLatency := _ }))
  · rw [hpoison]
    rfl

theorem Delivers.after_countMiss {s t : State} {i n : Nat} {x : StreamCtx} {c : Chunk} (h : Delivers (s.countMiss i x c) t i c.idx n) :
    (∃ y, t.stream? i = some y ∧ ∀ q ∈ y.chunks, q.idx ≠ c.idx) ∧ (∀ j, j ≠ i → t.stream? j = s.stream? j)
      ∧ (kgetD t.streams.stats i {}).delivered = (kgetD s.streams.stats i {}).delivered + n
      ∧ t.streams.missTotal = s.streams.missTotal + 1 ∧ t.mem = s.mem ∧ t.cores = s.cores ∧ t.persist = s.persist := by
  obtain ⟨hgone, hothers, hdel, hmiss, hmem, hcores, hpersist⟩ := h
  obtain ⟨f, _, hf⟩ := s.countMiss_stream i x c
  rw [s.countMiss_stats] at hdel
  refine ⟨hgone, fun j hj => ?_, hdel, hmiss.trans (s.countMiss_missTotal i x c), by simpa using hmem, by simpa using hcores,
    by simpa using hpersist⟩
  rw [hothers j hj, hf]
  exact s.stream?_modStream_ne _ hj

theorem State.countMiss_stream_self {s : State} {i : Nat} {x : StreamCtx} (c : Chunk) (hx : s.stream? i = some x) :
    ∃ y, (s.countMiss i x c).stream? i = some y := by
  obtain ⟨f, _, hf⟩ := s.countMiss_stream i x c
  exact ⟨_, (hf i).trans ((s.stream?_modStream_self i _).trans (congrArg _ hx))⟩

theorem StreamCtx.idx_of_chunk? {x : StreamCtx} {i : Nat} {c : Chunk} (h : x.chunk? i = some c) : c.idx = i := by
  simpa using List.find?_some h

/-- The chunk as it stands when its result leaves has the number of the chunk that was found. -/
theorem StreamCtx.idx_getD_chunk? (o : Option StreamCtx) {i : Nat} {c : Chunk} (h : c.idx = i) :
    ((o.bind (·.chunk? i)).getD c).idx = c.idx := by
  match hd : o.bind (·.chunk? i) with
  | none => rfl
  | some d =>
    obtain ⟨y, _, hy⟩ := Option.bind_eq_some_iff.mp hd
    exact (StreamCtx.idx_of_chunk? hy).trans h.symm

theorem State.resultDelivered_eq {s : State} {port : Fin 2} {r : EgressResult} {x : StreamCtx} {p : Package} {c : Chunk}
    (hr : nextResult (kgetD s.streams.egress port []) = some r) (hx : s.stream? r.stream = some x) (hp : s.pkg? x.modelSlot = some p)
    (hc : x.chunk? r.chunk = some c) : exec (.resultDelivered port) s = .next (
      if !x.be && x.lateDiscard && decide (c.deadline < s.now) then
        ((if c.missed then s else s.countMiss r.stream x c).dropResult port r.stream c.idx).chunkGone r.stream c.idx
      else if !(s.port port).up || (s.port port).holdUntil.isSome then s
      else if (s.resolveHop port x.remoteAddr).2 then s.deliver port r x p c
      else (s.resolveHop port x.remoteAddr).1) := by
  change execResultDelivered port s = _
  unfold execResultDelivered
  dsimp only
  rw [hr]
  dsimp only
  rw [hx]
  dsimp only
  rw [hp, hc]

theorem nextResult_be {q : List EgressResult} {r : EgressResult} (h : nextResult q = some r) (hbe : r.be = true) :
    ∀ o ∈ q, o.held = true → o.be = true := by
  unfold nextResult at h
  split at h
  · next u hbest =>
    cases h
    have hlc := (List.mem_filter.mp (mem_of_bestBy hbest)).2
    simp [hbe] at hlc
  · next hnone =>
    have hempty := bestBy_eq_none hnone
    intro o ho hheld
    by_contra hlc
    have hmem : o ∈ q.filter (fun r => !r.be && r.held) := List.mem_filter.mpr ⟨ho, by simp [hheld, hlc]⟩
    rw [hempty] at hmem
    cases hmem

theorem nextResult_deadline {q : List EgressResult} {r : EgressResult} (h : nextResult q = some r) (hlc : r.be = false) :
    ∀ o ∈ q, o.held = true → o.be = false → r.deadline ≤ o.deadline := by
  unfold nextResult at h
  split at h
  · next u hbest =>
    cases h
    exact fun o ho hheld hbe => bestBy_le (key := EgressResult.deadline) hbest o (List.mem_filter.mpr ⟨ho, by simp [hheld, hbe]⟩)
  · have hbe := List.find?_some h
    simp [hlc] at hbe

theorem State.deliver_onTime {s : State} {r : EgressResult} {x : StreamCtx} (port : Nat) (p : Package) {c : Chunk}
    (htime : (!x.be && !c.missed && decide (c.deadline < s.now)) = false) :
    s.deliver port r x p c = s.deliverFrames port r x p (((s.stream? r.stream).bind (·.chunk? r.chunk)).getD c) := by
  unfold State.deliver
  simp only [htime]
  rfl

theorem State.deliver_late {s : State} {r : EgressResult} {x : StreamCtx} (port : Nat) (p : Package) {c : Chunk}
    (hlate : (!x.be && !c.missed && decide (c.deadline < s.now)) = true) :
    s.deliver port r x p c = (s.countMiss r.stream x c).deliverFrames port r x p
      ((((s.countMiss r.stream x c).stream? r.stream).bind (·.chunk? r.chunk)).getD c) := by
  unfold State.deliver
  simp only [hlate]
  rfl

/-- A next hop that is not known is asked for. -/
theorem State.resolveHop_resolving {s : State} {port : Nat} {dst : IpAddr}
    (hhop : ((s.port port).hops.any (fun q => q.1 == s.nextHop port dst)) = false) :
    s.nextHop port dst ∈ ((s.resolveHop port dst).1.port port).resolving := by
  unfold State.resolveHop
  dsimp only
  rw [if_neg (by rw [hhop]; exact Bool.false_ne_true)]
  split
  · next h => exact List.contains_iff_mem.mp h
  · rw [(State.sendFrame_hops _ _ _).2, State.port_modPort_self]
    exact List.mem_append_right _ List.mem_cons_self

/-- Settles O18, by what a miss and what a delivery change. -/
theorem resultsAreDelivered : Obligations.ResultsAreDelivered := by
  unfold Obligations.ResultsAreDelivered
  refine ⟨?onTime, ?late, ?discarded, ?waits, fun q r h hbe => nextResult_be h hbe, fun q r h hlc => nextResult_deadline h hlc⟩
  case onTime =>
    intro s port r x p c hr hx hp hc htime hup hfree hhop
    have hin : (!x.be && decide (c.deadline < s.now)) = false := by
      rcases htime with hbe | htime
      · rw [hbe]
        rfl
      · rw [decide_eq_false (Nat.not_lt.mpr htime), Bool.and_false]
    have hdeliver : s.deliver port r x p c = _ := State.deliver_onTime port p (by rw [Bool.and_right_comm, hin, Bool.false_and])
    have hid := StreamCtx.idx_getD_chunk? (s.stream? r.stream) (StreamCtx.idx_of_chunk? hc)
    obtain ⟨⟨y, hy, hgone⟩, hothers, hdel, hmiss, hmem, hcores, hpersist⟩ := State.delivers_deliverFrames port x p
      (((s.stream? r.stream).bind (·.chunk? r.chunk)).getD c) hx
    rw [hid] at hgone
    refine ⟨_, y, (State.resultDelivered_eq hr hx hp hc).trans ?_, hy, hgone, hdel, hmiss, hothers, hmem, hcores, hpersist⟩
    rw [← hdeliver, if_neg (by rw [Bool.and_right_comm, hin]; exact Bool.false_ne_true), if_neg (by simp [hup, hfree]),
      if_pos (by simp [State.resolveHop, hhop])]
  case late =>
    intro s port r x p c hr hx hp hc hbe hkeep hlate hup hfree hhop
    have hexec := State.resultDelivered_eq hr hx hp hc
    rw [if_neg (by simp [hkeep]), if_neg (by simp [hup, hfree]), if_pos (by simp [State.resolveHop, hhop])] at hexec
    have hid (u : State) := StreamCtx.idx_getD_chunk? (u.stream? r.stream) (StreamCtx.idx_of_chunk? hc)
    cases hmissed : c.missed
    · obtain ⟨z, hz⟩ := State.countMiss_stream_self c hx
      have hd := State.delivers_deliverFrames port x p
        ((((s.countMiss r.stream x c).stream? r.stream).bind (·.chunk? r.chunk)).getD c) hz
      rw [hid] at hd
      obtain ⟨⟨y, hy, hgone⟩, hothers, hdel, hmiss, hmem, hcores, hpersist⟩ := hd.after_countMiss
      refine ⟨_, y, hexec.trans ?_, hy, hgone, hdel, hmiss, hothers, hmem, hcores, hpersist⟩
      rw [State.deliver_late port p (by rw [hbe, hmissed, decide_eq_true hlate]; rfl)]
    · have hd := State.delivers_deliverFrames port x p (((s.stream? r.stream).bind (·.chunk? r.chunk)).getD c) hx
      rw [hid] at hd
      obtain ⟨⟨y, hy, hgone⟩, hothers, hdel, hmiss, hmem, hcores, hpersist⟩ := hd
      refine ⟨_, y, hexec.trans ?_, hy, hgone, hdel, hmiss, hothers, hmem, hcores, hpersist⟩
      rw [State.deliver_onTime port p (by simp [hmissed])]
  case discarded =>
    intro s port r x p c hr hx hp hc hbe hdiscard hlate
    have hexec := State.resultDelivered_eq hr hx hp hc
    rw [if_pos (by rw [hbe, hdiscard, decide_eq_true hlate]; rfl)] at hexec
    cases hmissed : c.missed
    · obtain ⟨z, hz⟩ := State.countMiss_stream_self c hx
      have hd : Delivers (s.countMiss r.stream x c) _ r.stream c.idx 0 :=
        Delivers.drop port c.idx hz (fun _ _ => rfl) rfl rfl rfl rfl rfl
      obtain ⟨⟨y, hy, hgone⟩, hothers, hdel, hmiss, hmem, hcores, hpersist⟩ := hd.after_countMiss
      refine ⟨_, y, hexec.trans ?_, hy, hgone, hdel, hmiss, ?_, hothers, hmem, hcores, hpersist⟩
      · rw [hmissed, if_neg Bool.false_ne_true]
      · exact ((s.countMiss r.stream x c).dropResult_counts port r.stream c.idx).2.2.trans (by simp)
    · have hd : Delivers s _ r.stream c.idx 0 := Delivers.drop port c.idx hx (fun _ _ => rfl) rfl rfl rfl rfl rfl
      obtain ⟨⟨y, hy, hgone⟩, hothers, hdel, hmiss, hmem, hcores, hpersist⟩ := hd
      refine ⟨_, y, hexec.trans ?_, hy, hgone, hdel, hmiss, ?_, hothers, hmem, hcores, hpersist⟩
      · rw [hmissed, if_pos rfl]
      · exact (s.dropResult_counts port r.stream c.idx).2.2
  case waits =>
    intro s port r x p c hr hx hp hc hserve
    have hexec := State.resultDelivered_eq hr hx hp hc
    have hserved : ¬ (!x.be && x.lateDiscard && decide (c.deadline < s.now)) = true := by
      rcases hserve with h | h | h
      · simp [h]
      · simp [h]
      · simp only [decide_eq_false (Nat.not_lt.mpr h), Bool.and_false]
        exact Bool.false_ne_true
    rw [if_neg hserved] at hexec
    refine ⟨fun hdown => ?_, fun hup hfree hhop => ?_⟩
    · rwa [if_pos] at hexec
      rcases hdown with h | h
      · simp [h]
      · simp [Option.isSome_iff_ne_none.mpr h]
    · have hunknown : (s.resolveHop port x.remoteAddr).2 = false := by
        unfold State.resolveHop
        dsimp only
        rw [if_neg (by rw [hhop]; exact Bool.false_ne_true)]
        split <;> rfl
      rw [if_neg (by simp [hup, hfree]), if_neg (by rw [hunknown]; exact Bool.false_ne_true)] at hexec
      exact ⟨_, hexec, State.resolveHop_resolving hhop, by simp, by simp, by simp, by simp⟩

end Sys2Proof.Machine

/-! PROOFS. Folds of one part's updates change that part alone. -/

namespace Sys2Proof.Machine
open Sys2Proof.Safety

/-- Updates of cores change the cores alone. -/
theorem State.foldl_modCore {β : Type} (l : List β) (g : β → Nat) (f : β → Core → Core) (s : State) :
    ∃ cores, l.foldl (fun t x => t.modCore (g x) (f x)) s = { s with cores := cores } := by
  induction l generalizing s with
  | nil => exact ⟨s.cores, rfl⟩
  | cons x l ih => exact ih (s.modCore (g x) (f x))

@[simp] theorem State.foldl_modCore_frame {β : Type} (l : List β) (g : β → Nat) (f : β → Core → Core) (s : State) :
    (l.foldl (fun t x => t.modCore (g x) (f x)) s).pending = s.pending ∧ (l.foldl (fun t x => t.modCore (g x) (f x))
    s).draws = s.draws ∧ (l.foldl (fun t x => t.modCore (g x) (f x)) s).aon = s.aon ∧ (l.foldl (fun t x => t.modCore (g x)
    (f x)) s).time = s.time ∧ (l.foldl (fun t x => t.modCore (g x) (f x)) s).persist = s.persist ∧ (l.foldl (fun t x =>
    t.modCore (g x) (f x)) s).flash = s.flash ∧ (l.foldl (fun t x => t.modCore (g x) (f x)) s).streams = s.streams ∧
    (l.foldl (fun t x => t.modCore (g x) (f x)) s).ctxs = s.ctxs ∧ (l.foldl (fun t x => t.modCore (g x) (f x)) s).mem =
    s.mem ∧ (l.foldl (fun t x => t.modCore (g x) (f x)) s).recov = s.recov ∧ (l.foldl (fun t x => t.modCore (g x) (f x))
    s).clotha = s.clotha ∧ (l.foldl (fun t x => t.modCore (g x) (f x)) s).net = s.net ∧ (l.foldl (fun t x => t.modCore (g
    x) (f x)) s).links = s.links ∧ (l.foldl (fun t x => t.modCore (g x) (f x)) s).svc = s.svc := by
  obtain ⟨cores, hcores⟩ := State.foldl_modCore l g f s
  rw [hcores]
  exact ⟨rfl, rfl, rfl, rfl, rfl, rfl, rfl, rfl, rfl, rfl, rfl, rfl, rfl, rfl⟩

end Sys2Proof.Machine

/-! PROOFS. Requests of the Clotha protocol: how they are received, answered and kept (R542, R548 to R562). -/

namespace Sys2Proof.Machine
open Sys2Proof.Safety

/-- Settles O19. -/
theorem readRequestsAreAnswered : Obligations.ReadRequestsAreAnswered := by
  unfold Obligations.ReadRequestsAreAnswered
  refine ⟨?ping, ?read, ?table, ?info⟩
  case ping => exact fun s t r c h => congrArg Host.Outcome.next (State.apply_takes _ h)
  case read => exact fun s t r c h => congrArg Host.Outcome.next (State.apply_takes _ h)
  case table =>
    intro s t r c e o h he ho
    refine congrArg Host.Outcome.next ((State.apply_takes _ h).trans ?_)
    dsimp only
    rw [he]
    dsimp only
    rw [ho]
  case info => exact fun s t r c h => congrArg Host.Outcome.next (State.apply_takes _ h)

/-! ### Responses -/

theorem length_toLe (n v : Nat) : (toLe n v).length = n := by
  induction n generalizing v with
  | zero => rfl
  | succ n ih => exact congrArg (· + 1) (ih _)

theorem Msg.length_head (m : Msg) : m.head.length = 32 + m.body.length := by
  simp [Msg.head, length_toLe]
  omega

theorem State.emit_mgmt {s : State} {m : Msg} (hvia : m.via = .mgmt) : ∃ tag, (s.emit m).clotha = { s.clotha with
    respBox := m.head ++ tag, bulk := m.bulk, reqBusy := false, respValid := true, respBytes := (m.head ++ tag).length }
      ∧ (s.emit m).net = s.net := by
  unfold State.emit
  rw [hvia]
  exact ⟨_, rfl, rfl⟩

/-- A response that no kept request waits for leaves as it is sent. -/
theorem State.finish_eq {s : State} {m : Msg} (htime : m.time = s.now) (hsent : (s.emit m).clotha.kept = s.clotha.kept)
    (hkept : s.clotha.kept.find? (fun k => k.req.keyId == m.keyId && k.req.reqId == m.reqId && k.resp.isNone) = none) :
    s.finish m = (s.emit m).countComm m.via.no 0 := by
  have hm : { m with time := s.now } = m := by rw [← htime]
  unfold State.finish
  dsimp only
  rw [hm]
  have hnone : ((s.emit m).countComm m.via.no 0).clotha.kept.find?
      (fun k => k.req.keyId == m.keyId && k.req.reqId == m.reqId && k.resp.isNone) = none := by
    rwa [← hsent] at hkept
  rw [hnone]

/-- Settles O21. -/
theorem responsesChangeNothingElse : Obligations.ResponsesChangeNothingElse := by
  unfold Obligations.ResponsesChangeNothingElse
  refine ⟨?mailbox, ?frame, ?answers⟩
  case mailbox =>
    intro s r code body bulk hvia hlen hkept
    let m := r.msg s.now code body bulk true
    obtain ⟨tag, hemit, hnet⟩ := State.emit_mgmt (s := s) (m := m) hvia
    have hrespond : s.respond r code body bulk = (s.emit m).countComm m.via.no 0 :=
      (if_neg (by simp [bodyLimit, hvia, hlen])).trans (State.finish_eq rfl (by rw [hemit]) hkept)
    have hclotha : (s.respond r code body bulk).clotha = { (s.emit m).clotha with
        stats := bumpIn (s.emit m).clotha.stats 6 m.via.no 0 1 } := congrArg State.clotha hrespond
    refine ⟨?_, ?_, ?_, ?_, ?_⟩
    · rw [hclotha, hemit]
      exact List.take_left' m.length_head
    · rw [hclotha, hemit]
    · rw [hclotha, hemit]
    · rw [hclotha, hemit]
      rfl
    · exact (congrArg State.net hrespond).trans hnet
  case frame =>
    intro s r code body bulk
    simp
  case answers =>
    intro x r e
    unfold answered
    dsimp only
    split <;> simp

/-! ### The counter window -/

theorem bit_eq_testBit (n i : Nat) : bit n i = n.testBit i := by
  rw [Nat.testBit_eq_decide_div_mod_eq, ← Nat.shiftRight_eq_div_pow]
  rfl

theorem KeyRec.count_above {k : KeyRec} {c : Nat} (h : k.high < c) : ∃ k', k.count c = .fresh k' ∧ k'.high = c ∧ bit k'.seen.toNat 0 = true := by
  unfold KeyRec.count
  rw [if_neg (by omega), if_pos h]
  refine ⟨_, rfl, rfl, ?_⟩
  rw [bit_eq_testBit, BitVec.toNat_or, Nat.testBit_or]
  exact Bool.or_eq_true_iff.mpr (.inr (by decide))

/-- Settles O23. -/
theorem counterWindow : Obligations.CounterWindow := by
  unfold Obligations.CounterWindow
  refine ⟨?above, ?below, ?once⟩
  case above =>
    intro k c h
    obtain ⟨k', hk', hhigh, _⟩ := KeyRec.count_above h
    exact ⟨k', hk', hhigh⟩
  case below => exact fun k c h => if_pos h
  case once =>
    intro k k' c h
    by_cases habove : k.high < c
    · obtain ⟨k2, hk2, hhigh, hbit⟩ := KeyRec.count_above habove
      rw [h] at hk2
      cases hk2
      refine ⟨?_, by omega⟩
      unfold KeyRec.count
      rw [if_neg (by omega), if_neg (by omega), if_pos (.inr (by rwa [hhigh, Nat.sub_self]))]
    · unfold KeyRec.count at h
      rw [if_neg habove] at h
      split_ifs at h with hold hseen
      cases h
      refine ⟨?_, le_refl _⟩
      have hshift : 2 ^ (k.high - c) < 2 ^ 64 := Nat.pow_lt_pow_right (by omega) (by omega)
      have hbit : bit (k.seen ||| BitVec.ofNat 64 (2 ^ (k.high - c))).toNat (k.high - c) = true := by
        rw [bit_eq_testBit, BitVec.toNat_or, Nat.testBit_or, BitVec.toNat_ofNat, Nat.mod_eq_of_lt hshift, Nat.testBit_two_pow_self,
          Bool.or_true]
      exact (if_neg hold).trans ((if_neg habove).trans (if_pos (.inr hbit)))

/-! ### Kept responses and commits -/

theorem State.drainCheck_pending (s : State) : s.drainCheck.aon.pending = s.aon.pending := by
  unfold State.drainCheck
  split <;> rfl

/-- Settles O24. -/
theorem keptResponsesAndCommits : Obligations.KeptResponsesAndCommits := by
  unfold Obligations.KeptResponsesAndCommits
  refine ⟨?expiry, ?commit, ?record⟩
  case expiry =>
    intro s key req
    refine ⟨_, rfl, fun k => ?_, rfl⟩
    rw [List.mem_filter, Bool.not_eq_true', ← Bool.not_eq_true]
    simp only [Bool.and_eq_true, beq_iff_eq, decide_eq_true_eq, and_assoc]
  case commit =>
    intro s c l hpend hcommits
    refine ⟨_, rfl, ?_⟩
    unfold State.commitDone
    rw [hpend, hcommits]
    dsimp only
    split <;> simp
  case record =>
    intro s r hpend
    refine ⟨_, rfl, ?_⟩
    unfold State.commitDone
    rw [hpend]
    rw [State.drainCheck_pending]
    simp [commitShutdown, hpend]

end Sys2Proof.Machine

/-! PROOFS. Requests that arrive, and the bulk requests (R553 to R562, R647, R653). -/

namespace Sys2Proof.Machine
open Sys2Proof.Safety

theorem State.queue_emit (s : State) (m : Msg) : (s.emit m).clotha.queue = s.clotha.queue := by
  unfold State.emit
  split
  · simp
  · rfl

theorem State.queue_answerNow (s : State) (r : Req) (code : Word16) (body : List Byte) (tagged : Bool) :
    (s.answerNow r code body tagged).clotha.queue = s.clotha.queue := s.queue_emit _

theorem State.queue_authFail (s : State) (r : Req) (code : Word16) : (s.authFail r code).clotha.queue = s.clotha.queue := by
  unfold State.authFail
  dsimp only
  split
  · exact State.queue_answerNow ..
  · split <;> split_ifs <;> rfl

theorem State.queue_tooOld (s : State) (r : Req) (high : Nat) : (s.tooOld r high).clotha.queue = s.clotha.queue := by
  unfold State.tooOld
  dsimp only
  split
  · exact State.queue_answerNow ..
  · split_ifs
    · exact State.queue_answerNow ..
    · rfl
    · exact State.queue_answerNow ..
    · rfl

/-- A message whose counter is seen or too old is answered at most: no request is queued and no value changes. -/
theorem State.receive_stale {s : State} {via : Via} {msg : List Byte} {n : Nat} {k : KeyRec}
    (hkey : s.findKey via (leAt (slice msg 0 32) 4 2) = some (n, k))
    (hstale : k.count (leAt (slice msg 0 32) 8 8) = .seen ∨ k.count (leAt (slice msg 0 32) 8 8) = .tooOld) :
    (s.receive via msg true).clotha.queue = s.clotha.queue ∧ (s.receive via msg true).persist = s.persist := by
  unfold State.receive
  dsimp only
  rw [hkey]
  by_cases hshort : msg.length < 96
  · rw [if_pos hshort]
    split
    · exact ⟨State.queue_answerNow .., by simp⟩
    · exact ⟨State.queue_authFail .., by simp⟩
  · rw [if_neg hshort]
    dsimp only
    rw [if_neg (by simp)]
    rcases hstale with h | h
    · rw [h]
      dsimp only
      split
      · exact ⟨State.queue_answerNow .., by simp⟩
      · exact ⟨rfl, rfl⟩
    · rw [h]
      exact ⟨State.queue_tooOld .., by simp⟩

/-- A request that no kept request answers is queued last. -/
theorem State.enqueue_new {s : State} {r : Req} (hkept : ∀ q ∈ s.clotha.kept, ¬(q.req.keyId = r.keyId ∧ q.req.reqId = r.reqId))
    (hroom : r.via = .mgmt ∨ s.reqsOf r.via.no < 256) : (s.enqueue r).clotha.queue = s.clotha.queue ++ [r] := by
  unfold State.enqueue
  rw [List.find?_eq_none.mpr]
  · dsimp only
    rw [if_neg]
    rcases hroom with h | h
    · simp [h]
    · omega
  · intro q hq hmatch
    simp only [Bool.and_eq_true, beq_iff_eq] at hmatch
    exact hkept q hq hmatch.1

theorem State.acceptCounter_clotha (s : State) (n : Nat) (k : KeyRec) :
    (s.acceptCounter n k).clotha.queue = s.clotha.queue ∧ (s.acceptCounter n k).clotha.kept = s.clotha.kept := by
  unfold State.acceptCounter
  split <;> exact ⟨rfl, rfl⟩

/-- Settles O22. -/
theorem requestsAreReceived : Obligations.RequestsAreReceived := by
  unfold Obligations.RequestsAreReceived
  refine ⟨?arrives, ?fresh, fun s via msg n k hkey hstale => State.receive_stale hkey hstale⟩
  case arrives =>
    intro s port src sport msg ok hup hon hready hfits hfifo
    have hpool : (s.countPort port 2).net.poolFits (2 + port) 1 = true := hfits
    have hwait (f : FifoFrame) (hf : f.media = false) : (s.countPort port 2).fifoWait port f = none := by
      unfold State.fifoWait
      simp only [hf, Bool.false_eq_true, if_false, hpool, State.countPort_fifo, hfifo]
      rfl
    change execClothaRequestReceive port src sport msg ok s = _
    unfold execClothaRequestReceive
    dsimp only
    rw [if_neg (fun h => h.elim (by simp [hup]) hon), if_neg (by simp [hready]), hwait _ rfl]
  case fresh =>
    intro s via msg n k k' hlen hkey hcount htests hkept hroom
    obtain ⟨hqueue, hsame⟩ := s.acceptCounter_clotha n k'
    have hreceive : s.receive via msg true = (s.acceptCounter n k').enqueue
        { via := via, opcode := leAt (slice msg 0 32) 1 1, keyId := leAt (slice msg 0 32) 4 2, counter := leAt (slice msg 0 32) 8 8
          reqId := leAt (slice msg 0 32) 16 4, body := (msg.drop 32).take (msg.length - 96) } := by
      unfold State.receive
      dsimp only
      rw [if_neg (Nat.not_lt.mpr hlen), hkey]
      dsimp only
      rw [if_neg (by simp), hcount]
      dsimp only
      rw [htests]
    rw [hreceive]
    refine ⟨_, (State.enqueue_new ?_ ?_).trans (by rw [hqueue]), rfl, rfl, rfl, rfl, rfl⟩
    · rw [hsame]
      exact hkept
    · unfold State.reqsOf
      rw [hqueue]
      exact hroom

/-- Settles O25. -/
theorem bulkRequestsAreServed : Obligations.BulkRequestsAreServed := by
  unfold Obligations.BulkRequestsAreServed
  refine ⟨?dump, ?events, ?firmware, ?stages, ?package, ?segment⟩
  case dump =>
    intro s t r c h hrole
    refine congrArg Host.Outcome.next ((State.apply_takes _ h).trans ?_)
    dsimp only
    rw [hrole]
    rfl
  case events =>
    intro s t r c h hrole
    refine congrArg Host.Outcome.next ((State.apply_takes _ h).trans ?_)
    dsimp only
    rw [hrole]
    rfl
  case firmware =>
    intro s t r c h hrole
    refine congrArg Host.Outcome.next ((State.apply_takes _ h).trans ?_)
    dsimp only
    rw [hrole]
    rfl
  case stages =>
    intro s t r c h hrole hroom hstate
    obtain ⟨l, rfl⟩ := takes_frame h
    have hexec : exec .bulkWriteFirmwareStaging s = .next _ := congrArg Host.Outcome.next ((State.apply_takes _ h).trans
      ((if_neg (by simp [hrole])).trans ((if_neg (Nat.not_lt.mpr hroom)).trans (if_neg hstate))))
    refine ⟨_, hexec, by simp [State.commitPersist], ?_, by simp, by simp, by simp⟩
    exact ⟨_, State.commits_respond .., by simp [State.commitPersist], rfl⟩
  case package =>
    intro s t r c m g h hrole hm hstate
    refine congrArg Host.Outcome.next ((State.apply_takes _ h).trans ?_)
    dsimp only
    rw [hm]
    dsimp only
    rw [if_neg, if_neg (by simp [hstate])]
    rintro (⟨hop, htenant⟩ | ⟨hrole2, htenant⟩)
    · rcases hrole with h1 | ⟨h2, _⟩
      · exact hop h1
      · exact htenant h2
    · rcases hrole with h1 | ⟨_, h2⟩
      · rw [h1] at hrole2
        exact absurd hrole2 (by decide)
      · exact htenant h2
  case segment =>
    intro s part g
    refine ⟨fun h => ?_, fun h => if_neg h⟩
    unfold State.placeSegment
    dsimp only
    rw [if_pos h]
    rfl

end Sys2Proof.Machine

/-! PROOFS. Jobs, partitions and models (R428 to R431, R455 to R457, R652, R654). -/

namespace Sys2Proof.Machine
open Sys2Proof.Safety

/-- What an action changes stands unchanged by its answer. -/
theorem answered_frame (x : ActRes) (r : Req) (e : Entry) :
    (answered x r e).persist = x.next.persist ∧ (answered x r e).flash = x.next.flash ∧ (answered x r e).streams = x.next.streams
      ∧ (answered x r e).cores = x.next.cores ∧ (answered x r e).mem = x.next.mem ∧ (answered x r e).links = x.next.links
      ∧ (answered x r e).time = x.next.time ∧ (answered x r e).aon = x.next.aon ∧ (answered x r e).recov = x.next.recov
      ∧ (answered x r e).svc = x.next.svc ∧ (answered x r e).ctxs = x.next.ctxs :=
  responsesChangeNothingElse.2.2 x r e

/-- The state without the taken request has every part but the protocol's as it was. -/
theorem takes_same {s t : State} {k : Kind} {r : Req} {c : Caller} (h : Takes s k r c t) :
    t.persist = s.persist ∧ t.flash = s.flash ∧ t.streams = s.streams ∧ t.cores = s.cores ∧ t.mem = s.mem ∧ t.links = s.links
      ∧ t.time = s.time ∧ t.aon = s.aon ∧ t.recov = s.recov ∧ t.svc = s.svc ∧ t.ctxs = s.ctxs ∧ t.net = s.net := by
  obtain ⟨l, rfl⟩ := takes_frame h
  exact ⟨rfl, rfl, rfl, rfl, rfl, rfl, rfl, rfl, rfl, rfl, rfl, rfl⟩

/-- An action whose entry passes its tests is answered with what it says. -/
theorem exec_act {s t : State} {i j : Nat} {r : Req} {c : Caller} {e : Entry} {f : State → Caller → Entry → ActRes} {x : ActRes}
    (h : TakesAction s i j r c e t) (hx : f t c e = x) : Host.Outcome.next (s.act i j f) = (.next (answered x r e) : Host.Outcome State Fault Refusal) := by
  rw [State.act_takes f h, hx]

theorem firstBad_nil : firstBad [] = none := rfl
theorem firstBad_cons_false {l : List (Bool × Word16)} {b : Bool} {c : Word16} (h : b = false) : firstBad ((b, c) :: l) = firstBad l := by
  subst h
  rfl

theorem State.job?_cancelJob {s : State} {id : Nat} {j : Job} (h : s.job? id = some j) :
    (s.cancelJob id).job? id = some { j with state := 4, grant := s.jobInFlight id } := by
  unfold State.job? at h
  unfold State.cancelJob
  simp [State.job?, State.modJob, h]

/-- Settles O27. -/
theorem jobsAreSubmittedAndCancelled : Obligations.JobsAreSubmittedAndCancelled := by
  unfold Obligations.JobsAreSubmittedAndCancelled
  refine ⟨?submit, ?cancel⟩
  case submit =>
    intro s t r c e m p slot h hz1 hz2 hz3 hz4 hsteps hforeign hdrain hmodel hquota hslot
    refine exec_act h ?_
    simp [hz1, hz2, hz3, hz4, hsteps, hforeign, hdrain, hmodel, hquota, hslot, firstBad]
  case cancel =>
    intro s t r c e j h hid hj hforeign hstate
    have hexec : exec .jobCancel s = .next (answered { code := 0, next := t.cancelJob (leAt e.value 0 2) } r e) := by
      refine exec_act h ?_
      have hrun : ¬ (j.state ≠ 1 ∧ j.state ≠ 2) := by omega
      simp only [if_neg hid, hj, hforeign, if_neg hrun]
      rfl
    obtain ⟨hpersist, _, hstreams, _, hmem, _, _, _, _, hsvc, _⟩ :=
      answered_frame { code := 0, next := t.cancelJob (leAt e.value 0 2) } r e
    have hjob : (answered { code := 0, next := t.cancelJob (leAt e.value 0 2) } r e).job? (leAt e.value 0 2)
        = some { j with state := 4, grant := t.jobInFlight (leAt e.value 0 2) } := by
      unfold State.job?
      rw [hsvc]
      exact State.job?_cancelJob hj
    obtain ⟨tpersist, _, tstreams, _, tmem, _⟩ := takes_same h.1
    exact ⟨_, _, hexec, hjob, rfl, rfl, hpersist.trans (by simp [tpersist]), hmem.trans (by simp [tmem]),
      hstreams.trans (by simp [tstreams])⟩

/-- Settles O28. -/
theorem partitionsAreCreatedAndDestroyed : Obligations.PartitionsAreCreatedAndDestroyed := by
  unfold Obligations.PartitionsAreCreatedAndDestroyed
  refine ⟨?create, ?ready, ?destroy⟩
  case create =>
    intro s t ch r c e h htests hext hchoice hgrants
    have hexec : exec (.partitionCreate ch) s = .next (answered
        { code := 0, next := t.createPart (recBits e.value 2 0) (partRecOf e.value t.now ch) ch, commit := true } r e) := by
      refine exec_act h ?_
      dsimp only
      rw [htests]
      dsimp only
      rw [hext, hgrants, hchoice]
      rfl
    obtain ⟨l, rfl⟩ := takes_frame h.1
    refine ⟨_, hexec, ?_⟩
    rw [answered_of_commit r e rfl]
    have hpersist (u : State) (n : Nat) (p : PartRec) : (u.createPart n p ch).persist = { u.persist with
      parts := kset u.persist.parts n p
      extents := ch.extents.foldl (fun m q => kset m (q.1 * 144 + q.2) n) u.persist.extents } := by
      unfold State.createPart
      simp
    simp only [State.respondCommitted_frame, hpersist, kget?_kset_self, true_and]
    exact ⟨fun n hn => kget?_kset_ne _ _ hn, by simp, by simp, by simp⟩
  case ready =>
    intro s p n hn
    refine congrArg Host.Outcome.next (if_pos ?_)
    rw [hn]
    rfl
  case destroy =>
    intro s t r c e p h hlt hp hbusy
    have hexec : exec .partitionDestroy s = .next (answered
        { code := 0, next := t.destroyPart (leAt e.value 0 1) p, commit := true } r e) := by
      refine exec_act h ?_
      dsimp only
      rw [if_neg (Nat.not_le.mpr hlt), hp]
      dsimp only
      rw [hbusy]
      rfl
    obtain ⟨l, rfl⟩ := takes_frame h.1
    refine ⟨_, hexec, ?_⟩
    rw [answered_of_commit r e rfl]
    have hpersist (u : State) (n : Nat) : (u.destroyPart n p).persist = { u.persist with
        parts := kdel u.persist.parts n, extents := u.persist.extents.filter (fun q => q.2 != n) } := by
      unfold State.destroyPart
      simp
    have hmodels (u : State) (n : Nat) : ∀ q ∈ (u.destroyPart n p).svc.models, q.2.part ≠ n := by
      intro q hq
      have hq' : q ∈ List.filter (fun q => q.2.part != n) _ := hq
      simpa using (List.mem_filter.mp hq').2
    simp only [State.respondCommitted_frame, hpersist, kget?_kdel_self, true_and]
    refine ⟨fun q hq => ?_, hmodels _ _, by simp, by simp, by simp⟩
    simpa using (List.mem_filter.mp hq).2

end Sys2Proof.Machine

/-! PROOFS. Models are staged, loaded and removed (R652, R654). -/

namespace Sys2Proof.Machine
open Sys2Proof.Safety

theorem State.allocate_some {s : State} {slot part die bytes : Nat} (h : s.allocOk slot part die bytes (s.lowestFree part die bytes) = true) :
    ∃ l, s.allocate slot part die bytes = some l ∧ s.allocOk slot part die bytes l = true := by
  have hsome : (s.allocate slot part die bytes).isSome = true := by
    unfold State.allocate
    exact List.find?_isSome.mpr ⟨_, List.mem_cons_of_mem _ List.mem_cons_self, h⟩
  obtain ⟨l, hl⟩ := Option.isSome_iff_exists.mp hsome
  exact ⟨l, hl, List.find?_some hl⟩

/-- Contexts that are added change no model slot. -/
theorem State.foldl_addCtx_models (l : List CtxInit) (part : Nat) (slot : Option Nat) (s : State) :
    (l.foldl (fun t i => t.addCtx part slot i) s).svc.models = s.svc.models := by
  refine foldl_proj (fun t => t.svc.models) _ (fun t i => ?_) l s
  unfold State.addCtx
  dsimp only
  split <;> rfl

/-- Settles O29. -/
theorem modelsAreStagedLoadedRemoved : Obligations.ModelsAreStagedLoadedRemoved := by
  unfold Obligations.ModelsAreStagedLoadedRemoved
  refine ⟨?stage, ?load, ?remove⟩
  case stage =>
    intro s t r c e p h hz1 hz2 hslot hpart hdie hp hforeign hdrain habsent hcores hquota halloc
    obtain ⟨l, hl, hok⟩ := State.allocate_some halloc
    let m : ModelSlot := { state := 1, modelId := leAt e.value 4 2, part := leAt e.value 1 1, die := leAt e.value 2 1
                           bytes := leAt e.value 8 8, alloc := l }
    let u := t.install (stageGrants (leAt e.value 0 1) (leAt e.value 1 1) l)
    let x : ActRes := { code := 0, next := { u with draws := u.draws + 1, svc := { u.svc with models := kset u.svc.models (leAt e.value 0 1) m } } }
    have hexec : exec .modelStage s = .next (answered x r e) := by
      refine exec_act h ?_
      have hnone : t.partTenant (leAt e.value 1 1) = some p.tenant := by simp [State.partTenant, hp]
      simp [firstBad, hz1, hz2, Nat.not_le.mpr hslot, Nat.not_le.mpr hpart, Nat.not_le.mpr hdie, hp, hnone, hforeign, hdrain, habsent, hcores,
        hquota, hl, x, u, m]
    obtain ⟨apersist, _, _, acores, amem, _, _, _, _, asvc, _⟩ := answered_frame x r e
    obtain ⟨tpersist, _, _, tcores, tmem, _⟩ := takes_same h.1
    refine ⟨answered x r e, m, hexec, ?_, rfl, rfl, rfl, rfl, rfl, hok, ?_, amem.trans tmem, acores.trans tcores, apersist.trans tpersist⟩
    · unfold State.model?
      rw [asvc]
      exact kget?_kset_self ..
    · rw [asvc]
      rfl
  case load =>
    intro s t ch r c e m h hslot hforeign hdrain hm hstate htests hctxs hgranted
    let x : ActRes := { code := 0, next := t.acceptLoad (leAt e.value 0 1) m (m.package ch.pkg) ch.ctxs }
    have hexec : exec (.modelLoad ch) s = .next (answered x r e) := by
      refine exec_act h ?_
      simp [firstBad, Nat.not_le.mpr hslot, hforeign, hdrain, hm, hstate, htests, hctxs, hgranted, x]
    obtain ⟨apersist, _, astreams, _, amem, _, _, _, _, asvc, _⟩ := answered_frame x r e
    obtain ⟨tpersist, _, tstreams, _, tmem, _⟩ := takes_same h.1
    have hmodel : (answered x r e).model? (leAt e.value 0 1)
        = some { m with state := 2, manifest := [], covered := [], segs := [], pkg := some (m.package ch.pkg) } := by
      unfold State.model?
      rw [asvc]
      exact (congrArg (kget? · _) (State.foldl_addCtx_models ..)).trans (kget?_kset_self ..)
    exact ⟨answered x r e, _, hexec, hmodel, rfl, rfl, rfl, rfl, apersist.trans (by simp [x, tpersist]), amem.trans (by simp [x, tmem]),
      astreams.trans (by simp [x, tstreams])⟩
  case remove =>
    intro s t r c e m h hm hforeign hunused hjobs
    let u := (t.dropCtxs (fun x => x.slot == some (leAt e.value 0 1))).uninstall (·.ofSlot (leAt e.value 0 1))
    let x : ActRes := { code := 0, next := { u with svc := { u.svc with models := kdel u.svc.models (leAt e.value 0 1) } } }
    have hexec : exec .modelRemove s = .next (answered x r e) := by
      refine exec_act h ?_
      have hstreams : t.streams.ctx.any (fun q => q.2.modelSlot == leAt e.value 0 1) = false := by
        simpa using hunused
      simp only [hm, hforeign, hstreams, hjobs]
      rfl
    obtain ⟨apersist, _, astreams, _, _, _, _, _, _, asvc, _⟩ := answered_frame x r e
    obtain ⟨tpersist, _, tstreams, _⟩ := takes_same h.1
    refine ⟨answered x r e, hexec, ?_, astreams.trans (by simp [x, u, tstreams]), apersist.trans (by simp [x, u, tpersist])⟩
    unfold State.model?
    rw [asvc]
    exact kget?_kdel_self ..

end Sys2Proof.Machine

/-! PROOFS. ME_RELEASE is no step of its core's engines alone: where the core stays overcommitted it marks the cause on the open
chunks of the core's streams (R54, R81, R232). -/

namespace Sys2Proof.Machine
open Sys2Proof.Safety

/-- An operator's write of one action over the management port. -/
def operatorWrite (e : Entry) : Req :=
  { via := .mgmt, opcode := 2, keyId := 1, counter := 1, reqId := 0, body := entryOut e.index e.sub e.typ false 0 e.value }

/-- A state whose dictionary answers and that has an operator's key and one request of the operator. -/
def State.asked (s : State) (e : Entry) : State :=
  { s with
    clotha := { s.clotha with dictReady := true, queue := [operatorWrite e] }
    persist := { s.persist with keys := [(0, { keyId := 1, role := 1, tenant := 0, enrolledNs := 0, wrapped := [], high := 0, seen := 0, reserve := 0 })] } }

def State.unasked (s : State) (e : Entry) : State := { s.asked e with clotha := { (s.asked e).clotha with queue := [] } }

theorem entry_fits {e : Entry} (h : (objAt e.index e.sub).any (fun o => e.typ == o.typ && e.value.length == o.len) = true) :
    ∃ o, objAt e.index e.sub = some o ∧ e.typ = o.typ ∧ e.value.length = o.len := by
  obtain ⟨o, ho, hfits⟩ := (Option.any_eq_true _ _).mp h
  simp only [Bool.and_eq_true, beq_iff_eq] at hfits
  exact ⟨o, ho, hfits.1, hfits.2⟩

/-- The write that releases engine 0 of core 0. -/
def releaseEntry : Entry := { index := 0x8013, sub := 0, typ := 3, value := [1, 0] }

theorem releaseEntry_taken : TakesAction (overcommittedState.asked releaseEntry) 0x8013 0 (operatorWrite releaseEntry)
    { role := 1, tenant := 0 } releaseEntry (overcommittedState.unasked releaseEntry) := by
  refine ⟨⟨rfl, [], ?_, rfl, ?_⟩, ?_, ?_, ?_⟩
  · decide +kernel
  · decide +kernel
  · decide +kernel
  · decide +kernel
  · exact entry_fits (by decide +kernel)

theorem releaseEntry_marks : ((overcommittedState.unasked releaseEntry).releaseEngines 0 1).streams.ctx.map
    (fun q => q.2.chunks.map Chunk.causes) = [[], [[2]]] := by
  decide +kernel

/-- Refutes O30: where the core of released engines stays overcommitted, the open chunks of its streams are marked with the
overload, so the streams do not stand as they stood. -/
theorem not_recoveryActions : ¬ Obligations.RecoveryActions := by
  unfold Obligations.RecoveryActions
  rintro ⟨hrelease, _⟩
  obtain ⟨u, hu, _, _, _, hstreams, _⟩ := hrelease _ _ _ _ _ releaseEntry_taken
  cases (exec_act releaseEntry_taken rfl).symm.trans hu
  rw [(answered_frame _ _ _).2.2.1] at hstreams
  have hsame := releaseEntry_marks.symm.trans (congrArg (fun l => l.ctx.map (fun q => q.2.chunks.map Chunk.causes)) hstreams)
  exact absurd hsame (by decide)

end Sys2Proof.Machine

/-! PROOFS. Firmware, attestation, keys, time, alerts and the drain (R601, R612, R642, R648 to R650, R656, R678, R698, R699). -/

namespace Sys2Proof.Machine
open Sys2Proof.Safety

theorem Persist.fwSlot_modFw_self (p : Persist) (i : Nat) (f : FwSlot → FwSlot) : (p.modFw i f).fwSlot i = f (p.fwSlot i) :=
  kgetD_kset_self ..

theorem Persist.fwSlot_modFw_ne (p : Persist) {i j : Nat} (f : FwSlot → FwSlot) (h : j ≠ i) : (p.modFw i f).fwSlot j = p.fwSlot j :=
  kgetD_kset_ne _ _ _ h

/-- The persistent values when a slot is activated: it is active, and the other of its pair is not. -/
theorem State.activate_persist (s : State) {slot : Nat} (h : slot < 4) : ((s.activate slot).persist.fwSlot slot).state = 3
    ∧ ((s.activate slot).persist.fwSlot (slot ^^^ 1)).state ≠ 3 := by
  have hne : slot ^^^ 1 ≠ slot := (by decide : ∀ n < 4, n ^^^ 1 ≠ n) slot h
  have hpersist : (s.activate slot).persist = if (s.persist.fwSlot (slot ^^^ 1)).state = 3 then
      (s.persist.modFw slot (fun f => { f with state := 3 })).modFw (slot ^^^ 1) (fun f => { f with state := 2 })
      else s.persist.modFw slot (fun f => { f with state := 3 }) := by
    unfold State.activate
    dsimp only
    split <;> simp
  rw [hpersist]
  split
  · rw [Persist.fwSlot_modFw_ne _ _ hne.symm, Persist.fwSlot_modFw_self, Persist.fwSlot_modFw_self]
    exact ⟨rfl, (by decide : (2 : Nat) ≠ 3)⟩
  · next hother =>
    rw [Persist.fwSlot_modFw_self, Persist.fwSlot_modFw_ne _ _ hne]
    exact ⟨rfl, hother⟩

/-- What raising a floor leaves of the floors. -/
theorem Persist.raiseFloor_floors (p : Persist) (slot : Nat) (h : 2 ≤ slot) :
    (p.raiseFloor 2 slot).floorSf = Nat.max ((p.fwSlot slot).svn slot) p.floorSf ∧ (p.raiseFloor 2 slot).floorLig = p.floorLig := by
  have hfloor : p.floorOf slot = p.floorSf := if_neg (Nat.not_lt.mpr h)
  unfold Persist.raiseFloor
  dsimp only
  rw [hfloor]
  have hbelow (q : Persist) (i : Nat) (c : Prop) [Decidable c] (f : FwSlot → FwSlot) :
      (if c then q.modFw i f else q).floorSf = q.floorSf ∧ (if c then q.modFw i f else q).floorLig = q.floorLig := by
    split <;> exact ⟨rfl, rfl⟩
  simp only [List.foldl_cons, List.foldl_nil, hbelow]
  exact ⟨rfl, rfl⟩

/-- Settles O32. -/
theorem firmwareAndAttestation : Obligations.FirmwareAndAttestation := by
  unfold Obligations.FirmwareAndAttestation
  refine ⟨?verify, ?activate, ?undone, ?floor, ?report⟩
  case verify =>
    intro s t k r c e h hslot htest hstate
    let x : ActRes := { code := 0, commit := true
                        next := { t with persist := t.persist.modFw (leAt e.value 0 1) (fun f => { f with state := 2 }) } }
    have hexec : exec (.fwVerify k) s = .next (answered x r e) := by
      refine exec_act h ?_
      simp [Nat.not_le.mpr hslot, htest, hstate, x]
    obtain ⟨apersist, aflash, _, _, amem, _⟩ := answered_frame x r e
    obtain ⟨tpersist, tflash, _, _, tmem, _⟩ := takes_same h.1
    refine ⟨answered x r e, hexec, ?_, fun j hj => ?_, amem.trans tmem, aflash.trans tflash⟩
    · rw [apersist, Persist.fwSlot_modFw_self]
    · rw [apersist, Persist.fwSlot_modFw_ne _ _ hj, tpersist]
  case activate =>
    intro s t r c e h hslot hstate
    let x : ActRes := { code := 0, commit := true, next := t.activate (leAt e.value 0 1) }
    have hexec : exec .fwActivate s = .next (answered x r e) := by
      refine exec_act h ?_
      simp [Nat.not_le.mpr hslot, hstate, x]
    obtain ⟨apersist, aflash, _, acores, amem, _, _, _, _, asvc, _⟩ := answered_frame x r e
    obtain ⟨_, tflash, _, tcores, tmem, _⟩ := takes_same h.1
    obtain ⟨hactive, hother⟩ := t.activate_persist hslot
    refine ⟨answered x r e, hexec, by rw [apersist, hactive], by rw [apersist]; exact hother, fun hsf => ?_, amem.trans (by simp [x, tmem]),
      acores.trans (by simp [x, tcores]), aflash.trans (by simp [x, tflash])⟩
    rw [asvc]
    simp [x, State.activate, Nat.not_lt.mpr hsf]
  case undone =>
    intro s new prev t0 hact hne hready hlate
    let p := (s.persist.modFw new (fun f => { f with state := 4 })).modFw prev (fun f => { f with state := 3 })
    have hexec : exec .fwActivationTimeout s = .next (({ s with
        persist := p, aon := { s.aon with activating := none, sfSlot := some prev }, svc := { s.svc with sfRunning := false } } :
        State).commitPersist) := by
      change execFwActivationTimeout s = _
      unfold execFwActivationTimeout
      rw [hact]
      dsimp only
      rw [if_neg (by simp [hready, Nat.not_lt.mpr hlate])]
    refine ⟨_, hexec, ?_, ?_, rfl, rfl, rfl, rfl⟩
    · change (p.fwSlot new).state = 4
      rw [Persist.fwSlot_modFw_ne _ _ hne, Persist.fwSlot_modFw_self]
    · change (p.fwSlot prev).state = 3
      rw [Persist.fwSlot_modFw_self]
  case floor =>
    intro s t r c e slot h hkind hslot hsf
    let x : ActRes := { code := 0, commit := true, next := { t with persist := t.persist.raiseFloor 2 slot } }
    have hexec : exec .fwFloorRaise s = .next (answered x r e) := by
      refine exec_act h ?_
      simp [hkind, hslot, x]
    obtain ⟨apersist, _, _, _, amem, _⟩ := answered_frame x r e
    obtain ⟨tpersist, _, _, _, tmem, _⟩ := takes_same h.1
    obtain ⟨hfloor, hlig⟩ := t.persist.raiseFloor_floors slot hsf
    refine ⟨answered x r e, hexec, ?_, ?_, ?_, amem.trans tmem⟩
    · rw [apersist, hfloor, tpersist]
      exact Nat.le_max_right ..
    · rw [apersist, hfloor, tpersist]
      exact Nat.le_max_left ..
    · rw [apersist, hlig, tpersist]
  case report =>
    intro s t r c e h hzero hpart hmodel
    let x : ActRes := { code := 0, next := t.draw.2, value := t.report e.value ++ (List.range 132).map (Config.tagByte t.draws) }
    have hexec : exec .attRequest s = .next (answered x r e) := by
      refine exec_act h ?_
      simp [firstBad, hzero, hpart, Nat.not_le.mpr hmodel, x, State.draw]
    obtain ⟨apersist, _, _, _, amem, _⟩ := answered_frame x r e
    obtain ⟨tpersist, _, _, _, tmem, _⟩ := takes_same h.1
    refine ⟨_, hexec, rfl, ?_, apersist.trans tpersist, amem.trans tmem⟩
    simp [State.report]

/-- Settles O33. -/
theorem keysTimeAlertsAndDrain : Obligations.KeysTimeAlertsAndDrain := by
  unfold Obligations.KeysTimeAlertsAndDrain
  refine ⟨?srtp, ?epoch, ?alert, ?drainEnds, ?drainBegins, ?grace⟩
  case srtp =>
    intro s t r c e h hzero hkeys hrole hfree
    refine exec_act h ?_
    simp [hzero, hkeys, hrole, State.putSrtp, hfree]
  case epoch =>
    intro s t r c e h hwhole
    let x : ActRes := { code := 0, next := { t with time := { t.time with ppsNext := some (leAt e.value 0 8), ppsArmed := true } } }
    have hexec : exec .ppsEpochWrite s = .next (answered x r e) := exec_act h (if_neg (not_not_intro hwhole))
    obtain ⟨apersist, _, _, acores, amem, _, atime, _⟩ := answered_frame x r e
    obtain ⟨tpersist, _, _, tcores, tmem, _, ttime, _⟩ := takes_same h.1
    refine ⟨_, hexec, ?_, amem.trans tmem, acores.trans tcores, apersist.trans tpersist⟩
    rw [atime, ← ttime]
  case alert =>
    intro s t r c e h
    let x : ActRes := { code := 0, next := { t with aon := { t.aon with alert := t.aon.alert &&& ~~~(BitVec.ofNat 32 (leAt e.value 0 4)) } } }
    have hexec : exec .alertClear s = .next (answered x r e) := exec_act h rfl
    obtain ⟨apersist, _, _, acores, amem, _, _, aaon, _⟩ := answered_frame x r e
    obtain ⟨tpersist, _, _, tcores, tmem, _, _, taon, _⟩ := takes_same h.1
    refine ⟨_, hexec, fun i hi => ?_, ?_, amem.trans tmem, acores.trans tcores, apersist.trans tpersist⟩
    · rw [aaon, ← taon]
      change (t.aon.alert &&& ~~~(BitVec.ofNat 32 (leAt e.value 0 4))).getLsbD i = _
      rw [BitVec.getLsbD_and, BitVec.getLsbD_not, BitVec.getLsbD_ofNat]
      simp [hi]
    · rw [aaon, ← taon]
  case drainEnds =>
    intro s t r c e h hzero
    let x : ActRes := { code := 0, next := { t with aon := { t.aon with drain := 0, drainEnd := none, graceOver := false } } }
    have hexec : exec .powerDrain s = .next (answered x r e) := exec_act h (if_pos hzero)
    obtain ⟨apersist, _, astreams, _, amem, _, _, aaon, _⟩ := answered_frame x r e
    obtain ⟨tpersist, _, tstreams, _, tmem, _, _, taon, _⟩ := takes_same h.1
    refine ⟨_, hexec, ?_, astreams.trans tstreams, amem.trans tmem, apersist.trans tpersist⟩
    rw [aaon, ← taon]
  case drainBegins =>
    intro s t r c e h hmin hmax
    exact exec_act h ((if_neg (by omega)).trans (if_neg (by omega)))
  case grace =>
    intro s n hend hdrain hgrace hclock
    let t : State := { s with
      aon := { s.aon with graceOver := true }
      streams := { s.streams with ctx := s.streams.ctx.map (fun q => (q.1, if q.2.closing then q.2 else q.2.close)) } }
    have hexec : exec .drainGraceExpiry s = .next t.drainCheck := by
      change execDrainGraceExpiry s = _
      unfold execDrainGraceExpiry
      rw [hend]
      dsimp only
      rw [if_neg (by simp [hdrain, hgrace, Nat.not_lt.mpr hclock])]
    refine ⟨_, hexec, ?_, ?_, by simp [t], by simp [t], by simp [t]⟩
    · rw [show t.drainCheck.streams = t.streams by simp]
      intro q hq
      obtain ⟨p, _, rfl⟩ := List.mem_map.mp hq
      dsimp only
      split
      · assumption
      · rfl
    · unfold State.drainCheck
      split <;> rfl

end Sys2Proof.Machine

/-! PROOFS. The management port and telemetry (R564 to R567, R575 to R580). -/

namespace Sys2Proof.Machine
open Sys2Proof.Safety

theorem mem_foldl_ndel {l : List Nat} {m : NSet} {i : Nat} : i ∈ l.foldl ndel m ↔ i ∈ m ∧ i ∉ l := by
  induction l generalizing m with
  | nil => simp
  | cons k l ih =>
    rw [List.foldl_cons, ih]
    simp [ndel, and_assoc]

theorem State.mgmtRead_eq (s : State) (a n : Nat) : s.mgmtRead a n =
    { s with clotha := { s.clotha with ocRead := (s.mgmtRead a n).clotha.ocRead, fresh := (s.mgmtRead a n).clotha.fresh } } := rfl

/-- Bytes that lie in the request mailbox are written there. -/
theorem mailboxPut_eq (m : Mem) (a : Nat) (bs : List Byte) (hlo : 0x1000 ≤ a) (hhi : a + bs.length ≤ 0x2000) :
    mailboxPut m a bs = wrBytes m (a - 0x1000) bs := by
  induction bs generalizing m a with
  | nil => rfl
  | cons b bs ih =>
    rw [List.length_cons] at hhi
    unfold mailboxPut wrBytes
    rw [if_pos (by omega), ih _ _ (by omega) (by omega), Nat.sub_add_comm hlo]

/-- Settles O34. -/
theorem managementPortCommands : Obligations.ManagementPortCommands := by
  unfold Obligations.ManagementPortCommands
  refine ⟨?read, ?window, ?write, ?status, ?enable, ?other, ?go, ?busy, ?ack⟩
  case read => exact fun s a n hup => ⟨_, congrArg Host.Outcome.next (if_pos hup), rfl, rfl⟩
  case window =>
    intro s m hup
    refine ⟨s.mgmtRead (0x20000 + m.val * 0x1000) 0x1000, congrArg Host.Outcome.next (if_pos hup), ?_, ?_, s.mgmtRead_eq _ _⟩
    · intro hm
      refine (mem_foldl_ndel.mp hm).2 (List.mem_filter.mpr ⟨List.mem_range.mpr m.isLt, ?_⟩)
      simp
    · simp [State.mgmtRead]
  case write =>
    intro s a bs hup hlo hhi
    refine ⟨_, congrArg Host.Outcome.next (if_pos hup), ?_, ?_, rfl⟩
    · dsimp only
      rw [mailboxPut_eq _ _ _ hlo hhi]
      exact rdBytes_wrBytes ..
    · intro i hi
      dsimp only
      rw [mailboxPut_eq _ _ _ hlo hhi]
      exact rdByte_wrBytes_out _ _ _ _ hi
  case status =>
    intro s hup
    have hbyte : s.mgmtByte 0 = BitVec.ofNat 8 s.mgmtStatus := by
      unfold State.mgmtByte
      rw [if_pos (by decide), Nat.pow_zero, Nat.div_one]
    refine (congrArg Host.Outcome.next (if_pos hup)).trans ?_
    rw [hbyte]
  case enable => exact fun s hup => congrArg Host.Outcome.next (if_pos hup)
  case other => exact fun s c x hup => congrArg Host.Outcome.next (if_pos hup)
  case go =>
    intro s ok hup hready hbusy hvalid
    change execReqGo ok s = _
    unfold execReqGo
    rw [if_neg (by simp [hup, hready]), if_neg (by simp [hbusy, hvalid])]
  case busy =>
    intro s ok hup hready hbusy
    change execReqGo ok s = _
    unfold execReqGo
    rw [if_neg (by simp [hup, hready]), if_pos hbusy]
  case ack => exact fun s hup => congrArg Host.Outcome.next (if_pos hup)

end Sys2Proof.Machine

/-! PROOFS. Telemetry samples (R575 to R580). -/

namespace Sys2Proof.Machine
open Sys2Proof.Safety

theorem mem_nins_self (m : NSet) (i : Nat) : i ∈ nins m i := by
  induction m with
  | nil => simp [nins]
  | cons k m ih =>
    unfold nins
    split
    · simp
    · split
      · next h => simp [h]
      · exact List.mem_cons_of_mem _ ih

@[simp] theorem State.modTel_self (s : State) (map : Nat) (f : TelState → TelState) :
    kgetD (s.modTel map f).clotha.tel map {} = f (kgetD s.clotha.tel map {}) := kgetD_kmod_self ..

/-- A message for the management port stands in its window. -/
theorem State.sendTel_mgmt {s : State} {map : Nat} {m : Msg} (hvia : m.via = .mgmt) :
    kgetD (s.sendTel map m).clotha.tel map {} =
        { kgetD s.clotha.tel map {} with sent := (kgetD s.clotha.tel map {}).sent + 1, unsent := none }
      ∧ map ∈ (s.sendTel map m).clotha.fresh ∧ (kgetD (s.sendTel map m).clotha.windows map []).take 4 = [1, BitVec.ofNat 8 m.opcode, 1, 0]
      ∧ (s.sendTel map m).net = s.net := by
  unfold State.sendTel
  rw [hvia]
  refine ⟨State.modTel_self .., mem_nins_self .., ?_, rfl⟩
  refine (congrArg (List.take 4) (kgetD_kset_self ..)).trans ?_
  rfl

/-- A message for a port leaves it where the port can send. -/
theorem State.sendTel_udp {s : State} {map port : Nat} {m : Msg} {addr : IpAddr} {dst : Word16} (hvia : m.via = .udp port addr dst)
    (hup : (s.port port).up = true) (hfree : (s.port port).holdUntil = none) : kgetD (s.sendTel map m).clotha.tel map {} =
      { kgetD s.clotha.tel map {} with sent := (kgetD s.clotha.tel map {}).sent + 1, unsent := none } := by
  unfold State.sendTel
  rw [hvia]
  dsimp only
  rw [if_pos ⟨hup, by rw [hfree]; rfl⟩, State.modTel_self]
  simp

/-- A message for a port that cannot send waits for it. -/
theorem State.sendTel_waits {s : State} {map port : Nat} {m : Msg} {addr : IpAddr} {dst : Word16} (hvia : m.via = .udp port addr dst)
    (hdown : (s.port port).up = false ∨ (s.port port).holdUntil ≠ none) :
    s.sendTel map m = s.modTel map (fun q => { q with unsent := some m }) := by
  unfold State.sendTel
  rw [hvia]
  dsimp only
  rw [if_neg]
  rintro ⟨hup, hfree⟩
  rcases hdown with h | h
  · rw [h] at hup
    cases hup
  · exact h (Option.isNone_iff_eq_none.mp hfree)

theorem telemetry_eq {s : State} {map : Fin 16} {m : TelMap} {instant : Nat} (hm : m = kgetD s.persist.telMaps map {})
    (hinstant : instant = s.now / Nat.max 1 (m.periodUs * 1000) * Nat.max 1 (m.periodUs * 1000)) (hon : m.enable = true)
    (hrun : s.time.running = true) (hup : s.hbmUp = true) (hnew : (kgetD s.clotha.tel map {}).lastAt ≠ some instant)
    (hunsent : (kgetD s.clotha.tel map {}).unsent = none) :
    exec (.telemetrySample map) s = .next (match s.persist.keys.find? (fun q => q.2.keyId == m.keyId.toNat) with
      | none => (s.modTel map (fun q => { q with lastAt := some instant })).skipTel map
      | some (_, k) =>
        if s.clotha.dictReady = true then (s.modTel map (fun q => { q with lastAt := some instant })).sampleTel map m instant k
        else (s.modTel map (fun q => { q with lastAt := some instant })).skipTel map) := by
  change execTelemetrySample map s = _
  unfold execTelemetrySample
  dsimp only
  rw [← hm, ← hinstant, if_neg (by simp [hon, hrun, hup]; exact hnew)]
  have hnone : (kgetD (s.modTel map (fun q => { q with lastAt := some instant })).clotha.tel map {}).unsent = none := by
    rw [State.modTel_self]
    exact hunsent
  rw [hnone]
  dsimp only
  split
  · next h =>
    rw [show s.persist.keys.find? (fun q => q.2.keyId == m.keyId.toNat) = none from h]
  · next n k h =>
    rw [show s.persist.keys.find? (fun q => q.2.keyId == m.keyId.toNat) = some (n, k) from h, hnone]
    dsimp only
    by_cases hready : s.clotha.dictReady = true
    · rw [if_pos hready, if_neg (by simp [State.modTel, hready])]
    · rw [if_neg hready, if_pos (.inl (by simpa [State.modTel] using hready))]

theorem State.skipTel_tel (s : State) (map : Nat) : kgetD (s.skipTel map).clotha.tel map {} = { kgetD s.clotha.tel map {} with
    counter := (kgetD s.clotha.tel map {}).counter + 1, skipped := (kgetD s.clotha.tel map {}).skipped + 1 } :=
  s.modTel_self map (fun q => { q with counter := q.counter + 1, skipped := q.skipped + 1 })

/-- A sample takes its number and is sent. -/
theorem State.sampleTel_eq (s : State) (map : Nat) (m : TelMap) (instant : Nat) (k : KeyRec) :
    ∃ msg : Msg, msg.via = m.via ∧ msg.opcode = 0x80 ∧ s.sampleTel map m instant k =
      (s.modTel map (fun q => { q with counter := (kgetD s.clotha.tel map {}).counter + 1 })).sendTel map msg :=
  ⟨_, rfl, rfl, rfl⟩

/-- Settles O35. -/
theorem telemetryIsSampled : Obligations.TelemetryIsSampled := by
  unfold Obligations.TelemetryIsSampled
  refine ⟨?sampled, ?skipped, ?again⟩
  case sampled =>
    intro s map m n k hm hon hrun hup hready hnew hunsent hkey
    have hexec := telemetry_eq hm rfl hon hrun hup hnew hunsent
    rw [hkey] at hexec
    dsimp only at hexec
    rw [if_pos hready] at hexec
    obtain ⟨msg, hvia, hopcode, hsample⟩ := State.sampleTel_eq (s.modTel map (fun q => { q with
      lastAt := some (s.now / Nat.max 1 (m.periodUs * 1000) * Nat.max 1 (m.periodUs * 1000)) })) map m
      (s.now / Nat.max 1 (m.periodUs * 1000) * Nat.max 1 (m.periodUs * 1000)) k
    rw [hsample] at hexec
    generalize hu : (State.modTel _ _ _).modTel map _ = u at hexec
    have htel : kgetD u.clotha.tel map {} = { kgetD s.clotha.tel map {} with
        counter := (kgetD s.clotha.tel map {}).counter + 1
        lastAt := some (s.now / Nat.max 1 (m.periodUs * 1000) * Nat.max 1 (m.periodUs * 1000)) } := by
      rw [← hu, State.modTel_self, State.modTel_self]
    have hnet : u.net = s.net := by rw [← hu]; rfl
    have hport : ∀ i, u.port i = s.port i := fun i => State.port_congr hnet i
    refine ⟨_, hexec, ?_⟩
    have hframe : (u.sendTel map msg).persist = s.persist ∧ (u.sendTel map msg).mem = s.mem
        ∧ (u.sendTel map msg).cores = s.cores ∧ (u.sendTel map msg).streams = s.streams := by
      rw [← hu]
      simp
    unfold TelMap.via at hvia
    by_cases hmgmt : m.transport = 2
    · rw [if_pos hmgmt] at hvia
      obtain ⟨hself, hfresh, hwindow, hn⟩ := State.sendTel_mgmt (s := u) (map := map) hvia
      rw [hself, htel]
      refine ⟨rfl, rfl, rfl, fun _ => ⟨rfl, hfresh, ?_, hn.trans hnet⟩, fun h => absurd hmgmt h, fun h => absurd hmgmt h, hframe⟩
      rw [hwindow, hopcode]
      rfl
    · rw [if_neg hmgmt] at hvia
      by_cases hsend : (s.port m.transport).up = true ∧ (s.port m.transport).holdUntil = none
      · have hself := State.sendTel_udp (s := u) (map := map) hvia (by rw [hport]; exact hsend.1) (by rw [hport]; exact hsend.2)
        rw [hself, htel]
        refine ⟨rfl, rfl, rfl, fun h => absurd h hmgmt, fun _ _ _ => ⟨rfl, rfl⟩, fun _ hdown => ?_, hframe⟩
        rcases hdown with h | h
        · rw [hsend.1] at h
          cases h
        · exact absurd hsend.2 h
      · have hdown : (s.port m.transport).up = false ∨ (s.port m.transport).holdUntil ≠ none := by
          by_cases hup : (s.port m.transport).up = true
          · exact .inr fun h => hsend ⟨hup, h⟩
          · exact .inl (by simpa using hup)
        have hwaits := State.sendTel_waits (s := u) (map := map) hvia (by rw [hport]; exact hdown)
        rw [hwaits] at hframe ⊢
        rw [State.modTel_self, htel]
        exact ⟨rfl, rfl, rfl, fun h => absurd h hmgmt, fun _ h h' => absurd ⟨h, h'⟩ hsend, fun _ _ => ⟨rfl, rfl, hnet⟩, hframe⟩
  case skipped =>
    intro s map m hm hon hrun hup hnew hunsent hdumb
    have hexec : exec (.telemetrySample map) s = .next ((s.modTel map (fun q => { q with
        lastAt := some (s.now / Nat.max 1 (m.periodUs * 1000) * Nat.max 1 (m.periodUs * 1000)) })).skipTel map) := by
      rw [telemetry_eq hm rfl hon hrun hup hnew hunsent]
      rcases hdumb with h | h
      · split
        · rfl
        · rw [if_neg (by simp [h])]
      · rw [h]
    refine ⟨_, _, hexec, ?_, ?_, ?_, rfl, rfl, rfl, rfl, rfl, rfl, rfl⟩
    · rw [State.skipTel_tel, State.modTel_self]
    · rw [State.skipTel_tel, State.modTel_self]
    · rw [State.skipTel_tel, State.modTel_self]
  case again =>
    intro s map m hm hlast
    change execTelemetrySample map s = _
    unfold execTelemetrySample
    subst hm
    exact congrArg Host.Outcome.next (if_pos (.inr (.inr (.inr hlast))))

end Sys2Proof.Machine

/-! PROOFS. PTP messages and the timebase (R608 to R612). -/

namespace Sys2Proof.Machine
open Sys2Proof.Safety

/-- What a movement of time.state leaves of the timebase. -/
@[simp] theorem State.toTimeState_time (s : State) (n : Nat) : (s.toTimeState n).time.peers = s.time.peers
    ∧ (s.toTimeState n).time.now = s.time.now ∧ (s.toTimeState n).time.syncs = s.time.syncs
    ∧ (s.toTimeState n).time.offset = s.time.offset ∧ (s.toTimeState n).time.twoStep = s.time.twoStep := by
  unfold State.toTimeState
  split <;> simp [State.ite_frame]

/-- What a step leaves of the timebase. -/
@[simp] theorem State.stepTime_time (s : State) (d : Int) : (s.stepTime d).time.syncs = s.time.syncs
    ∧ (s.stepTime d).time.offset = s.time.offset ∧ (s.stepTime d).time.twoStep = s.time.twoStep := by
  simp [State.stepTime]

/-- What the run of good seconds leaves of the timebase. -/
@[simp] theorem TimeBase.goodRun_frame (t : TimeBase) : t.goodRun.1.syncs = t.syncs ∧ t.goodRun.1.offset = t.offset
    ∧ t.goodRun.1.twoStep = t.twoStep := by
  unfold TimeBase.goodRun
  split
  · exact ⟨rfl, rfl, rfl⟩
  · dsimp only
    split
    · exact ⟨rfl, rfl, rfl⟩
    · split <;> exact ⟨rfl, rfl, rfl⟩

/-- A measurement is kept, and leaves the count of Syncs and the two-step exchange. -/
@[simp] theorem State.measure_time (s : State) (off : Int) : (s.measure off).time.syncs = s.time.syncs
    ∧ (s.measure off).time.offset = off ∧ (s.measure off).time.twoStep = s.time.twoStep := by
  unfold State.measure
  dsimp only
  generalize hslewed : ({ s with time := { s.time with offset := off, lastMeas := s.time.now, slew := -off } } : State) = slewed
  have hs : slewed.time.syncs = s.time.syncs ∧ slewed.time.offset = off ∧ slewed.time.twoStep = s.time.twoStep := by
    rw [← hslewed]
    exact ⟨rfl, rfl, rfl⟩
  generalize hcorrected : (if off.natAbs ≤ 1000000 then slewed else _) = corrected
  have hc : corrected.time.syncs = s.time.syncs ∧ corrected.time.offset = off ∧ corrected.time.twoStep = s.time.twoStep := by
    rw [← hcorrected]
    split
    · exact hs
    · simp
  split_ifs <;> simp [hs, hc]

/-- The timestamp of an event message is within 4 ns of its true time. -/
theorem State.ptpStamp_within (s : State) : s.ptpStamp.2 ≤ s.time.now + 4 ∧ s.time.now ≤ s.ptpStamp.2 + 4 := by
  unfold State.ptpStamp
  dsimp only
  omega

/-- A message of the source port and transport is counted and used. -/
theorem ptpMessage_of_source {s : State} {port : Fin 2} {tr : PtpTransport} (hup : (s.port port).up = true) (hrun : s.time.running = true)
    (hsource : s.persist.timeSource = port) (htr : transportNo tr = s.persist.ptpTransport) :
    ¬((!(s.port port).up || !s.time.running) = true) ∧ ¬(s.persist.timeSource ≠ port.val ∨ transportNo tr ≠ s.persist.ptpTransport) := by
  simp [hup, hrun, hsource, htr]

/-- Settles O36. -/
theorem ptpMessages : Obligations.PtpMessages := by
  unfold Obligations.PtpMessages
  refine ⟨?announce, ?sync, ?twoStep, ?followUp, ?delayResp, ?other, ?request⟩
  case announce =>
    intro s port tr id dom rank n hup hrun hsource htr hdom
    obtain ⟨hlive, hmine⟩ := ptpMessage_of_source hup hrun hsource htr
    have hexec : exec (.ptpMessage port tr (.announce id dom rank n)) s = .next ((s.countPort port 2).ptpAnnounce
        { ident := id, rank := rank, interval := n, heard := s.time.now }) := by
      refine congrArg Host.Outcome.next ((if_neg hlive).trans ((if_neg hmine).trans ((if_pos hdom).trans ?_)))
      simp
    refine ⟨_, hexec, ⟨{ ident := id, rank := rank, interval := n, heard := s.time.now }, ?_, rfl, rfl, rfl, rfl⟩, ?_⟩
    · unfold State.ptpAnnounce
      dsimp only
      split_ifs <;> simp
    · simp
  case sync =>
    intro s port tr id dom origin hup hrun hsource htr hdom hmaster
    obtain ⟨hlive, hmine⟩ := ptpMessage_of_source hup hrun hsource htr
    have hexec : exec (.ptpMessage port tr (.sync id dom origin)) s = .next (({ (s.countPort port 2).ptpStamp.1 with
        time := { s.time with syncs := s.time.syncs + 1, lastSync := s.time.now } } : State).ptpSync origin
          (s.countPort port 2).ptpStamp.2) := by
      refine congrArg Host.Outcome.next ((if_neg hlive).trans ((if_neg hmine).trans ((if_pos ?_).trans ?_)))
      · simp [hdom, hmaster]
      · simp
    obtain ⟨hle, hge⟩ := (s.countPort port 2).ptpStamp_within
    refine ⟨_, _, hexec, ?_, hle, hge, ?_, ?_, ?_⟩ <;> simp [State.ptpSync]
  case twoStep =>
    intro s port tr id dom seq hup hrun hsource htr hdom hmaster
    obtain ⟨hlive, hmine⟩ := ptpMessage_of_source hup hrun hsource htr
    have hexec : exec (.ptpMessage port tr (.syncTwoStep id dom seq)) s = .next { (s.countPort port 2).ptpStamp.1 with
        time := { s.time with
          syncs := s.time.syncs + 1, lastSync := s.time.now, twoStep := some (id, seq, (s.countPort port 2).ptpStamp.2) } } := by
      refine congrArg Host.Outcome.next ((if_neg hlive).trans ((if_neg hmine).trans ((if_pos ?_).trans ?_)))
      · simp [hdom, hmaster]
      · simp
    obtain ⟨hle, hge⟩ := (s.countPort port 2).ptpStamp_within
    exact ⟨_, _, hexec, hle, hge, rfl, rfl, rfl⟩
  case followUp =>
    intro s port tr id dom seq origin a hup hrun hsource htr hdom hmaster hstep
    obtain ⟨hlive, hmine⟩ := ptpMessage_of_source hup hrun hsource htr
    have hexec : exec (.ptpMessage port tr (.followUp id dom seq origin)) s = .next ((s.countPort port 2).ptpSync origin a) := by
      refine congrArg Host.Outcome.next ((if_neg hlive).trans ((if_neg hmine).trans ((if_pos ?_).trans ?_)))
      · simp [hdom, hmaster]
      · have htime : (s.countPort port 2).time.twoStep = some (id, seq, a) := hstep
        rw [htime]
        exact if_pos ⟨rfl, rfl⟩
    refine ⟨_, hexec, ?_, ?_, ?_, ?_⟩ <;> simp [State.ptpSync]
  case delayResp =>
    intro s port tr id dom t4 t1 t2 t3 hup hrun hsource htr hdom hmaster ht1t2 ht3
    obtain ⟨hlive, hmine⟩ := ptpMessage_of_source hup hrun hsource htr
    have hexec : exec (.ptpMessage port tr (.delayResp id dom t4)) s = .next { s.countPort port 2 with
        time := { s.time with t3 := none, delay := (((t2 : Int) - t1) + ((t4 : Int) - t3)) / 2 } } := by
      refine congrArg Host.Outcome.next ((if_neg hlive).trans ((if_neg hmine).trans ((if_pos ?_).trans ?_)))
      · simp [hdom, hmaster]
      · have h1 : (s.countPort port 2).time.t1t2 = some (t1, t2) := ht1t2
        have h3 : (s.countPort port 2).time.t3 = some t3 := ht3
        rw [h1, h3]
        rfl
    exact ⟨_, hexec, rfl, rfl, rfl⟩
  case other =>
    intro s port tr m hup hrun hother
    exact congrArg Host.Outcome.next ((if_neg (by simp [hup, hrun])).trans (if_pos hother))
  case request =>
    intro s port id hsource hmaster hup hfree
    have hstamp : s.ptpStamp.1.net = s.net := rfl
    have hexec : exec .delayRequest s = .next ((({ s.ptpStamp.1 with time := { s.time with t3 := some s.ptpStamp.2 } } : State).modPort
        port (·.sent 1)).send (.delayReq port)) := by
      change execDelayRequest s = _
      unfold execDelayRequest
      dsimp only
      rw [hsource, if_neg (by simp [hmaster, hup, hfree]; omega)]
      exact congrArg Host.Outcome.next (State.sendFrame_eq _ hup hfree)
    obtain ⟨hle, hge⟩ := s.ptpStamp_within
    exact ⟨_, _, hexec, rfl, hle, hge, rfl, rfl, rfl⟩

/-- Refutes O37: the timebase counts 64 bits, so a step of 2^64 ns leaves the instant 0 where it was. -/
theorem not_timeFollowsItsSource : ¬ Obligations.TimeFollowsItsSource := by
  unfold Obligations.TimeFollowsItsSource
  rintro ⟨-, hstep, -⟩
  exact absurd (hstep { time := { state := 1 } } (-2 ^ 64) rfl (by decide)).1 (by decide +kernel)

end Sys2Proof.Machine

/-! PROOFS. Doorbells, dispatch, rejection and completion (R194, R196, R438, R439, R443). -/

namespace Sys2Proof.Machine
open Sys2Proof.Safety

/-- Settles O38. -/
theorem doorbellsAndDispatch : Obligations.DoorbellsAndDispatch := by
  unfold Obligations.DoorbellsAndDispatch
  refine ⟨?taken, ?overfull, ?dispatched, ?rejected⟩
  case taken =>
    intro s core prep v ct part hctx hpart hopen hcore hown hkept hroom
    change execDoorbell core prep v s = _
    unfold execDoorbell
    dsimp only
    rw [hctx, hpart]
    dsimp only
    rw [if_neg (by simp [hopen, hcore, hown]), if_neg (by omega), if_neg (by simp [hkept])]
  case overfull =>
    intro s core prep v ct part hctx hpart hopen hcore hown hfull
    have hexec : exec (.doorbell core prep v) s = .next ((s.progress core (112 + prep)).logEvent 0x4001 0 0x05 core
        [(16, (bits v.toNat 15 0 : Nat)), (16, (bits v.toNat 31 16 : Nat))]) := by
      change execDoorbell core prep v s = _
      unfold execDoorbell
      dsimp only
      rw [hctx, hpart]
      dsimp only
      rw [if_neg (by simp [hopen, hcore, hown]), if_pos hfull]
    exact ⟨_, _, hexec, rfl, rfl, rfl, rfl, rfl, rfl⟩
  case dispatched =>
    intro s core c hrun hbest hgood
    change execCommandDispatch core s = _
    unfold execCommandDispatch
    rw [if_neg (by simp [hrun]), hbest]
    dsimp only
    rw [hgood]
  case rejected =>
    intro s core c code hrun hbest hbad
    change execCommandDispatch core s = _
    unfold execCommandDispatch
    rw [if_neg (by simp [hrun]), hbest]
    dsimp only
    rw [hbad]

/-- Latching changes of a command only its scale latches. -/
theorem State.latchAll_cmd (s : State) (ct : Ctx) (c : Cmd) : ∃ latch constant,
    (s.latchAll ct c).2 = { c with latch := latch, constant := constant } := by
  have hstage : ∀ (q : State × Cmd) (st : Nat), ∃ latch constant,
      (q.1.latchStage ct q.2 st).2 = { q.2 with latch := latch, constant := constant } := by
    intro q st
    unfold State.latchStage
    split
    · exact ⟨_, _, rfl⟩
    · dsimp only
      split
      · exact ⟨_, _, rfl⟩
      · exact ⟨_, _, rfl⟩
  unfold State.latchAll
  generalize List.range c.descs.length = l
  generalize hq : (s, c) = q
  have hc : q.2 = c := by rw [← hq]
  rw [← hc]
  clear hq hc
  induction l generalizing q with
  | nil => exact ⟨_, _, rfl⟩
  | cons st l ih =>
    obtain ⟨a, b, hab⟩ := hstage q st
    obtain ⟨a', b', hab'⟩ := ih (q.1.latchStage ct q.2 st)
    refine ⟨a', b', ?_⟩
    rw [List.foldl_cons, hab', hab]

/-- Latching changes of a core only its rounds. -/
theorem State.latchAll_cmds (s : State) (ct : Ctx) (c : Cmd) (core : Nat) :
    ((s.latchAll ct c).1.core core).cmds = (s.core core).cmds := by
  refine foldl_fst (fun t => (t.core core).cmds) _ (fun q st => ?_) _ _
  unfold State.latchStage
  split
  · rfl
  · dsimp only
    split
    · rfl
    · dsimp only
      have hguard : ∀ b : Bool, ((if b then q.1.bumpSafeguard ct.part 0 else q.1).core core).cmds = (q.1.core core).cmds := by
        intro b
        exact congrArg Core.cmds (State.core_congr (by simp [State.ite_frame]) core)
      split
      · exact hguard _
      · refine (State.core_modCore_keeps Core.cmds _ _ _ _ ?_).trans (hguard _)
        intro k
        rfl

theorem State.progress_cmds (s : State) (c u d : Nat) : ((s.progress c u).core d).cmds = (s.core d).cmds :=
  s.core_modCore_keeps Core.cmds _ _ _ fun _ => rfl

/-- The command that a candidate is dispatched as, before its scales are latched. -/
def State.commandOf (s : State) (core : Nat) (c : Candidate) : Cmd :=
  { ctx := c.ctxId, seq := c.ct.seqNext, descs := c.ds.map (BitVec.ofNat 512 ·), serial := s.draws
    progs := s.loadProgs core c.ct.part c.ds
    wide := (List.range c.ds.length).filter (fun st => s.wideRun core c.ctxId c.ct (c.ds.getD st 0))
    maps := s.copyMaps core c.ct.part c.ds, round := ((s.core core).roundOf c.ctxId).map (·.seq), dispatchedAt := s.now }

/-- The context after a command of `n` descriptors has been dispatched. -/
def Ctx.dispatched (x : Ctx) (now n : Nat) (wait : Bool) : Ctx :=
  let x : Ctx := { x with waiting := none, satisfied := false, lastRun := now, readySince := now }
  if wait then x else { x with head := (x.head + n) % 65536, seqNext := (x.seqNext + 1) % 65536 }

/-- A dispatched command stands last, with its scales latched. -/
theorem State.dispatch_cmds (s : State) (core : Nat) (c : Candidate) : ((s.dispatch core c).core core).cmds =
    (s.core core).cmds ++ [(({ s with draws := s.draws + 1 } : State).latchAll c.ct (s.commandOf core c)).2] := by
  unfold State.dispatch
  dsimp only
  rw [State.progress_cmds]
  have hhead : ∀ (b : Bool) (t : State) (f : Ctx → Ctx), (if b then t else t.modCtx c.ctxId f).core core = t.core core := by
    intro b t f
    cases b <;> rfl
  rw [hhead, State.core_modCtx, State.core_modCore_self]
  exact congrArg (· ++ _) (State.latchAll_cmds { s with draws := s.draws + 1 } c.ct (s.commandOf core c) core)

/-- A dispatched command moves its context on. -/
theorem State.dispatch_ctx (s : State) (core : Nat) (c : Candidate) : (s.dispatch core c).ctx? c.ctxId =
    (s.ctx? c.ctxId).map (·.dispatched s.now c.ds.length
      (({ s with draws := s.draws + 1 } : State).latchAll c.ct (s.commandOf core c)).2.isWait) := by
  unfold State.dispatch
  dsimp only
  have hctx : (({ s with draws := s.draws + 1 } : State).latchAll c.ct (s.commandOf core c)).1.ctx? c.ctxId = s.ctx? c.ctxId := by
    simp [State.ctx?]
  change (if (({ s with draws := s.draws + 1 } : State).latchAll c.ct (s.commandOf core c)).2.isWait = true then _ else
    State.modCtx _ _ _ : State).ctx? c.ctxId = _
  split
  · next h =>
    rw [h, State.ctx?_modCtx_self, State.ctx?_modCore]
    exact congrArg _ hctx
  · next h =>
    rw [Bool.not_eq_true] at h
    rw [h, State.ctx?_modCtx_self, State.ctx?_modCtx_self, State.ctx?_modCore]
    refine (congrArg (fun x => Option.map _ (Option.map _ x)) hctx).trans ?_
    rw [Option.map_map]
    rfl

/-- Settles O39. -/
theorem dispatchedCommandStands : Obligations.DispatchedCommandStands := by
  unfold Obligations.DispatchedCommandStands
  intro s core c hctx hcore
  obtain ⟨latch, constant, hm⟩ := ({ s with draws := s.draws + 1 } : State).latchAll_cmd c.ct (s.commandOf core c)
  have hcmds := s.dispatch_cmds core c
  have hmoved := s.dispatch_ctx core c
  rw [hm] at hcmds hmoved
  rw [hctx, Option.map_some] at hmoved
  refine ⟨_, _, hcmds, rfl, rfl, rfl, rfl, hmoved, fun hgo => ?_, fun hstay => ?_, ?_, ?_, by simp, by simp⟩
  · rw [hgo]
    exact ⟨rfl, rfl⟩
  · rw [hstay]
    exact ⟨rfl, rfl⟩
  · unfold Ctx.dispatched
    split <;> rfl
  · unfold Ctx.dispatched
    split <;> rfl

/-- Where the next record of a context's completion ring stands. -/
def Ctx.recordAddr (x : Ctx) : Nat := x.cringBase + 32 * (x.cringWr % 2 ^ (x.cringLog2 + 4))

/-- A context one record further. -/
def Ctx.recorded (x : Ctx) : Ctx := { x with cringWr := (x.cringWr + 1) % 65536 }

/-- A context that waits for nothing. -/
def Ctx.unwaiting (x : Ctx) : Ctx := { x with waiting := none, satisfied := false }

/-- A context halted past a command of `n` descriptors. -/
def Ctx.halt (n : Nat) (x : Ctx) : Ctx := { x with halted := true, head := (x.head + n) % 65536 }

/-- A record of a context that is not halted is written at its place, and counted. -/
theorem State.writeRecord_eq {s : State} {ctx : Nat} {ct : Ctx} (r : Completion) (hctx : s.ctx? ctx = some ct) (hlive : ct.halted = false) :
    s.writeRecord ctx r = (s.hbmWrite ct.recordAddr (r.bytes (s.localTime 0x05 ct.core)) false).modCtx ctx
      Ctx.recorded := by
  unfold State.writeRecord
  rw [hctx]
  dsimp only
  rw [if_neg (by simp [hlive])]
  rfl

/-- Dropping a context's waits changes no other context. -/
theorem State.dropWaits_ctxs (s : State) (ctx : Nat) :
    (s.dropWaits ctx).ctxs = kmod? s.ctxs ctx Ctx.unwaiting := by
  simp only [State.dropWaits, State.modCtx, State.modCores_frame]
  rfl

/-- A rejection changes the contexts by its own context's alone, and memory by its record alone. -/
theorem State.reject_ctxs {s : State} {ctx : Nat} {ct : Ctx} (seq n : Nat) (code : Word16) (prog : Option Nat)
    (hctx : s.ctx? ctx = some ct) (hlive : ct.halted = false) :
    (s.reject ctx seq n code prog).ctxs = kmod? (kmod? (kmod? s.ctxs ctx Ctx.recorded) ctx Ctx.unwaiting) ctx (Ctx.halt n)
    ∧ (s.reject ctx seq n code prog).mem =
      (s.hbmWrite ct.recordAddr ((({ seq := seq, code := code } : Completion)).bytes (s.localTime 0x05 ct.core)) false).mem := by
  unfold State.reject State.rejectWith
  rw [hctx]
  dsimp only
  rw [State.writeRecord_eq _ hctx hlive]
  generalize hu : ((State.modCtx _ _ _).dropWaits ctx).modCtx ctx _ = u
  have hctxs : u.ctxs = kmod? (kmod? (kmod? s.ctxs ctx Ctx.recorded) ctx Ctx.unwaiting) ctx (Ctx.halt n) := by
    rw [← hu]
    exact congrArg (kmod? · ctx (Ctx.halt n)) (State.dropWaits_ctxs _ _)
  have hmem : u.mem = (s.hbmWrite ct.recordAddr ((({ seq := seq, code := code } : Completion)).bytes (s.localTime 0x05 ct.core)) false).mem := by
    rw [← hu]
    simp
  rw [← hctxs, ← hmem]
  have hjobs : ∀ (l : List ReadyStep) (j : Job → Job), (l.foldl (fun (t : State) q => if q.step.job then t.modJob q.step.id j else t) u).ctxs
      = u.ctxs ∧ (l.foldl (fun (t : State) q => if q.step.job then t.modJob q.step.id j else t) u).mem = u.mem :=
    fun l j => ⟨foldl_proj State.ctxs _ (fun _ _ => by simp [State.ite_frame]) _ _, foldl_proj State.mem _ (fun _ _ => by simp [State.ite_frame]) _ _⟩
  cases (s.core ct.core).roundOf ctx with
  | none => cases prog <;> exact ⟨rfl, rfl⟩
  | some r => cases prog <;> exact hjobs _ _

/-- A signal to the semaphore store changes no commands. -/
theorem State.semsetSignal_cmds (s : State) (ctx i core : Nat) : ((s.semsetSignal ctx i).core core).cmds = (s.core core).cmds := by
  unfold State.semsetSignal
  split
  · rfl
  · split
    · rfl
    · split
      · unfold State.semSignal
        dsimp only
        split
        · rfl
        · exact State.core_modCore_keeps Core.cmds _ _ _ _ fun _ => rfl
      · rfl

/-- The cycles charged change no commands. -/
theorem State.charge_cmds (s : State) (ct : Ctx) (cls n core : Nat) : ((s.charge ct cls n).core core).cmds = (s.core core).cmds := by
  unfold State.charge
  split
  · rfl
  · dsimp only
    split
    · refine (State.core_modCore_keeps Core.cmds _ _ _ _ ?_).trans ?_
      · intro k
        rfl
      · split <;> rfl
    · split <;> rfl

/-- What a completion does to its command's core and context: the command is out, the record is written. -/
theorem State.complete_cmds (s : State) (core : Nat) (ct : Ctx) (c : Cmd) : ∃ l,
    ((s.complete core ct c).core core).cmds = List.filter (fun m => !(m.ctx == c.ctx && m.seq == c.seq)) l := by
  unfold State.complete
  dsimp only
  generalize hfiltered : State.modCore _ core (fun k => { k with cmds := k.cmds.filter _ }) = u
  have hcmds : ∃ l, (u.core core).cmds = List.filter (fun m => !(m.ctx == c.ctx && m.seq == c.seq)) l := by
    rw [← hfiltered, State.core_modCore_self]
    exact ⟨_, rfl⟩
  generalize s.recordOf core c c.code = out
  have hwritten : ((((u.modCtx c.ctx (·.atCompletion c)).writeRecord c.ctx out).charge ct c.cls out.cycles).core core).cmds
      = (u.core core).cmds := by
    rw [State.charge_cmds, State.core_congr (State.writeRecord_frame ..).2.2.2.2.2.2.2.1, State.core_modCtx]
  rw [← hwritten] at hcmds
  have hfence : ∀ t : State, ((if c.code = recFENCED then t.markFenced core c.ctx else t).core core).cmds = (t.core core).cmds := by
    intro t
    split
    · refine State.core_modCore_keeps Core.cmds _ _ _ _ ?_
      intro k
      rfl
    · rfl
  rw [State.progress_cmds, State.semsetSignal_cmds, hfence]
  split
  · exact hcmds
  · refine hcmds.imp fun l hl => Eq.trans ?_ hl
    exact congrArg Core.cmds (State.core_congr (foldl_proj State.cores _ (fun _ _ => by simp [State.ite_frame]) _ _) core)

theorem State.ctx?_congr {s t : State} (h : s.ctxs = t.ctxs) {i : Nat} : s.ctx? i = t.ctx? i := by
  unfold State.ctx?
  rw [h]

/-- What a completion leaves of its context's image. -/
theorem Ctx.atCompletion_frame (x : Ctx) (c : Cmd) : (x.atCompletion c).halted = x.halted ∧ (x.atCompletion c).cringWr = x.cringWr
    ∧ (x.atCompletion c).tail = x.tail := by
  unfold Ctx.atCompletion
  dsimp only
  split_ifs <;> exact ⟨rfl, rfl, rfl⟩

/-- A completion writes its context's record and moves on no other way than `atCompletion`. -/
theorem State.complete_ctx {s : State} {core : Nat} {ct : Ctx} {c : Cmd} (hctx : s.ctx? c.ctx = some ct) (hlive : ct.halted = false) :
    (s.complete core ct c).ctx? c.ctx = some (ct.atCompletion c).recorded := by
  unfold State.complete
  dsimp only
  generalize hfiltered : State.modCore _ core (fun k => { k with cmds := k.cmds.filter _ }) = u
  have hu : u.ctx? c.ctx = some ct := by
    rw [← hfiltered, State.ctx?_modCore]
    refine Eq.trans ?_ hctx
    simp [State.ctx?]
  generalize s.recordOf core c c.code = out
  have hwritten : (((u.modCtx c.ctx (·.atCompletion c)).writeRecord c.ctx out).charge ct c.cls out.cycles).ctx? c.ctx =
      some (ct.atCompletion c).recorded := by
    rw [State.ctx?_congr (State.charge_frame ..).2.2.2.2.2.2.2.1, State.writeRecord_eq out (ct := ct.atCompletion c)]
    · simp [hu]
    · simp [hu]
    · rw [← hlive]
      exact (ct.atCompletion_frame c).1
  generalize State.charge _ ct c.cls out.cycles = v at hwritten
  have hfence : ∀ t : State, (if c.code = recFENCED then t.markFenced core c.ctx else t).ctxs = t.ctxs := by
    intro t
    split <;> simp
  refine Eq.trans (State.ctx?_congr ?_) hwritten
  simp only [State.progress_frame, State.semsetSignal_frame, hfence]
  split
  · rfl
  · exact foldl_proj State.ctxs _ (fun _ _ => by simp [State.ite_frame]) _ _

/-- Settles O40. -/
theorem rejectionAndCompletionWriteARecord : Obligations.RejectionAndCompletionWriteARecord := by
  unfold Obligations.RejectionAndCompletionWriteARecord
  constructor
  · intro s ctx seq n code prog ct hctx hlive
    obtain ⟨hctxs, hmem⟩ := State.reject_ctxs seq n code prog hctx hlive
    have hself : (s.reject ctx seq n code prog).ctx? ctx = some (ct.recorded.unwaiting.halt n) := by
      unfold State.ctx? at hctx ⊢
      rw [hctxs]
      simp [hctx]
    refine ⟨_, hself, rfl, rfl, rfl, rfl, rfl, fun j hj => ?_, hmem, by simp, by simp, by simp⟩
    unfold State.ctx?
    rw [hctxs, kget?_kmod?_ne _ _ hj, kget?_kmod?_ne _ _ hj, kget?_kmod?_ne _ _ hj]
  · intro s core ct c hctx hlive
    refine ⟨?_, ?_, by simp, by simp, by simp, by simp⟩
    · obtain ⟨l, hl⟩ := s.complete_cmds core ct c
      intro m hm
      rw [hl] at hm
      simpa [imp_iff_not_or] using (List.mem_filter.mp hm).2
    · refine ⟨_, State.complete_ctx hctx hlive, ?_, ?_⟩
      · exact congrArg (fun n => (n + 1) % 65536) (ct.atCompletion_frame c).2.1
      · exact (ct.atCompletion_frame c).2.2

end Sys2Proof.Machine

/-! PROOFS. The router's own commands, semaphores and credits (R71, R189, R367, R370, R371, R490 to R496). -/

namespace Sys2Proof.Machine
open Sys2Proof.Safety

/-- Settles O41. -/
theorem routerCommands : Obligations.RouterCommands := by
  unfold Obligations.RouterCommands
  refine ⟨?nop, ?fence, ?wait, ?noWait, ?signal, ?checkpoint⟩
  case nop =>
    intro s ctx core c hissue
    change execNop ctx s = _
    unfold execNop
    rw [hissue]
  case fence =>
    intro s ctx core c hissue
    change execFence ctx s = _
    unfold execFence
    rw [hissue]
  case wait =>
    intro s ctx core c ct hissue hctx hop
    change execSemWait ctx s = _
    unfold execSemWait
    rw [hissue, hctx]
    exact congrArg Host.Outcome.next (if_neg hop)
  case noWait =>
    intro s ctx core c hissue hop
    obtain ⟨ct, hctx⟩ : ∃ ct, s.ctx? ctx = some ct := by
      unfold State.toIssue at hissue
      cases hctx : s.ctx? ctx with
      | none => simp [hctx] at hissue
      | some ct => exact ⟨ct, rfl⟩
    change execSemWait ctx s = _
    unfold execSemWait
    rw [hissue, hctx]
    exact congrArg Host.Outcome.next (if_pos hop)
  case signal =>
    intro s ctx core c hissue
    change execSemSignal ctx s = _
    unfold execSemSignal
    rw [hissue]
  case checkpoint =>
    intro s ctx core c ct hissue hctx hslots
    change ∃ t l, execCheckpoint ctx s = _ ∧ _
    unfold execCheckpoint
    rw [hissue, hctx]
    dsimp only
    have hall : (if (kgetD c.maps (ckH (c.desc 0)) {}).ring then
        (kgetD c.maps (ckH (c.desc 0)) {}).slotsOf (ckOff (c.desc 0) * 64) (8 * ckCount (c.desc 0)) else []).all
          ((s.core core).handle (ckH (c.desc 0))).isFull = true := by
      rcases hslots with h | h
      · rw [h]
        rfl
      · split
        · exact h
        · rfl
    rw [hall, if_neg (by decide)]
    generalize hreports : (List.range (ckCount (c.desc 0))).map _ = reports
    refine ⟨_, reports, rfl, ?_, ?_, ?_, rfl, rfl, rfl, rfl⟩
    · rw [State.core_modCore_self]
      refine congrArg (· ++ reports) (State.core_modCore_keeps Core.reports _ _ _ _ ?_)
      intro k
      rfl
    · rw [← hreports, List.length_map, List.length_range]
    · intro r hr
      rw [← hreports] at hr
      obtain ⟨n, -, rfl⟩ := List.mem_map.mp hr
      exact ⟨rfl, rfl, rfl⟩

/-- A semaphore's value after another part of a core has changed. -/
theorem State.semVal_modCore_keeps (s : State) (core c idx : Nat) (f : Core → Core) (h : ∀ k, (f k).sems.vals = k.sems.vals) :
    (s.modCore c f).semVal core idx = s.semVal core idx :=
  congrArg (kgetD · idx 0) (s.core_modCore_keeps (fun k => k.sems.vals) c core f h)

theorem State.semVal_modCtx (s : State) (i core idx : Nat) (f : Ctx → Ctx) : (s.modCtx i f).semVal core idx = s.semVal core idx := rfl

/-- The value put in a semaphore is read there. -/
theorem State.semVal_modCore_set {s : State} {core idx : Nat} {f : Core → Core} {v : Word32}
    (h : (f (s.core core)).sems.vals = kset (s.core core).sems.vals idx v) : (s.modCore core f).semVal core idx = v := by
  unfold State.semVal
  rw [State.core_modCore_self, h]
  exact kgetD_kset_self ..

/-- A wait satisfied changes no semaphore's value. -/
theorem State.satisfyWait_semVal (s : State) (w : SemWait) (hold : Bool) (core idx : Nat) :
    (s.satisfyWait w hold).semVal core idx = s.semVal core idx := by
  unfold State.satisfyWait
  dsimp only
  generalize hu : s.modCtx w.ctx _ = u
  have hkept : u.semVal core idx = s.semVal core idx := by
    rw [← hu]
    rfl
  rw [← hkept]
  split
  · refine State.semVal_modCore_keeps _ _ _ _ _ ?_
    intro k
    rfl
  · rfl

/-- A wait satisfied releases its context, which holds one more where it took. -/
theorem State.satisfyWait_ctx {s : State} {w : SemWait} {ct : Ctx} (hctx : s.ctx? w.ctx = some ct) :
    ∃ x, (s.satisfyWait w true).ctx? w.ctx = some x ∧ x.waiting = none ∧ x.holdCount = (ct.holdCount + 1) % 256 := by
  unfold State.satisfyWait
  simp only [if_true]
  split <;> simp [hctx]

/-- Two changes of a core are one. -/
theorem State.modCore_modCore (s : State) (c : Nat) (f g : Core → Core) : (s.modCore c f).modCore c g = s.modCore c (g ∘ f) := by
  simp [State.modCore, kmod_kmod]

/-- A change of a core is what it makes of that core. -/
theorem State.modCore_congr {s : State} {c : Nat} {f g : Core → Core} (h : f (s.core c) = g (s.core c)) : s.modCore c f = s.modCore c g := by
  unfold State.modCore kmod
  rw [show kgetD s.cores c {} = s.core c from rfl, h]

/-- The value that a semaphore has after an operation. -/
def SemOp.value (v : Word32) : SemOp → Word32
  | .set w => w
  | .add w => v + w
  | .give w _ => v + w

/-- The one operation of a semaphore that has reached the store, where nothing waits there. -/
theorem semaphoreOpApply_eq {s : State} {core : Fin 8} {index : Fin 4096} {op : SemOp}
    (hops : (s.core core).sems.ops = [(index.val, op)]) (hwaits : (s.core core).sems.waits = [])
    (hop : ∀ t : State, t.applySemOp core index op = t.modCore core (fun k =>
      { k with sems := { k.sems with vals := kset k.sems.vals index (op.value (kgetD k.sems.vals index 0)) } })) :
    exec (.semaphoreOpApply core index) s = .next (State.after s (s.modCore core (fun k => { k with sems := { k.sems with
      ops := [], vals := kset k.sems.vals index (op.value (kgetD k.sems.vals index 0)) } })) core) := by
  change execSemaphoreOpApply core index s = _
  unfold execSemaphoreOpApply
  dsimp only
  rw [hops, hwaits]
  have hmine : ∀ p : SemOp → Bool, (List.filter p ([(index.val, op)].filter (fun q => q.1 == index.val) |>.map Prod.snd)
      ++ List.filter (fun o => !p o) ([(index.val, op)].filter (fun q => q.1 == index.val) |>.map Prod.snd)) = [op] := by
    intro p
    cases hp : p op <;> simp [hp]
  rw [hmine]
  simp only [List.foldl_cons, List.foldl_nil, List.filter_nil, hop]
  refine congrArg (fun t => Host.Outcome.next (State.after s t core)) ?_
  rw [State.modCore_modCore]
  refine State.modCore_congr ?_
  simp [hops]

/-- Settles O42. -/
theorem semaphores : Obligations.Semaphores := by
  unfold Obligations.Semaphores
  refine ⟨?set, ?add, ?timeout, ?take⟩
  case set => exact fun s core index v hops hwaits => semaphoreOpApply_eq (op := .set v) hops hwaits fun _ => rfl
  case add => exact fun s core index v hops hwaits => semaphoreOpApply_eq (op := .add v) hops hwaits fun _ => rfl
  case timeout =>
    intro s ctx end_ ct ds hctx hwaiting hunmet hlate hhead
    change execSemWaitTimeout ctx s = _
    unfold execSemWaitTimeout
    rw [hctx]
    dsimp only
    rw [hwaiting]
    dsimp only
    rw [if_neg (by rw [hunmet]; simpa using hlate), hhead]
  case take =>
    intro s core idx w hidx hcore
    refine ⟨fun hle => ?_, fun hlt => ?_, fun ct hctx => State.satisfyWait_ctx hctx, fun ct v hctx => ?_⟩
    · unfold State.applyTakes
      rw [List.foldl_cons, List.foldl_nil]
      dsimp only
      rw [if_pos hle, State.satisfyWait_semVal, State.semVal_modCore_set (v := s.semVal core idx - w.value) rfl]
      bv_omega
    · unfold State.applyTakes
      rw [List.foldl_cons, List.foldl_nil]
      exact if_neg (by simpa using hlt)
    · refine ⟨{ ct with holdCount := ct.holdCount - 1 }, ?_, rfl, ?_⟩
      · simp [State.applySemOp, hctx]
      · unfold State.applySemOp
        dsimp only
        rw [State.semVal_modCore_keeps, State.semVal_modCtx, State.semVal_modCore_set (v := s.semVal core idx + v) rfl]
        intro k
        rfl

/-- What a holder holds after its credits have been put. -/
theorem Core.creditsOf_putCredits (k : Core) (h : Nat) (o : CreditHolder) (n : Nat) : (k.putCredits h o n).creditsOf h o = n := by
  unfold Core.putCredits Core.creditsOf
  have hout : ∀ l : List (Nat × CreditHolder × Nat), (l.filter (fun q => !(q.1 == h && q.2.1 == o))).filter
      (fun q => q.1 == h && q.2.1 == o) = [] := by
    intro l
    rw [List.filter_filter, List.filter_eq_nil_iff]
    intro q _
    cases (q.1 == h && q.2.1 == o) <;> decide
  dsimp only
  split
  · next hn => rw [hout, hn]; rfl
  · rw [List.filter_append, hout]
    simp

/-- Settles O43. -/
theorem credits : Obligations.Credits := by
  unfold Obligations.Credits
  refine ⟨?ask, ?fenced, ?release, ?context, ?channel, ?timeout⟩
  case ask =>
    intro s ctx core c hissue hopen
    change execCreditAcquire ctx s = _
    unfold execCreditAcquire
    rw [hissue]
    exact congrArg Host.Outcome.next (if_neg (by simp [hopen]))
  case fenced =>
    intro s ctx core c hissue hfenced
    change execCreditAcquire ctx s = _
    unfold execCreditAcquire
    rw [hissue]
    exact congrArg Host.Outcome.next (if_pos hfenced)
  case release =>
    intro s ctx core c hissue
    change execCreditRelease ctx s = _
    unfold execCreditRelease
    rw [hissue]
  case context =>
    intro s target h ctx n since hopen hfirst hfree hpos
    change ∃ u : State, execCreditGrant target h s = _ ∧ _
    unfold execCreditGrant
    rw [if_neg (by simp [hopen]), hfirst]
    dsimp only
    rw [show n.min ((s.core target).creditFree h) = n from Nat.min_eq_left hfree, if_neg (by omega)]
    refine ⟨_, rfl, ?_, rfl, rfl, rfl, rfl⟩
    rw [State.core_modCore_self]
    exact Core.creditsOf_putCredits ..
  case channel =>
    intro s target h c ch n since hopen hfirst hfree hpos hother
    change ∃ t : State, execCreditGrant target h s = _ ∧ _
    unfold execCreditGrant
    rw [if_neg (by simp [hopen]), hfirst]
    dsimp only
    rw [show n.min ((s.core target).creditFree h) = n from Nat.min_eq_left hfree, if_neg (by omega), if_pos rfl]
    refine ⟨_, rfl, ?_, rfl, rfl, rfl, rfl⟩
    rw [State.core_modCore_ne _ _ (Ne.symm hother), State.core_modCore_self]
    exact Core.creditsOf_putCredits ..
  case timeout =>
    intro s ctx ct c hctx hrunning hold
    change ∃ t : State, execCreditTimeout ctx s = _ ∧ _
    unfold execCreditTimeout
    rw [hctx]
    dsimp only
    rw [hrunning]
    dsimp only
    rw [hold, if_neg (by decide)]
    refine ⟨_, rfl, ?_, ?_, rfl, rfl, rfl, rfl⟩
    · intro m hm hmctx hmseq
      rw [State.modCmd, State.core_modCore_self] at hm
      obtain ⟨m', -, rfl⟩ := List.mem_map.mp hm
      split at hmctx <;> rename_i hself
      · rw [if_pos hself]
        exact ⟨rfl, rfl⟩
      · rw [if_neg hself] at hmseq
        exact absurd (by simp [hmctx, hmseq]) hself
    · intro q hq
      rw [State.modCmd, State.core_modCore_keeps Core.creditReqs _ _ _ _ (by intro k; rfl), State.core_modCore_self] at hq
      simpa [imp_iff_not_or] using (List.mem_filter.mp hq).2

end Sys2Proof.Machine

/-! PROOFS. Channel commands (R342, R345, R360 to R362). -/

namespace Sys2Proof.Machine
open Sys2Proof.Safety

/-- A channel that is not free stands in its core's table. -/
theorem State.chan_stands {s : State} {core n : Nat} (h : (s.chan core n).state ≠ .free) :
    kget? (s.core core).channels n = some (s.chan core n) := by
  unfold State.chan kgetD at h ⊢
  cases hk : kget? (s.core core).channels n with
  | none =>
    rw [hk] at h
    exact absurd rfl h
  | some c => rfl

/-- A channel that stands is changed where it stands. -/
theorem State.chan_modChan {s : State} {core n : Nat} (f : Channel → Channel) (h : (s.chan core n).state ≠ .free) :
    (s.modChan core n f).chan core n = f (s.chan core n) := by
  have hstands := State.chan_stands h
  unfold State.modChan State.chan at *
  rw [State.core_modCore_self]
  unfold kgetD
  dsimp only
  rw [kget?_kmod?_self, hstands]
  rfl

/-- A change of a command leaves the channels. -/
theorem State.chan_modCmd (s : State) (core ctx seq c n : Nat) (f : Cmd → Cmd) : (s.modCmd core ctx seq f).chan c n = s.chan c n := by
  refine congrArg (kgetD · n {}) (s.core_modCore_keeps Core.channels core c _ ?_)
  intro k
  rfl

/-- Settles O44. -/
theorem channelCommands : Obligations.ChannelCommands := by
  unfold Obligations.ChannelCommands
  refine ⟨?start, ?busy, ?running, ?idle, ?stop, ?pass⟩
  case start =>
    intro s ctx core c hissue hfree
    change execStreamStart ctx s = _
    unfold execStreamStart
    rw [hissue]
    exact congrArg Host.Outcome.next (if_neg fun h => h hfree)
  case busy =>
    intro s ctx core c hissue hbusy
    change execStreamStart ctx s = _
    unfold execStreamStart
    rw [hissue]
    exact congrArg Host.Outcome.next (if_pos hbusy)
  case running =>
    intro s ctx core c hissue hgo hrunning hnone
    change execStreamRearm ctx s = _
    unfold execStreamRearm
    rw [hissue]
    dsimp only
    rw [if_neg (by simp [hgo])]
    unfold State.rearm
    dsimp only
    rw [hrunning, hnone, hgo]
    rfl
  case idle =>
    intro s ctx core c hissue hgo hidle
    change execStreamRearm ctx s = _
    unfold execStreamRearm
    rw [hissue]
    dsimp only
    rw [if_neg (by simp [hgo])]
    unfold State.rearm
    dsimp only
    rw [hidle, hgo]
  case stop =>
    intro s ctx core c hissue hstop hidle
    change execStreamStop ctx s = _
    unfold execStreamStop
    rw [hissue]
    dsimp only
    rw [if_pos hstop]
    unfold State.rearm
    dsimp only
    rw [hidle, hstop]
    dsimp only
    unfold State.nextPass
    dsimp only
    rw [State.chan_modChan _ (by rw [State.chan_modCmd, hidle]; decide)]
    rfl
  case pass =>
    intro s core n desc ctx seq
    have hother : ∀ m, m ≠ n → (s.startPass core n desc ctx seq).chan core m = s.chan core m := by
      intro m hm
      simp only [State.startPass, State.chan, State.core_modCore_self]
      exact kgetD_kmod_ne _ _ _ _ hm
    have hself : (s.startPass core n desc ctx seq).chan core n = (s.startPass core n desc ctx seq).chan core n := rfl
    conv_rhs at hself => simp only [State.startPass, State.chan, State.core_modCore_self, kgetD_kmod_self]
    rw [hself]
    exact ⟨rfl, rfl, rfl, rfl, rfl, hother, rfl, rfl⟩

end Sys2Proof.Machine

/-! PROOFS. Stages issued and commands completed (R197, R216, R218, R233, R384). -/

namespace Sys2Proof.Machine
open Sys2Proof.Safety

/-- The first of the columns that the `i`-th of `m` engines has. -/
def rangeStart (n m i : Nat) : Nat := i * (n / m) + Nat.min i (n % m)

/-- How many columns the `i`-th of `m` engines has. -/
def rangeCount (n m i : Nat) : Nat := if i < n % m then n / m + 1 else n / m

theorem ranges_eq (n m : Nat) : ranges n m = (List.range m).map (fun i => (rangeStart n m i, rangeCount n m i)) := rfl

theorem rangeStart_succ (n m i : Nat) : rangeStart n m (i + 1) = rangeStart n m i + rangeCount n m i := by
  unfold rangeStart rangeCount
  rw [Nat.add_one_mul]
  split
  · next h =>
    rw [show (i + 1).min (n % m) = i + 1 from Nat.min_eq_left h, show i.min (n % m) = i from Nat.min_eq_left (by omega)]
    omega
  · next h =>
    rw [show (i + 1).min (n % m) = n % m from Nat.min_eq_right (by omega), show i.min (n % m) = n % m from Nat.min_eq_right (by omega)]
    omega

theorem rangeStart_zero (n m : Nat) : rangeStart n m 0 = 0 := by
  simp [rangeStart]

theorem rangeStart_all {n m : Nat} (hm : 0 < m) : rangeStart n m m = n := by
  unfold rangeStart
  rw [show m.min (n % m) = n % m from Nat.min_eq_right (Nat.mod_lt _ hm).le]
  exact Nat.div_add_mod n m

theorem rangeStart_mono (n m : Nat) {i j : Nat} (h : i ≤ j) : rangeStart n m i ≤ rangeStart n m j := by
  induction j, h using Nat.le_induction with
  | base => exact Nat.le_refl _
  | succ j _ ih =>
    rw [rangeStart_succ]
    omega

/-- A column below the first `k` ranges' end is in one of them. -/
theorem exists_range {n m k j : Nat} (h : j < rangeStart n m k) :
    ∃ i, i < k ∧ rangeStart n m i ≤ j ∧ j < rangeStart n m i + rangeCount n m i := by
  induction k with
  | zero =>
    rw [rangeStart_zero] at h
    omega
  | succ k ih =>
    by_cases hk : j < rangeStart n m k
    · obtain ⟨i, hi, hij⟩ := ih hk
      exact ⟨i, by omega, hij⟩
    · rw [rangeStart_succ] at h
      exact ⟨k, by omega, by omega, h⟩

theorem sum_rangeCount (n m k : Nat) : ((List.range k).map (rangeCount n m)).sum = rangeStart n m k := by
  induction k with
  | zero => rw [rangeStart_zero]; rfl
  | succ k ih => rw [List.range_succ, List.map_append, List.sum_append, ih, rangeStart_succ]; simp

/-- The work item of one tile of a stage. -/
def tileItem (c : Cmd) (core st e r j : Nat) : WorkItem :=
  { ctx := c.ctx, seq := c.seq, stage := st, rt := r, ct := j, home := core, first := e }

/-- The items of a stage of tiles: each engine's columns, each column's rows. -/
theorem stageItems_eq {c : Cmd} {core st : Nat} (live : List Nat) (hop : dOp (c.desc st) ≠ 0x30) :
    stageItems c core st live = ((List.zip live (ranges (dCT (c.desc st)) live.length)).map (fun q =>
      ((List.range q.2.2).map (fun i => (List.range (dRT (c.desc st))).map (fun r => (q.1, tileItem c core st q.1 r (q.2.1 + i))))).flatten)).flatten := by
  have hvec : (dOp (c.desc st) == 0x30) = false := by simpa using hop
  simp only [stageItems, hvec, Bool.false_eq_true, if_false]
  rfl

/-- What is among the items of a stage of tiles. -/
theorem mem_stageItems {c : Cmd} {core st : Nat} {live : List Nat} {q : Nat × WorkItem} (hop : dOp (c.desc st) ≠ 0x30) :
    q ∈ stageItems c core st live ↔ ∃ i e, live[i]? = some e ∧ ∃ k < rangeCount (dCT (c.desc st)) live.length i,
      ∃ r < dRT (c.desc st), q = (e, tileItem c core st e r (rangeStart (dCT (c.desc st)) live.length i + k)) := by
  rw [stageItems_eq live hop, ranges_eq]
  simp only [List.mem_flatten, List.mem_map, List.mem_range]
  constructor
  · rintro ⟨_, ⟨⟨e, n⟩, hz, rfl⟩, hq⟩
    obtain ⟨i, hi⟩ := List.mem_iff_getElem?.mp hz
    rw [List.getElem?_zip_eq_some] at hi
    obtain ⟨he, hn⟩ := hi
    rw [List.getElem?_map, List.getElem?_range (List.getElem?_eq_some_iff.mp he).1, Option.map_some, Option.some.injEq] at hn
    subst hn
    obtain ⟨_, hl, hq⟩ := List.mem_flatten.mp hq
    obtain ⟨k, hk, rfl⟩ := List.mem_map.mp hl
    obtain ⟨r, hr, rfl⟩ := List.mem_map.mp hq
    exact ⟨i, e, he, k, List.mem_range.mp hk, r, List.mem_range.mp hr, rfl⟩
  · rintro ⟨i, e, he, k, hk, r, hr, rfl⟩
    refine ⟨_, ⟨(e, rangeStart (dCT (c.desc st)) live.length i, rangeCount (dCT (c.desc st)) live.length i), ?_, rfl⟩,
      List.mem_flatten.mpr ⟨_, List.mem_map.mpr ⟨k, List.mem_range.mpr hk, rfl⟩, List.mem_map.mpr ⟨r, List.mem_range.mpr hr, rfl⟩⟩⟩
    refine List.mem_iff_getElem?.mpr ⟨i, List.getElem?_zip_eq_some.mpr ⟨he, ?_⟩⟩
    rw [List.getElem?_map, List.getElem?_range (List.getElem?_eq_some_iff.mp he).1]
    rfl

/-- A stage of tiles has an item for each of its tiles. -/
theorem length_stageItems {c : Cmd} {core st : Nat} {live : List Nat} (hop : dOp (c.desc st) ≠ 0x30) (hlive : 0 < live.length) :
    (stageItems c core st live).length = dRT (c.desc st) * dCT (c.desc st) := by
  rw [stageItems_eq live hop, List.length_flatten, List.map_map]
  have hrange : ∀ q : Nat × Nat × Nat, ((List.range q.2.2).map (fun i => (List.range (dRT (c.desc st))).map (fun r =>
      (q.1, tileItem c core st q.1 r (q.2.1 + i))))).flatten.length = q.2.2 * dRT (c.desc st) := by
    intro q
    rw [List.length_flatten, List.map_map]
    simp [Function.comp_def]
  have hsnd : (List.zip live (ranges (dCT (c.desc st)) live.length)).map (fun q => q.2) = ranges (dCT (c.desc st)) live.length :=
    List.map_snd_zip (by simp [ranges_eq])
  calc _ = ((List.zip live (ranges (dCT (c.desc st)) live.length)).map (fun q => q.2.2 * dRT (c.desc st))).sum :=
        congrArg List.sum (List.map_congr_left fun q _ => hrange q)
    _ = ((ranges (dCT (c.desc st)) live.length).map (fun q => q.2 * dRT (c.desc st))).sum := by
        rw [← hsnd, List.map_map, hsnd]
        rfl
    _ = ((List.range live.length).map (rangeCount (dCT (c.desc st)) live.length)).sum * dRT (c.desc st) := by
        rw [ranges_eq, List.map_map, ← List.sum_map_mul_right]
        rfl
    _ = _ := by rw [sum_rangeCount, rangeStart_all hlive, Nat.mul_comm]

/-- A walk's stage is issued once its walk is done. -/
theorem walkStage_eq {s : State} {ctx op core : Nat} {c d : Cmd} (hissue : s.toIssue ctx op = some (core, c)) (hfree : c.stageFree = true)
    (hwalk : c.walk = none) (htag : (s.core core).tagFree false = true) (hcmd : (s.walk core c).cmd? core c.ctx c.seq = some d) :
    s.walkStage ctx op = State.after s ((s.walk core c).issueStage core d) core := by
  unfold State.walkStage
  rw [hissue]
  dsimp only
  rw [if_neg (by simp [hfree, hwalk]), if_neg (by simp [htag]), hcmd]

/-- Settles O45. -/
theorem stagesIssueAndCommandsComplete : Obligations.StagesIssueAndCommandsComplete := by
  unfold Obligations.StagesIssueAndCommandsComplete
  refine ⟨?vector, ?matmul, ?gather, ?score, ?complete, ?items⟩
  case vector =>
    intro s ctx core c hissue
    change execVecRun ctx s = _
    unfold execVecRun
    rw [hissue]
  case matmul =>
    intro s ctx core c hissue
    change execMatmul ctx s = _
    unfold execMatmul
    rw [hissue]
  case gather => exact fun s ctx core c d hissue hfree hwalk htag hcmd => congrArg Host.Outcome.next (walkStage_eq hissue hfree hwalk htag hcmd)
  case score => exact fun s ctx core c d hissue hfree hwalk htag hcmd => congrArg Host.Outcome.next (walkStage_eq hissue hfree hwalk htag hcmd)
  case complete =>
    intro s ctx ct c hctx hrun hdone
    change execCommandComplete ctx s = _
    unfold execCommandComplete
    rw [hctx]
    dsimp only
    rw [if_neg (by simp [hrun]), hdone]
  case items =>
    intro c core st live hlive hop
    have hpos : 0 < live.length := List.length_pos_iff.mpr hlive
    refine ⟨length_stageItems hop hpos, ?_, ?_⟩
    · intro q hq
      obtain ⟨i, e, he, k, hk, r, hr, rfl⟩ := (mem_stageItems hop).mp hq
      refine ⟨List.mem_of_getElem? he, hr, ?_⟩
      have hi : i + 1 ≤ live.length := (List.getElem?_eq_some_iff.mp he).1
      have hend := rangeStart_mono (dCT (c.desc st)) live.length hi
      rw [rangeStart_all hpos, rangeStart_succ] at hend
      change _ + k < _
      omega
    · intro r j hr hj
      rw [← rangeStart_all (n := dCT (c.desc st)) hpos] at hj
      obtain ⟨i, hi, hlo, hhi⟩ := exists_range hj
      refine ⟨_, (mem_stageItems hop).mpr ⟨i, live[i], List.getElem?_eq_getElem hi, j - rangeStart (dCT (c.desc st)) live.length i, ?_, r, hr, rfl⟩,
        rfl, ?_, rfl, rfl⟩
      · omega
      · exact Nat.add_sub_cancel' hlo

end Sys2Proof.Machine

/-! PROOFS. Engines take and start their items (R183, R184, R215, R219 to R227, R308). -/

namespace Sys2Proof.Machine
open Sys2Proof.Safety

/-- What a change of an engine's Bell, its taken item or its queue keeps: the running item, the sets and how many items are ahead. -/
def Engine.sameItems (g h : Engine) : Prop :=
  g.running = h.running ∧ g.set0 = h.set0 ∧ g.set1 = h.set1 ∧ g.ahead.length = h.ahead.length

theorem Engine.sameItems_refl (g : Engine) : g.sameItems g := ⟨rfl, rfl, rfl, rfl⟩

theorem Engine.sameItems.trans {f g h : Engine} (hfg : f.sameItems g) (hgh : g.sameItems h) : f.sameItems h :=
  ⟨hfg.1.trans hgh.1, hfg.2.1.trans hgh.2.1, hfg.2.2.1.trans hgh.2.2.1, hfg.2.2.2.trans hgh.2.2.2⟩

theorem Engine.ahead_reItem (g : Engine) (w w' : WorkItem) : (g.reItem w w').ahead.length = g.ahead.length := by
  unfold Engine.reItem Engine.ahead
  cases g.taken <;> simp

/-- Queueing an item's codebook at the Bell keeps the engine's items. -/
theorem State.bellQueue_items (s : State) (c : Cmd) (core e : Nat) (w : WorkItem) :
    ((s.bellQueue c core e w).1.engine core e).sameItems (s.engine core e) := by
  have hchange : ∀ f : Engine → Engine, (∀ g, (f g).sameItems g) → ((s.modEngine core e f).engine core e).sameItems (s.engine core e) := by
    intro f hf
    rw [State.engine_modEngine_self]
    exact hf _
  unfold State.bellQueue
  dsimp only
  split_ifs
  · exact hchange _ fun g => ⟨rfl, rfl, rfl, g.ahead_reItem ..⟩
  · exact hchange _ fun g => ⟨rfl, rfl, rfl, g.ahead_reItem ..⟩
  · exact Engine.sameItems_refl _
  · exact hchange _ fun g => ⟨rfl, rfl, rfl, rfl⟩

/-- Reading on for the items ahead keeps the engine's items. -/
theorem State.lookAhead_items (s : State) (core e : Nat) : ((s.lookAhead core e).engine core e).sameItems (s.engine core e) := by
  unfold State.lookAhead
  dsimp only
  split
  · exact Engine.sameItems_refl _
  · split
    · exact Engine.sameItems_refl _
    · exact State.bellQueue_items ..

theorem State.foldl_items {β : Type} {core e : Nat} {f : State → β → State} (h : ∀ t a, ((f t a).engine core e).sameItems (t.engine core e))
    (l : List β) (s : State) : ((l.foldl f s).engine core e).sameItems (s.engine core e) := by
  induction l generalizing s with
  | nil => exact Engine.sameItems_refl _
  | cons a l ih => exact (ih (f s a)).trans (h s a)

/-- A transfer tag taken leaves the engines. -/
theorem State.takeTag_engines (s : State) (core unit : Nat) : ((s.takeTag core unit).1.core core).engines = (s.core core).engines := by
  unfold State.takeTag
  dsimp only
  split
  · rw [State.core_modCore_self]
  · rw [State.core_modCore_self]

/-- Extension reads keep the engine's items. -/
theorem State.issueExt_items (s : State) (core e : Nat) (rows : List (List (List Nat))) :
    ((s.issueExt core e rows).engine core e).sameItems (s.engine core e) := by
  unfold State.issueExt
  refine State.foldl_items (fun t d => State.foldl_items (fun t a => ?_) _ t) _ s
  dsimp only
  have htag : ((t.takeTag core (32 + e)).1.engine core e).sameItems (t.engine core e) := by
    have hcore := t.takeTag_engines core (32 + e)
    unfold State.engine Core.engine
    rw [hcore]
    exact Engine.sameItems_refl _
  split_ifs
  · exact Engine.sameItems_refl _
  · refine Engine.sameItems.trans ?_ htag
    rw [State.engine_modEngine_self]
    exact ⟨rfl, rfl, rfl, rfl⟩
  · exact htag

/-- The engine that starts an item, before what it reads on. -/
def Engine.started (g : Engine) (i segs : Nat) (w : WorkItem) (bell : BellState) : Engine :=
  let g := g.putSet i { state := .filling, item := some w }
  let g := if 1 < segs then g.putSet (1 - i) { state := .filling, item := some w } else g
  { g.dropAhead with running := some (w, i), segs := 0, bell := bell }

theorem Engine.set_congr {g h : Engine} (h0 : g.set0 = h.set0) (h1 : g.set1 = h.set1) (i : Nat) : g.set i = h.set i := by
  unfold Engine.set
  rw [h0, h1]

theorem Engine.dropAhead_sets (g : Engine) : g.dropAhead.set0 = g.set0 ∧ g.dropAhead.set1 = g.set1 := by
  unfold Engine.dropAhead
  split <;> exact ⟨rfl, rfl⟩

/-- The sets of an engine after one has been put. -/
theorem Engine.set_putSet (g : Engine) {i j : Nat} (a : AccSet) (hi : i < 2) (hj : j < 2) :
    (g.putSet i a).set j = if j = i then a else g.set j := by
  obtain rfl | rfl : i = 0 ∨ i = 1 := by omega
  · obtain rfl | rfl : j = 0 ∨ j = 1 := by omega
    · rfl
    · rfl
  · obtain rfl | rfl : j = 0 ∨ j = 1 := by omega
    · rfl
    · rfl

theorem Engine.started_sets (g : Engine) (i segs : Nat) (w : WorkItem) (b : BellState) (j : Nat) : (g.started i segs w b).set j =
    (if 1 < segs then (g.putSet i { state := .filling, item := some w }).putSet (1 - i) { state := .filling, item := some w }
      else g.putSet i { state := .filling, item := some w }).set j := by
  unfold Engine.started
  dsimp only
  exact Engine.set_congr (Engine.dropAhead_sets _).1 (Engine.dropAhead_sets _).2 j

theorem Engine.started_set (g : Engine) {i : Nat} (hi : i < 2) (segs : Nat) (w : WorkItem) (b : BellState) :
    (g.started i segs w b).set i = { state := .filling, item := some w } := by
  rw [Engine.started_sets]
  split
  · rw [Engine.set_putSet _ _ (by omega) hi, if_neg (by omega), Engine.set_putSet _ _ hi hi, if_pos rfl]
  · rw [Engine.set_putSet _ _ hi hi, if_pos rfl]

theorem Engine.started_other (g : Engine) {i : Nat} (hi : i < 2) (segs : Nat) (w : WorkItem) (b : BellState) :
    (g.started i segs w b).set (1 - i) = if 1 < segs then { state := .filling, item := some w } else g.set (1 - i) := by
  rw [Engine.started_sets]
  split
  · rw [Engine.set_putSet _ _ (by omega) (by omega), if_pos rfl]
  · rw [Engine.set_putSet _ _ hi (by omega), if_neg (by omega)]

/-- What is ahead of an engine once it has begun its first item. -/
theorem Engine.started_ahead (g : Engine) (i segs : Nat) (w : WorkItem) (b : BellState) :
    (g.started i segs w b).ahead.length = g.dropAhead.ahead.length := by
  have hput : ∀ (g : Engine) (i : Nat) (a : AccSet), (g.putSet i a).taken = g.taken ∧ (g.putSet i a).queue = g.queue := by
    intro g i a
    unfold Engine.putSet
    split <;> exact ⟨rfl, rfl⟩
  unfold Engine.started
  dsimp only
  split <;> simp [Engine.ahead, Engine.dropAhead, hput, apply_ite Engine.taken, apply_ite Engine.queue]

/-- An item that starts leaves its engine with the items that `started` gives. -/
theorem State.startItem_items (s : State) (c : Cmd) (core e i segs : Nat) (w : WorkItem) (r : List Byte) : ∃ b,
    ((s.startItem c core e i segs w r).engine core e).sameItems ((s.engine core e).started i segs { w with started := s.now } b) := by
  unfold State.startItem
  dsimp only
  generalize ht : s.modEngine core e _ = t
  have hself : ∃ b, t.engine core e = (s.engine core e).started i segs { w with started := s.now } b := by
    rw [← ht, State.engine_modEngine_self]
    exact ⟨_, rfl⟩
  obtain ⟨b, hb⟩ := hself
  refine ⟨b, ?_⟩
  rw [← hb]
  exact (State.lookAhead_items ..).trans (State.issueExt_items ..)

/-- Settles O46. -/
theorem enginesTakeAndStartItems : Obligations.EnginesTakeAndStartItems := by
  unfold Obligations.EnginesTakeAndStartItems
  refine ⟨?own, ?steal, ?neighbour, ?start, ?started, ?ahead, ?vector, ?age⟩
  case own =>
    intro s core e w l hrun htakes hown
    change execStealGrant core e s = _
    unfold execStealGrant
    dsimp only
    rw [if_neg (by simp [hrun, htakes]), hown]
  case steal =>
    intro s core e near vc ve w hrun hidle hown hnear hsteal hfirst
    have htakes : s.engineTakes core e = true := by
      unfold State.engineIdle at hidle
      exact (Bool.and_eq_true_iff.mp hidle).1
    have hnear' : (if s.recovering (core.val ^^^ 1) = true then none else s.rerunFor core e (core.val ^^^ 1)).isSome = near := by
      rw [hnear]
      cases s.recovering (core.val ^^^ 1) <;> rfl
    change execStealGrant core e s = _
    unfold execStealGrant
    dsimp only
    rw [if_neg (by simp [hrun, htakes]), hown]
    dsimp only
    rw [if_neg (by simp [hidle]), hnear', hsteal]
    dsimp only
    rw [if_neg]
    rw [List.any_eq_true]
    rintro ⟨n, hn, hbefore⟩
    rw [Bool.and_eq_true] at hbefore
    exact hfirst n (List.mem_range.mp hn) hbefore.1 (eq_of_beq hbefore.2)
  case neighbour =>
    intro s core e w l hrun hidle hown hnrun hnear hsteal
    have htakes : s.engineTakes core e = true := by
      unfold State.engineIdle at hidle
      exact (Bool.and_eq_true_iff.mp hidle).1
    change execStealGrant core e s = _
    unfold execStealGrant
    dsimp only
    rw [if_neg (by simp [hrun, htakes]), hown]
    dsimp only
    rw [if_neg (by simp [hidle]), if_neg (by simp [hnrun]), hnear]
    dsimp only [Option.isSome_some]
    rw [hsteal]
  case start =>
    intro s core e w q c i segs hrun hnone hfirst hahead hcmd hop hcoded hsegs hfree hready htag
    have hknown : ¬(dCoded (c.desc w.stage) = true ∧ w.tag.isNone = true) := by
      rintro ⟨h1, h2⟩
      rcases hcoded with h | h
      · rw [h] at h1
        cases h1
      · rw [Option.isNone_iff_eq_none] at h2
        rw [h2] at h
        cases h
    have hgo : ¬((!s.itemReady c core e w || (w.home != core.val && !(s.core core).tagFree false)) = true) := by
      rw [hready]
      rcases htag with h | h <;> simp [h]
    change execWorkItemStart core e s = _
    unfold execWorkItemStart
    dsimp only
    rw [if_neg (by simp [hrun]), if_neg (by simp [hnone]), if_neg (by simp [hfirst]), hahead]
    dsimp only
    rw [hcmd]
    dsimp only
    rw [if_neg hop, if_neg hknown]
    dsimp only
    rw [if_neg hknown, ← hsegs, hfree]
    dsimp only
    rw [if_neg hgo]
  case started =>
    intro s c core e i segs w r hi hcore
    obtain ⟨b, hitems⟩ := s.startItem_items c core e i segs w r
    obtain ⟨hrunning, hset0, hset1, hlen⟩ := hitems
    refine ⟨hrunning.trans rfl, ?_, ?_, hlen.trans ?_, by simp, by simp, by simp, by simp⟩
    · rw [Engine.set_congr hset0 hset1]
      exact Engine.started_set _ hi ..
    · rw [Engine.set_congr hset0 hset1]
      exact Engine.started_other _ hi ..
    · exact Engine.started_ahead ..
  case ahead =>
    intro s core e hrun hsome
    change execWorkItemStart core e s = _
    unfold execWorkItemStart
    dsimp only
    rw [if_neg (by simp [hrun]), if_pos hsome]
  case vector =>
    intro s core e w q c hrun hnone hfirst hahead hcmd hop hfree
    change execWorkItemStart core e s = _
    unfold execWorkItemStart
    dsimp only
    rw [if_neg (by simp [hrun]), if_neg (by simp [hnone]), if_neg (by simp [hfirst]), hahead]
    dsimp only
    rw [hcmd]
    dsimp only
    rw [if_pos hop, if_neg (by simp [hfree])]
  case age =>
    intro s core e l hl
    refine ⟨_, rfl, ?_, fun n hn => ?_, rfl, rfl, rfl, rfl⟩
    · rw [State.core_modCore_self]
      dsimp only
      rw [kget?_kmod?_self, hl]
      rfl
    · rw [State.core_modCore_self]
      exact kget?_kmod?_ne _ _ hn

end Sys2Proof.Machine

/-! PROOFS. Output conversion (R108, R112, R145). -/

namespace Sys2Proof.Machine
open Sys2Proof.Safety

/-- A fraction with a positive denominator is its normal form times the common divisor. -/
theorem Frac.norm_spec {q : Frac} (hd : 0 < q.den) : ∃ g : Nat, 0 < g ∧ q.num = g * q.norm.num ∧ q.den = g * q.norm.den := by
  have hg : 0 < Nat.gcd q.num.natAbs q.den := Nat.gcd_pos_of_pos_right _ hd
  refine ⟨Nat.gcd q.num.natAbs q.den, hg, ?_, ?_⟩
  · unfold Frac.norm
    dsimp only
    rw [if_neg (by omega)]
    exact (Int.mul_ediv_cancel' (Int.natCast_dvd.mpr (Nat.gcd_dvd_left ..))).symm
  · unfold Frac.norm
    dsimp only
    rw [if_neg (by omega)]
    exact (Nat.mul_div_cancel' (Nat.gcd_dvd_right ..)).symm

theorem Frac.norm_isZero {q : Frac} (hd : 0 < q.den) : q.norm.isZero = q.isZero := by
  obtain ⟨g, hg, hnum, -⟩ := Frac.norm_spec hd
  unfold Frac.isZero
  rw [hnum]
  simp [show g ≠ 0 by omega]

theorem Frac.norm_lt {q : Frac} (hd : 0 < q.den) (p : Frac) : q.norm.lt p = q.lt p := by
  obtain ⟨g, hg, hnum, hden⟩ := Frac.norm_spec hd
  unfold Frac.lt
  have hg' : (0 : Int) < g := by omega
  rw [hnum, hden, decide_eq_decide]
  push_cast
  rw [mul_assoc, show p.num * ((g : Int) * q.norm.den) = g * (p.num * q.norm.den) by ring]
  exact (Int.mul_lt_mul_left hg').symm

theorem Frac.lt_norm {q : Frac} (hd : 0 < q.den) (p : Frac) : p.lt q.norm = p.lt q := by
  obtain ⟨g, hg, hnum, hden⟩ := Frac.norm_spec hd
  unfold Frac.lt
  have hg' : (0 : Int) < g := by omega
  rw [hnum, hden, decide_eq_decide]
  push_cast
  rw [mul_assoc (g : Int), show p.num * ((g : Int) * q.norm.den) = g * (p.num * q.norm.den) by ring]
  exact (Int.mul_lt_mul_left hg').symm

/-- What is left of a fraction above its whole part. -/
theorem Frac.sub_trunc {n d : Nat} : (Frac.sub ⟨n, d⟩ ⟨(Frac.trunc ⟨n, d⟩ : Nat), 1⟩) = Frac.norm ⟨(n % d : Nat), d⟩ := by
  have hnum : ((n : Int) * (1 : Nat) + -((n / d : Nat) : Int) * (d : Nat)) = ((n % d : Nat) : Int) := by
    have h : (d : Int) * ((n / d : Nat) : Int) + ((n % d : Nat) : Int) = n := by exact_mod_cast Nat.div_add_mod n d
    rw [Nat.cast_one]
    linear_combination -h
  unfold Frac.sub Frac.add Frac.neg Frac.trunc
  dsimp only
  rw [Int.natAbs_natCast, hnum, Nat.mul_one]

/-- Rounding to nearest, ties to even, in whole numbers. -/
theorem roundNat_rne {n d : Nat} (hd : 0 < d) : roundNat .rne ⟨n, d⟩ = if n % d = 0 then n / d else if 2 * (n % d) < d then n / d
    else if d < 2 * (n % d) then n / d + 1 else if n / d % 2 = 0 then n / d else n / d + 1 := by
  have htrunc : Frac.trunc ⟨n, d⟩ = n / d := rfl
  have hd' : 0 < (⟨((n % d : Nat) : Int), d⟩ : Frac).den := hd
  unfold roundNat
  dsimp only
  rw [Frac.sub_trunc, Frac.norm_isZero hd', Frac.norm_lt hd', Frac.lt_norm hd', htrunc]
  have hzero : (Frac.isZero ⟨((n % d : Nat) : Int), d⟩ = true) ↔ n % d = 0 := by
    unfold Frac.isZero
    rw [decide_eq_true_iff]
    exact Int.natCast_eq_zero
  have hlow : (Frac.lt ⟨((n % d : Nat) : Int), d⟩ ⟨1, 2⟩ = true) ↔ 2 * (n % d) < d := by
    simp [Frac.lt]
    omega
  have hhigh : (Frac.lt ⟨1, 2⟩ ⟨((n % d : Nat) : Int), d⟩ = true) ↔ d < 2 * (n % d) := by
    simp [Frac.lt]
    omega
  simp only [hzero, hlow, hhigh]

/-- Rounding to nearest is at most half away, and even where it is exactly half. -/
theorem roundNat_rne_nearest {n d : Nat} (hd : 0 < d) : 2 * n ≤ (2 * roundNat .rne ⟨n, d⟩ + 1) * d
    ∧ 2 * roundNat .rne ⟨n, d⟩ * d ≤ 2 * n + d
    ∧ ((2 * n = (2 * roundNat .rne ⟨n, d⟩ + 1) * d ∨ 2 * roundNat .rne ⟨n, d⟩ * d = 2 * n + d) → roundNat .rne ⟨n, d⟩ % 2 = 0) := by
  rw [roundNat_rne hd]
  have hdiv := Nat.div_add_mod n d
  have hlt := Nat.mod_lt n hd
  generalize n / d = q at *
  generalize n % d = r at *
  have hdown : 2 * q * d = 2 * (d * q) ∧ (2 * q + 1) * d = 2 * (d * q) + d ∧ 2 * (q + 1) * d = 2 * (d * q) + 2 * d
      ∧ (2 * (q + 1) + 1) * d = 2 * (d * q) + 3 * d := by
    refine ⟨?_, ?_, ?_, ?_⟩ <;> ring
  obtain ⟨h1, h2, h3, h4⟩ := hdown
  generalize d * q = p at *
  split_ifs <;> simp only [h1, h2, h3, h4] <;> omega

/-- An integer of a format's range has a code of its width that stands for it. -/
theorem intCode {fmt : Nat} {lo hi i : Int} (hrange : intRange fmt = some (lo, hi)) (hlo : lo ≤ i) (hhi : i ≤ hi) :
    (i % (2 ^ fmtBits fmt : Int)).toNat < 2 ^ fmtBits fmt
      ∧ (if intSigned fmt then sext (fmtBits fmt) (i % (2 ^ fmtBits fmt : Int)).toNat else ((i % (2 ^ fmtBits fmt : Int)).toNat : Int)) = i := by
  unfold intRange at hrange
  split at hrange <;> cases hrange <;> simp [fmtBits, intSigned, sext] <;> omega

/-- The ends of a format's range are in order. -/
theorem intRange_le {fmt : Nat} {lo hi : Int} (hrange : intRange fmt = some (lo, hi)) : lo ≤ hi := by
  unfold intRange at hrange
  split at hrange <;> cases hrange <;> decide

/-- A conversion to an integer format gives the code of the value held to the range. -/
theorem convInt_code {fmt : Nat} (mode : Rnd) (z : Int) (v : FVal) {lo hi : Int} (hrange : intRange fmt = some (lo, hi)) :
    (convInt fmt mode z v).1 = ((match v with
      | .nan => max lo (min hi z)
      | .inf n => if n then lo else hi
      | .fin n m => max lo (min hi (roundInt mode (FVal.frac (.fin n m)) + z))) % (2 ^ fmtBits fmt : Int)).toNat := by
  have hle := intRange_le hrange
  have hclamp : ∀ q : Int, (if q < lo then lo else if hi < q then hi else q) = max lo (min hi q) := by
    intro q
    omega
  unfold convInt
  rw [hrange]
  dsimp only
  cases v with
  | nan => rw [← hclamp]
  | inf n => rfl
  | fin n m =>
    dsimp only
    rw [← hclamp]
    split_ifs <;> rfl

/-- A finite code of a small floating format converts to itself. -/
theorem convFloat_decode : ∀ f ∈ [e4m3, e5m2, e2m1], ∀ mode ∈ [Rnd.rne, Rnd.rna, Rnd.rto], ∀ sat : Bool, ∀ c < 2 ^ f.width,
    (f.decode c).isFinite = true → convFloat f mode sat (f.decode c) = (c, {}) := by
  decide +kernel

/-- Settles O48. -/
theorem outputConversion : Obligations.OutputConversion := by
  unfold Obligations.OutputConversion
  refine ⟨fun fmt mode z lo hi v hrange => ?_, fun n d hd => roundNat_rne_nearest hd, fun f hf mode sat c hmode hc hfinite => ?_⟩
  · have hle := intRange_le hrange
    rw [convInt_code mode z v hrange]
    refine intCode hrange ?_ ?_
    · cases v with
      | nan => exact le_max_left ..
      | inf n => cases n <;> simp [hle]
      | fin n m => exact le_max_left ..
    · cases v with
      | nan => exact max_le hle (min_le_left ..)
      | inf n => cases n <;> simp [hle]
      | fin n m => exact max_le hle (min_le_left ..)
  · refine convFloat_decode f hf mode ?_ sat c hc hfinite
    cases mode
    · decide
    · decide
    · decide
    · exact absurd rfl hmode

end Sys2Proof.Machine

/-! PROOFS. Conversions, vector bodies, codebooks and extension lines (R203, R206, R248, R304, R308 to R311, R356). -/

namespace Sys2Proof.Machine
open Sys2Proof.Safety

/-- Errors found in bore memory leave the engines. -/
theorem State.boreFinds_engine (s : State) (core c e : Nat) (ranges : List (HandleEntry × Nat × Nat)) (errs : BoreErrs) :
    (s.boreFinds core ranges errs).engine c e = s.engine c e := by
  refine foldl_proj (fun t => t.engine c e) _ (fun t q => ?_) _ _
  split
  · refine congrArg (fun m => kgetD m e {}) (State.core_modCore_keeps Core.engines _ _ _ _ ?_)
    intro k
    rfl
  · rfl

/-- Reads through the Windchest change what it holds and counts, and nothing else. -/
theorem State.wcReads_eq (s : State) (a n : Nat) : ∃ sets misses stats,
    s.wcReads a n = { s with mem := { s.mem with sets := sets, misses := misses, wcStats := stats } } := by
  unfold State.wcReads
  generalize wcLines a n = l
  induction l generalizing s with
  | nil => exact ⟨_, _, _, rfl⟩
  | cons x l ih =>
    have hread : ∃ sets misses stats, s.wcRead x = { s with mem := { s.mem with sets := sets, misses := misses, wcStats := stats } } := by
      unfold State.wcRead
      dsimp only
      split
      · exact ⟨_, _, _, rfl⟩
      · split
        · exact ⟨_, _, _, rfl⟩
        · split <;> exact ⟨_, _, _, rfl⟩
    obtain ⟨sets, misses, stats, hx⟩ := hread
    obtain ⟨sets', misses', stats', hl⟩ := ih (s.wcRead x)
    refine ⟨sets', misses', stats', ?_⟩
    rw [List.foldl_cons, hl, hx]

/-- The slots of a Bell after one has been put. -/
theorem BellState.slot_putSlot (b : BellState) {i j : Nat} (x : BellSlot) (hi : i < 2) (hj : j < 2) :
    (b.putSlot i x).slot j = if j = i then x else b.slot j := by
  obtain rfl | rfl : i = 0 ∨ i = 1 := by omega
  · obtain rfl | rfl : j = 0 ∨ j = 1 := by omega
    · rfl
    · rfl
  · obtain rfl | rfl : j = 0 ∨ j = 1 := by omega
    · rfl
    · rfl

theorem BellState.putSlot_loading (b : BellState) (i : Nat) (x : BellSlot) : (b.putSlot i x).loading = b.loading := by
  unfold BellState.putSlot
  split <;> rfl

theorem BellState.slot_loading (b : BellState) (l : Option (Nat × WorkItem)) (stats : List Nat) (i : Nat) :
    ({ b with loading := l, stats := stats } : BellState).slot i = b.slot i := rfl

/-- An engine that holds an extension line that has come back. -/
def Engine.extensionHeld (g : Engine) (rest : List (Nat × Nat)) (a : Nat) (line : List Byte × Bool) : Engine :=
  { g with bell := { g.bell with extReads := rest, extDone := g.bell.extDone ++ [(a, line.1, line.2)], stats := lbump g.bell.stats 2 1 } }

/-- Queueing an item at the Bell begins no load and ends none. -/
theorem State.bellQueue_loading (s : State) (c : Cmd) (core e : Nat) (w : WorkItem) :
    ((s.bellQueue c core e w).1.engine core e).bell.loading = (s.engine core e).bell.loading := by
  unfold State.bellQueue
  dsimp only
  split_ifs
  · rw [State.engine_modEngine_self]
    exact BellState.putSlot_loading ..
  · rw [State.engine_modEngine_self]
    exact BellState.putSlot_loading ..
  · rfl
  · rw [State.engine_modEngine_self]

/-- Settles O49. -/
theorem enginesConvertAndRunBodies : Obligations.EnginesConvertAndRunBodies := by
  unfold Obligations.EnginesConvertAndRunBodies
  refine ⟨?convert, ?stalled, ?body, ?stopped, ?run, ?held, ?load, ?noSlot, ?begin, ?done, ?extension⟩
  case convert =>
    intro s core e errs i a w c hrun hold hcmd hgo
    change execConversionDone ⟨core, e⟩ errs s = _
    unfold execConversionDone
    dsimp only
    rw [if_neg (by simp [hrun]), hold]
    dsimp only
    rw [hcmd]
    dsimp only
    rw [if_neg (by simp [hgo])]
  case stalled =>
    intro s core e errs i a w c hold hcmd hstall
    change execConversionDone ⟨core, e⟩ errs s = _
    unfold execConversionDone
    dsimp only
    rw [hold]
    dsimp only
    rw [hcmd]
    dsimp only
    rw [if_pos hstall, ite_self]
  case body =>
    intro s core e errs b first c hrun hnext hcmd
    change execVeBodyEnd ⟨core, e⟩ errs s = _
    unfold execVeBodyEnd
    dsimp only
    rw [if_neg (by simp [hrun]), hnext]
    dsimp only
    rw [hcmd]
  case stopped =>
    intro g b hbody
    unfold Engine.nextBody
    rw [hbody]
  case run =>
    intro g w hbody hitem
    unfold Engine.nextBody
    rw [hbody, hitem]
  case held =>
    intro g i a w hbody hitem hheld
    unfold Engine.nextBody
    rw [hbody, hitem, hheld]
    rfl
  case load =>
    intro s core e w rest c i hrun hidle hwaiting hcmd h0 h1 hfull hfree
    change execCodebookLoadStart core e s = _
    unfold execCodebookLoadStart
    dsimp only
    rw [if_neg (by simp [hrun, hidle]), hwaiting]
    dsimp only
    rw [hcmd]
    dsimp only
    rw [if_neg (by simp [h0, h1]), if_neg (by simp [hfull]), hfree]
  case noSlot =>
    intro s core e w rest c hrun hidle hwaiting hcmd h0 h1 hfree
    change execCodebookLoadStart core e s = _
    unfold execCodebookLoadStart
    dsimp only
    rw [if_neg (by simp [hrun, hidle]), hwaiting]
    dsimp only
    rw [hcmd]
    dsimp only
    rw [if_neg (by simp [h0, h1]), hfree]
    exact congrArg Host.Outcome.next (ite_self _)
  case begin =>
    intro b i w hi
    have hslot : ∀ j, j < 2 → (b.beginLoad i w).slot j =
        if j = i then { b.slot i with ident := none, version := !(b.slot i).version, tagCount := 0 } else b.slot j :=
      fun j hj => b.slot_putSlot _ hi hj
    rw [hslot i hi, if_pos rfl, hslot (1 - i) (by omega), if_neg (by omega)]
    refine ⟨rfl, rfl, rfl, rfl, fun id => ?_⟩
    unfold BellState.holds
    rw [hslot i hi, if_pos rfl]
    rfl
  case done =>
    intro s core e errs i w c hrun hi hloading hcmd hgood
    change ∃ u : State, execCodebookLoadDone ⟨core, e⟩ errs s = _ ∧ _
    unfold execCodebookLoadDone
    dsimp only
    rw [if_neg (by simp [hrun]), hloading]
    dsimp only
    rw [hcmd]
    dsimp only
    rw [if_neg (by simp [hgood])]
    refine ⟨_, rfl, ?_, fun hw => ?_, ?_, ?_, ?_⟩
    · split
      · rw [State.bellQueue_loading, State.engine_modEngine_self]
      · rw [State.engine_modEngine_self]
    · rw [if_neg]
      · rw [State.engine_modEngine_self, State.boreFinds_engine]
        dsimp only
        simp only [BellState.slot_loading]
        rw [BellState.slot_putSlot _ _ hi hi, if_pos rfl, BellState.slot_putSlot (j := 1 - i) _ _ hi (by omega), if_neg (by omega)]
        exact ⟨rfl, rfl, rfl⟩
      · rw [State.engine_modEngine_self, State.boreFinds_engine]
        exact fun h => hw (List.contains_iff_mem.mp h)
    · simp [State.ite_frame]
    · simp [State.ite_frame]
    · simp [State.ite_frame]
  case extension =>
    intro s core e w j d a rest c hrun hrunning hreads hcmd howned
    obtain ⟨sets, misses, stats, hwc⟩ := s.wcReads_eq a 64
    have hchecked : (if (!s.ownedBy c.part a 64 || s.wcHolds a) = true then (if s.ownedBy c.part a 64 then s.wcReads a 64 else s.rangeEvent c.part a)
        else (if s.ownedBy c.part a 64 then s.wcReads a 64 else s.rangeEvent c.part a).hbmChecked a .clean) = s.wcReads a 64 := by
      rw [howned]
      exact ite_self _
    refine ⟨(s.wcReads a 64).modEngine core e (·.extensionHeld rest a (s.hbmFetch c.part a 64)), _, _, _, ?_, rfl, ?_, ?_, rfl, ?_, ?_, ?_, ?_⟩
    · change execExtensionReadReturn core e .clean s = _
      unfold execExtensionReadReturn
      dsimp only
      rw [if_neg (by simp [hrun]), hrunning, hreads]
      dsimp only
      rw [hcmd]
      dsimp only
      rw [hchecked, hwc]
      rfl
    · rw [State.engine_modEngine_self]
      rfl
    · rw [State.engine_modEngine_self, hwc]
      rfl
    · rw [hwc]
      rfl
    · rw [hwc]
      rfl
    · rw [hwc]
      rfl
    · rw [hwc]
      rfl

end Sys2Proof.Machine

/-! PROOFS. Handle entries, the narrow view and freed pages (R328, R340, R341, R374, R379, R412, R414, R488). -/

namespace Sys2Proof.Machine
open Sys2Proof.Safety

/-- A count of progress leaves a handle free or busy as it was. -/
theorem State.handleBusy_progress (s : State) (c u core i : Nat) : (s.progress c u).handleBusy core i = s.handleBusy core i := by
  unfold State.handleBusy
  refine congrArg (List.any (List.range 8)) (funext fun d => ?_)
  rw [show ((s.progress c u).core d).channels = (s.core d).channels from s.core_modCore_keeps Core.channels c d _ fun _ => rfl]

theorem State.progress_handles (s : State) (c u d : Nat) : ((s.progress c u).core d).handles = (s.core d).handles :=
  s.core_modCore_keeps Core.handles c d _ fun _ => rfl

theorem State.progress_handle (s : State) (c u d i : Nat) : ((s.progress c u).core d).handle i = (s.core d).handle i := by
  unfold Core.handle
  rw [State.progress_handles]

/-- The bytes of a number. -/
theorem getElem_toLe {n v i : Nat} (hi : i < (toLe n v).length) : ((toLe n v)[i]).toNat = v / 256 ^ i % 256 := by
  induction n generalizing v i with
  | zero => simp [toLe] at hi
  | succ n ih =>
    cases i with
    | zero => simp [toLe]
    | succ i =>
      have htail : (toLe (n + 1) v)[i + 1] = (toLe n (v / 256))[i]'(by simpa [toLe] using hi) := rfl
      rw [htail, ih, Nat.div_div_eq_div_mul, Nat.pow_succ']

/-- Settles O50. -/
theorem prepStores : Obligations.PrepStores := by
  unfold Obligations.PrepStores
  refine ⟨?store, ?busy, ?narrow, fun s core prep => rfl⟩
  case store =>
    intro s core prep addr v part hpart halign hopen hlo hhi hpool hfree
    have hkept : ∀ e : HandleEntry, (e = ((s.core core).handle (addr.val / 32)).store part (addr.val % 32 / 8) v) →
        (addr.val % 32 / 8 == 0 && e.valid && e.pool) = false := by
      rintro e rfl
      rcases hpool with h | h
      · rw [show (addr.val % 32 / 8 == 0) = false by rw [beq_eq_false_iff_ne]; omega]
        rfl
      · rw [h, Bool.and_false]
    have hhandle : ((s.progress core (112 + prep)).core core).handle (addr.val / 32) = (s.core core).handle (addr.val / 32) :=
      State.progress_handle ..
    change ∃ t, execHandleEntryStore core prep addr v s = _ ∧ _
    unfold execHandleEntryStore
    rw [hpart]
    dsimp only
    rw [if_neg (by simp [halign, hopen]), if_neg (by omega), if_neg (by omega), State.handleBusy_progress, hfree, if_neg (by decide),
      hhandle, hkept _ rfl]
    simp only [Bool.false_and, Bool.false_eq_true, if_false]
    refine ⟨_, rfl, ?_, fun n hn => ?_, rfl, rfl, rfl, rfl⟩
    · rw [State.core_modCore_self]
      exact kgetD_kset_self ..
    · rw [State.core_modCore_self]
      refine (kgetD_kset_ne _ _ _ hn).trans ?_
      exact State.progress_handle ..
  case busy =>
    intro s core prep addr v part hpart halign hopen hlo hhi hbusy
    have hexec : exec (.handleEntryStore core prep addr v) s = .next ((s.progress core (112 + prep)).logEvent 0x8003 0 0x06
        (core * 4 + prep) [(8, core), (8, (addr.val / 32 : Nat))]) := by
      change execHandleEntryStore core prep addr v s = _
      unfold execHandleEntryStore
      rw [hpart]
      dsimp only
      rw [if_neg (by simp [halign, hopen]), if_neg (by omega), if_neg (by omega), State.handleBusy_progress, if_pos hbusy]
    exact ⟨_, _, hexec, fun c => s.progress_handles .., rfl, rfl, rfl⟩
  case narrow =>
    intro s core prep line word v ecc hopen
    have hexec : exec (.narrowViewAccess core prep line word (some v) ecc) s = .next (s.modCore core (fun k =>
        { k with bore := wrBytes k.bore (line.val * 64 + word.val * 8) (toLe 8 v.toNat) })) :=
      congrArg Host.Outcome.next (if_neg (by simp [hopen]))
    refine ⟨_, hexec, fun a hlo hhi => ?_, fun a hout => ?_, fun c hc => State.core_modCore_ne _ _ hc, rfl, rfl, rfl, rfl⟩
    · rw [State.core_modCore_self]
      obtain ⟨i, rfl⟩ := Nat.exists_eq_add_of_le hlo
      have hi : i < (toLe 8 v.toNat).length := by
        rw [length_toLe]
        omega
      dsimp only
      rw [rdByte_wrBytes_in _ _ _ _ hi, getElem_toLe, Nat.add_sub_cancel_left]
    · rw [State.core_modCore_self]
      refine rdByte_wrBytes_out _ _ _ _ ?_
      rw [length_toLe]
      omega

/-- Settles O51. -/
theorem pagesAreFreedAndReleased : Obligations.PagesAreFreedAndReleased := by
  unfold Obligations.PagesAreFreedAndReleased
  refine ⟨?free, ?release, ?held⟩
  case free =>
    intro s core prep v part hpart hopen
    change ∃ t, execPageFree core prep v s = _ ∧ _
    unfold execPageFree
    rw [hpart]
    dsimp only
    rw [if_neg (by simp [hopen])]
    refine ⟨_, rfl, kgetD_kset_self .., kgetD_kset_self .., fun p hp => kgetD_kset_ne _ _ _ hp, rfl, fun c => ⟨?_, ?_⟩, rfl, rfl, rfl⟩
    · exact State.core_modCore_keeps (s := s) Core.bore core c (fun k => { k with progress := _ }) fun _ => rfl
    · exact s.progress_handles ..
  case release =>
    intro s p v e rest r hfreed hpart hwalk hempty howned
    change ∃ t, execPageRelease p s = _ ∧ _
    unfold execPageRelease
    rw [hfreed, hpart]
    dsimp only
    rw [hwalk]
    dsimp only
    rw [if_neg (by decide), if_neg (by simp [hempty])]
    have hlen : (toLe 8 v.toNat ++ toLe 8 (2 ^ 63 + e % 2 ^ 63)).length = 16 := by simp [length_toLe]
    have hserved : ∀ t : State, t.persist = s.persist → t.hbmWriteAs p (r.releaseRing + 16 * kgetD s.mem.releaseWr p 0)
        (toLe 8 v.toNat ++ toLe 8 (2 ^ 63 + e % 2 ^ 63)) false = t.hbmWrite (r.releaseRing + 16 * kgetD s.mem.releaseWr p 0)
          (toLe 8 v.toNat ++ toLe 8 (2 ^ 63 + e % 2 ^ 63)) false := by
      intro t ht
      have hown : t.ownedBy p (r.releaseRing + 16 * kgetD s.mem.releaseWr p 0) 16 = true := by
        unfold State.ownedBy State.hbmOwner at howned ⊢
        rw [ht]
        exact howned
      unfold State.hbmWriteAs
      rw [hlen, hown]
      rfl
    rw [hserved]
    · refine ⟨_, rfl, ?_, kgetD_kset_self .., rfl, rfl, rfl, rfl, rfl⟩
      change kgetD (if rest = [] then _ else _) p [] = rest
      split
      · next h =>
        rw [h]
        unfold kgetD
        rw [kget?_kdel_self]
        rfl
      · exact kgetD_kset_self ..
    · rfl
  case held =>
    intro s p v e n rest hfreed hwalk hle
    change execPageRelease p s = _
    unfold execPageRelease
    rw [hfreed]
    cases kget? s.persist.parts p with
    | none => rfl
    | some r =>
      dsimp only
      rw [hwalk]
      exact congrArg Host.Outcome.next (if_pos (decide_eq_true hle))

end Sys2Proof.Machine

/-! PROOFS. Link requests, walks and context slots (R418, R436, R448, R449, R624 to R626, R708). -/

namespace Sys2Proof.Machine
open Sys2Proof.Safety

/-- A write that the owner check passes is a write. -/
theorem State.hbmWriteAs_owned {s : State} {owner a n : Nat} {bs : List Byte} (hlen : bs.length = n) (hown : s.ownedBy owner a n = true) :
    s.hbmWriteAs owner a bs false = s.hbmWrite a bs false := by
  unfold State.hbmWriteAs
  rw [hlen, hown]
  rfl

theorem State.ownedBy_congr {s t : State} (h : s.persist = t.persist) (owner a n : Nat) : s.ownedBy owner a n = t.ownedBy owner a n := by
  unfold State.ownedBy State.hbmOwner
  rw [h]

/-- An event logged is held. -/
theorem State.logEvent_event (s : State) (a b c d : Nat) (l : List (Nat × Int)) :
    ∃ e ∈ (s.logEvent a b c d l).recov.heldEvents, e.event = BitVec.ofNat 16 a := by
  obtain ⟨e, hheld, hevent, -⟩ := s.logEvent_heldEvents a b c d l
  exact ⟨e, hheld ▸ List.mem_append_right _ (List.mem_singleton_self e), hevent⟩

/-- Writes as an owner drop no event. -/
theorem State.foldl_hbmWriteAs_events {β : Type} {owner : Nat} {place : β → Nat} {bytes : β → List Byte} {p : Bool} {l : List β} {s : State} {e : EventRec}
    (h : e ∈ s.recov.heldEvents) : e ∈ (l.foldl (fun t x => t.hbmWriteAs owner (place x) (bytes x) p) s).recov.heldEvents := by
  induction l generalizing s with
  | nil => exact h
  | cons x l ih =>
    refine ih ?_
    dsimp only
    unfold State.hbmWriteAs
    split
    · exact List.mem_append_left _ h
    · unfold State.hbmStore
      dsimp only
      split <;> exact h

/-- Settles O52. -/
theorem linkRequestsAreTakenAndEnd : Obligations.LinkRequestsAreTakenAndEnd := by
  unfold Obligations.LinkRequestsAreTakenAndEnd
  refine ⟨?taken, ?complete, ?timeout⟩
  case taken =>
    intro s core prep tail part r hpart hrec hopen hroom
    change ∃ u : State, execLinkRequest core prep tail s = _ ∧ _
    unfold execLinkRequest
    rw [hpart]
    dsimp only
    rw [hrec]
    dsimp only
    rw [if_neg (by simp [hopen]), if_neg (by omega)]
    exact ⟨_, rfl, rfl, kgetD_kset_self ..⟩
  case complete =>
    intro s p rec_ r hpart hfirst hown
    change ∃ t, execLinkRequestComplete p s = _ ∧ _
    unfold execLinkRequestComplete
    rw [hpart, hfirst]
    dsimp only
    generalize hu : ({ s with svc := { s.svc with linkReqs := s.svc.linkReqs.filter (fun q => !(q.part == r.part && q.idx == r.idx)) } } : State) = u
    rw [State.hbmWriteAs_owned (length_toLe ..) (by rw [← hu]; exact hown), ← hu]
    have hadd : ∀ t : State, ∃ cores, (if t.semOwned p (lrSemCore r.word.toNat) (lrSemIdx r.word.toNat) = true then
        t.semSend (lrSemCore r.word.toNat) (lrSemIdx r.word.toNat) (.add (BitVec.ofNat 32 (lrSemVal r.word.toNat))) else t)
          = { t with cores := cores } := by
      intro t
      split <;> exact ⟨_, rfl⟩
    have hcount : ∀ t : State, ∃ stats, (if lrOp r.word.toNat = 0 ∧ lrTc r.word.toNat = 2 ∧ r.code = 0 then t.kvCount p 2 else t)
        = { t with mem := { t.mem with kvStats := stats } } := by
      intro t
      split <;> exact ⟨_, rfl⟩
    refine ⟨_, rfl, ?_⟩
    obtain ⟨cores, hcores⟩ := hadd (if lrOp r.word.toNat = 0 ∧ lrTc r.word.toNat = 2 ∧ r.code = 0 then _ else _)
    obtain ⟨stats, hstats⟩ := hcount (State.hbmWrite _ (rec_.linkRing + 32 * r.idx + 30) (toLe 2 r.code.toNat) false)
    rw [hcores, hstats]
    exact ⟨rfl, rfl, rfl, rfl, rfl, rfl⟩
  case timeout =>
    intro s link tag w hwait hlate
    change execLinkWriteAckTimeout link tag s = _
    unfold execLinkWriteAckTimeout
    rw [hwait]
    exact congrArg Host.Outcome.next (if_neg (by omega))

/-- Settles O53. -/
theorem walksAndContextSlots : Obligations.WalksAndContextSlots := by
  unfold Obligations.WalksAndContextSlots
  refine ⟨?asked, ?absent, ?timeout, ?swap, ?swapped, ?recreate⟩
  case asked =>
    intro s ctx core l c w q rest hwalk hrun hnew hpairs hpeer hwaits htags
    change execSpillPairRequest ctx s = _
    unfold execSpillPairRequest
    rw [hwalk]
    dsimp only
    rw [if_neg (by simp [hrun, hnew]), hpairs]
    dsimp only
    rw [hpeer]
    dsimp only
    rw [if_neg (by omega)]
  case absent =>
    intro s ctx core c w q rest hwalk hrun hnew hpairs hpeer hbit
    change execSpillPairRequest ctx s = _
    unfold execSpillPairRequest
    rw [hwalk]
    dsimp only
    rw [if_neg (by simp [hrun, hnew]), hpairs]
    dsimp only
    rw [hpeer]
    dsimp only
    rw [if_neg (by simp [hbit])]
  case timeout =>
    intro s ctx core t0 c w q rest hwalk hasked hpairs hlate
    change ∃ (u : State) (e : _), execSpillWalkTimeout ctx s = _ ∧ _
    unfold execSpillWalkTimeout
    rw [hwalk]
    dsimp only
    rw [hasked, hpairs]
    dsimp only
    rw [if_neg (by omega)]
    generalize ht : State.logEvent _ 0x3007 0 0x05 core _ = t
    obtain ⟨e, hheld, hevent⟩ : ∃ e ∈ t.recov.heldEvents, e.event = 0x3007 := by
      rw [← ht]
      exact State.logEvent_event ..
    refine ⟨_, e, rfl, ?_, hevent⟩
    simp only [State.markWalk_frame]
    split
    · exact hheld
    · exact State.foldl_hbmWriteAs_events hheld
  case swap =>
    intro s ctx i ct b t hctx hrun hrunnable hvictim ht
    subst ht
    change execContextSwapStart ctx s = _
    unfold execContextSwapStart
    rw [hctx]
    dsimp only
    rw [if_neg (by simp [hrun, hrunnable]), hvictim] <;> rfl
  case swapped =>
    intro s ctx i n ct hctx hswap
    change execContextSwapDone ctx s = _
    unfold execContextSwapDone
    rw [hctx]
    dsimp only
    rw [hswap]
  case recreate =>
    intro s init ct hctx hfw
    change execContextRecreate init s = _
    unfold execContextRecreate
    rw [hctx]
    exact congrArg Host.Outcome.next (if_neg (by simp [hfw]))

end Sys2Proof.Machine

/-! PROOFS. A channel's pieces (R347, R349, R354, R375, R380, R476, R514). -/

namespace Sys2Proof.Machine
open Sys2Proof.Safety

theorem State.chan_congr {s t : State} (h : s.cores = t.cores) (k n : Nat) : s.chan k n = t.chan k n := by
  unfold State.chan State.core
  rw [h]

/-- A piece written changes no channel. -/
theorem State.pieceWrite_chan (s : State) (core : Nat) (c : Channel) (q : Piece) (k n : Nat) :
    (s.pieceWrite core c q).chan k n = s.chan k n := by
  refine foldl_proj (fun t => t.chan k n) _ (fun t b => ?_) _ _
  unfold State.beatWrite
  dsimp only
  split
  · exact State.chan_congr (by simp) k n
  · refine congrArg (kgetD · n {}) (State.core_modCore_keeps Core.channels _ _ _ _ ?_)
    intro m
    rfl

/-- Tags freed change no channel. -/
theorem State.freeTags_chan (s : State) (core m k n : Nat) : (s.freeTags core m).chan k n = s.chan k n := by
  refine congrArg (kgetD · n {}) (State.core_modCore_keeps Core.channels _ _ _ _ ?_)
  intro m
  rfl

/-- Settles O54. -/
theorem channelPieces : Obligations.ChannelPieces := by
  unfold Obligations.ChannelPieces
  refine ⟨?issue, ?fenced, ?owed, ?written, ?timeout⟩
  case issue =>
    intro s core n errs hrun hstate hleft hopen
    change execChannelPieceIssue ⟨core, n⟩ errs s = _
    unfold execChannelPieceIssue
    dsimp only
    rw [if_neg (by simp [hrun]), if_neg (by simp [hstate]), if_neg (by simp [hstate, hleft]), if_neg (by simp [hopen])]
  case fenced =>
    intro s core n errs hrun hstate hleft hfenced
    change execChannelPieceIssue ⟨core, n⟩ errs s = _
    unfold execChannelPieceIssue
    dsimp only
    rw [if_neg (by simp [hrun]), if_neg (by simp [hstate]), if_neg (by simp [hstate, hleft]), if_pos hfenced]
  case owed =>
    intro s core n errs hrun hstate howed hopen
    change execChannelPieceIssue ⟨core, n⟩ errs s = _
    unfold execChannelPieceIssue
    dsimp only
    rw [if_neg (by simp [hrun]), if_pos hstate, if_neg (by simp [howed, hopen])]
  case written =>
    intro s core n piece q t hrun hstate hflight hopen hring hleft ht
    change execChannelPieceWritten core n piece s = _
    unfold execChannelPieceWritten
    dsimp only
    rw [if_neg (by simp [hrun, hstate]), hflight]
    dsimp only
    rw [if_neg (by simp [hopen]), ← ht, hring]
    have hstands : ∀ u : State, u.chan core n = s.chan core n → (u.chan core n).state ≠ .free := by
      intro u hu
      rw [hu, hstate]
      decide
    have hpiece := s.pieceWrite_chan core (s.chan core n) q core n
    have hchan : t.chan core n = { s.chan core n with flight := (s.chan core n).flight.eraseIdx piece } := by
      rw [ht, State.chan_modChan _ (hstands _ hpiece), hpiece]
    have hissued : ((if (t.chan core n).pieceOver q.pos then (t.freeTags core 1).modChan core n (fun c => { c with tags := c.tags - 1 })
        else t).chan core n).issued = (s.chan core n).issued := by
      split
      · rw [State.chan_modChan, State.freeTags_chan, hchan]
        rw [State.freeTags_chan, hchan]
        exact hstands s rfl
      · rw [hchan]
    have hplain : ∀ p : Prop, ¬(false = true ∧ p) := fun p h => absurd h.1 (by decide)
    rw [if_neg (hplain _)]
    refine congrArg (fun u => Host.Outcome.next (State.after s u core)) (if_neg ?_)
    rintro ⟨hend, -⟩
    rw [hissued] at hend
    omega
  case timeout =>
    intro s core n t0 hsince hstate hlate
    change execPoolBufferTimeout core n s = _
    unfold execPoolBufferTimeout
    dsimp only
    rw [hsince]
    dsimp only
    rw [if_neg (by rw [hstate]; simpa using hlate)]

end Sys2Proof.Machine

/-! PROOFS. HBM, the Windchest and the event log (R464 to R473, R498, R499, R631). -/

namespace Sys2Proof.Machine
open Sys2Proof.Safety

/-- An event that enters the log stands first, under the head, which advances; the log's floor alone is persistent. -/
theorem State.appendEvent_eq (s : State) (r : Recovery) (e : EventRec) : ∃ clotha persist, s.appendEvent r e = { s with
    recov := { r with log := ((r.eventHead, e) :: r.log).take logRecords, eventHead := r.eventHead + 1 }
    clotha := clotha
    persist := persist } := by
  unfold State.appendEvent
  dsimp only
  split <;> exact ⟨_, _, rfl⟩

/-- Settles O55. -/
theorem memoryAndEventLog : Obligations.MemoryAndEventLog := by
  unfold Obligations.MemoryAndEventLog
  refine ⟨?write, ?refused, ?poisoned, ?fill, ?scrub, ?event, ?late⟩
  case write =>
    intro s die src a bs poison ecc hplace hmay
    have hexec : exec (.hbmRequest die src a (.write bs poison) ecc) s = .next (s.hbmStore a.toNat bs poison) :=
      congrArg Host.Outcome.next (if_neg (by simp [hplace, hmay]))
    refine ⟨_, hexec, ?_⟩
    unfold State.hbmStore
    dsimp only
    split <;> exact ⟨rfl, rfl, rfl, rfl, rfl⟩
  case refused =>
    intro s die src a bs poison ecc hmay
    have hexec : exec (.hbmRequest die src a (.write bs poison) ecc) s = .next (s.rangeEvent (hbmOwnerOf src) a.toNat) :=
      congrArg Host.Outcome.next (if_pos (by simp [hmay]))
    exact ⟨_, _, hexec, rfl, rfl, rfl, rfl, rfl, rfl, rfl, rfl⟩
  case poisoned =>
    intro s die src a n hplace hmay hmiss
    obtain ⟨sets, misses, stats, hwc⟩ := s.wcReads_eq a.toNat n
    have hexec : exec (.hbmRequest die src a (.read n) .uncorrectable) s = .next ((s.wcReads a.toNat n).hbmChecked a.toNat .uncorrectable) :=
      congrArg Host.Outcome.next ((if_neg (by simp [hplace, hmay])).trans (if_neg (by simp [hmiss])))
    refine ⟨_, hexec, ?_⟩
    rw [hwc]
    exact ⟨rfl, mem_nins_self .., rfl, rfl, rfl, rfl⟩
  case fill =>
    intro s slice m rest w hmiss hway
    change ∃ t, execWindchestFill slice s = _ ∧ _
    unfold execWindchestFill
    rw [hmiss]
    dsimp only
    rw [hway]
    refine ⟨_, rfl, ?_, kgetD_kset_self .., rfl, rfl, rfl, rfl, rfl⟩
    change kgetD (if rest = [] then _ else _) slice [] = rest
    split
    · next h =>
      rw [h]
      unfold kgetD
      rw [kget?_kdel_self]
      rfl
    · exact kgetD_kset_self ..
  case scrub =>
    intro s stack hup
    change ∃ t, execScrubStep stack .clean s = _ ∧ _
    unfold execScrubStep
    rw [if_neg (by simp [hup])]
    refine ⟨_, rfl, ?_⟩
    by_cases hlast : stackLines ≤ kgetD s.mem.scrub stack 0 + 1
    · simp only [hlast, decide_true, if_true]
      exact ⟨rfl, rfl, kgetD_kset_self .., rfl, rfl, rfl, rfl, rfl⟩
    · simp only [hlast, decide_false, Bool.false_eq_true, if_false]
      exact ⟨rfl, rfl, kgetD_kset_self .., rfl, rfl, rfl, rfl, rfl⟩
  case event =>
    intro s e hup hearly hnext
    have honTime : ∀ x ∈ s.recov.errors, decide (x.time + 2000 < s.now) = false := fun x hx =>
      decide_eq_false (Nat.not_lt.mpr (hearly x hx))
    have hnone : s.recov.errors.filter (fun e => decide (e.time + 2000 < s.now)) = [] := by
      rw [List.filter_eq_nil_iff]
      intro x hx
      rw [honTime x hx]
      decide
    have hall : s.recov.errors.filter (fun e => !decide (e.time + 2000 < s.now)) = s.recov.errors := by
      rw [List.filter_eq_self]
      intro x hx
      rw [honTime x hx]
      rfl
    change ∃ t, execEventLogCommit s = _ ∧ _
    unfold execEventLogCommit
    dsimp only
    rw [if_neg (by simp [hup]), hnone, hall, hnext]
    dsimp only
    refine ⟨_, rfl, ?_⟩
    obtain ⟨clotha, persist, happend⟩ := State.appendEvent_eq
      ({ s with recov := { s.recov with heldEvents := s.recov.heldEvents ++ s.recov.errors, errors := [] } } : State)
      { s.recov with heldEvents := (s.recov.heldEvents ++ s.recov.errors).erase e, errors := [] } e
    rw [List.foldl_nil, happend]
    exact ⟨rfl, rfl, rfl, rfl, rfl, rfl, rfl, rfl⟩
  case late =>
    intro s x hup herrors hlate hnone
    have hall : [x].filter (fun e => decide (e.time + 2000 < s.now)) = [x] :=
      List.filter_eq_self.mpr fun y hy => by
        rw [List.mem_singleton.mp hy]
        exact decide_eq_true hlate
    have hrest : [x].filter (fun e => !decide (e.time + 2000 < s.now)) = [] :=
      List.filter_eq_nil_iff.mpr fun y hy => by
        rw [List.mem_singleton.mp hy, decide_eq_true hlate]
        decide
    change ∃ t, execEventLogCommit s = _ ∧ _
    unfold execEventLogCommit
    dsimp only
    rw [if_neg (by simp [hup]), herrors, hall, hrest, List.append_nil, hnone]
    dsimp only
    refine ⟨_, rfl, ?_⟩
    obtain ⟨clotha, persist, happend⟩ := State.appendEvent_eq ({ s with recov := { s.recov with errors := [] } } : State)
      { s.recov with errors := [] } { x with late := true }
    rw [List.foldl_cons, List.foldl_nil, happend]
    exact ⟨rfl, rfl, rfl, rfl, rfl, rfl, rfl, rfl⟩

end Sys2Proof.Machine

/-! PROOFS. The recovery sequence (R79, R502, R512 to R527). -/

namespace Sys2Proof.Machine
open Sys2Proof.Safety

theorem State.core_modSeq_self (s : State) (c : Nat) (f : Sequencer → Sequencer) :
    (s.modSeq c f).core c = { s.core c with seqr := f (s.core c).seqr } := State.core_modCore_self ..

theorem State.core_modSeq_ne (s : State) {c d : Nat} (f : Sequencer → Sequencer) (h : d ≠ c) : (s.modSeq c f).core d = s.core d :=
  State.core_modCore_ne _ _ h

/-- A sequencer whose crash-dump sample has ended. -/
def Sequencer.sampled (q : Sequencer) : Sequencer := { q with unread := [] }

/-- The end of a crash-dump sample changes of the cores at most its own core's parts unread. -/
theorem State.endSample_cores (s : State) (c : Nat) : (s.endSample c).cores = s.cores
    ∨ (s.endSample c).cores = (s.modSeq c Sequencer.sampled).cores := by
  unfold State.endSample
  dsimp only
  split
  · exact .inl rfl
  · split
    · exact .inl rfl
    · exact .inr rfl

theorem State.core_endSample_keeps {α : Type} (p : Core → α) (s : State) (c d : Nat) (h : ∀ k q, p { k with seqr := q } = p k) :
    p ((s.endSample c).core d) = p (s.core d) := by
  rcases s.endSample_cores c with hs | hs
  · rw [State.core_congr hs]
  · rw [State.core_congr hs]
    exact State.core_modCore_keeps p s c d _ fun k => h k _

theorem State.core_endSample_ne (s : State) {c d : Nat} (h : d ≠ c) : (s.endSample c).core d = s.core d := by
  rcases s.endSample_cores c with hs | hs
  · exact State.core_congr hs d
  · exact (State.core_congr hs d).trans (s.core_modSeq_ne _ h)

theorem State.seqr_endSample (s : State) (c : Nat) : ∃ unread, ((s.endSample c).core c).seqr = { (s.core c).seqr with unread := unread } := by
  rcases s.endSample_cores c with hs | hs
  · exact ⟨_, congrArg Core.seqr (State.core_congr hs c)⟩
  · refine ⟨[], ?_⟩
    rw [State.core_congr hs, State.core_modSeq_self]
    rfl

/-- The end of every core's crash-dump sample leaves memory, what persists and the first errors. -/
theorem State.endSamples_frame (s : State) (l : List Nat) : (l.foldl State.endSample s).mem = s.mem
    ∧ (l.foldl State.endSample s).persist = s.persist ∧ (l.foldl State.endSample s).recov.first = s.recov.first := by
  refine ⟨foldl_proj State.mem _ (by simp) _ _, foldl_proj State.persist _ (by simp) _ _, foldl_proj (fun t => t.recov.first) _ ?_ _ _⟩
  intro t c
  unfold State.endSample
  dsimp only
  split
  · rfl
  · split <;> rfl

/-- A hang that resets the module leaves HBM's bytes and the first errors, and counts the reset. -/
theorem State.declareModule_reset (s : State) (cause : Nat) : (s.declareModule cause).aon.phase = .internalReset
    ∧ (s.declareModule cause).aon.boot = .rom ∧ (s.declareModule cause).streams.ctx = [] ∧ (s.declareModule cause).cores = []
    ∧ (s.declareModule cause).mem.hbm = s.mem.hbm ∧ (s.declareModule cause).persist.moduleResets = s.persist.moduleResets + 1
    ∧ (s.declareModule cause).recov.first = s.recov.first := by
  obtain ⟨hmem, hpersist, hfirst⟩ := s.endSamples_frame (List.range 8)
  refine ⟨rfl, rfl, rfl, rfl, ?_, ?_, ?_⟩
  · rw [← hmem]
    rfl
  · rw [← hpersist]
    rfl
  · rw [← hfirst]
    rfl

/-- A reset core. -/
theorem State.core_resetCore (s : State) (c : Nat) : ∃ q : Sequencer, (s.resetCore c).core c = { ((s.endSample c).core c).afterReset with seqr := q }
    ∧ q.state = .resetting ∧ q.resetAt = s.now ∧ q.resets = (s.core c).seqr.resets + b2n !(s.core c).seqr.byDie := by
  obtain ⟨unread, hseqr⟩ := s.seqr_endSample c
  refine ⟨_, State.core_modCore_self .., rfl, rfl, ?_⟩
  rw [hseqr]

theorem State.core_resetCore_ne (s : State) {c d : Nat} (h : d ≠ c) : (s.resetCore c).core d = s.core d :=
  (State.core_modCore_ne _ _ h).trans (s.core_endSample_ne h)

/-- What is read under a key of a map whose values have changed. -/
theorem kget?_map {α : Type} (m : KMap α) (f : α → α) (i : Nat) : kget? (m.map fun q => (q.1, f q.2)) i = (kget? m i).map f := by
  induction m with
  | nil => rfl
  | cons q m ih =>
    obtain ⟨k, a⟩ := q
    rw [List.map_cons]
    unfold kget?
    split
    · rfl
    · exact ih

/-- A core whose outstanding reads the fence has ended. -/
def Core.readsEnded (k : Core) : Core :=
  { k with
    cmds := k.cmds.map (fun m => { m with walk := none })
    fencedReads := k.fencedReads + k.outstanding, tags := 0
    engines := k.engines.map (fun g => (g.1, { g.2 with bell := { g.2.bell with extReads := [] } }))
    channels := k.channels.map (fun c => (c.1, { c.2 with flight := [], tags := 0 })) }

/-- A stream after the latency-critical service of a core resumes. -/
def StreamCtx.serviceResumed (x : StreamCtx) (core end_ headroom : Nat) : StreamCtx :=
  if x.core = core ∧ x.be = false then
    { x with clearanceEnd := some (end_ + cdiv (x.reserve * 1024) headroom), clearedAt := none }
  else x

/-- Settles O56. -/
theorem recoverySequence : Obligations.RecoverySequence := by
  unfold Obligations.RecoverySequence
  refine ⟨?declare, ?escalate, ?part, ?reads, ?drain, ?reset, ?resume, ?dieDrain, ?dieReset, ?dieResume, ?service, ?clearance, ?late, ?dieLate⟩
  case declare =>
    intro s core u b hup hrun hsince hpending hlate
    refine ⟨_, ?_, rfl⟩
    change execHangDetected core u s = _
    unfold execHangDetected
    dsimp only
    rw [hsince]
    dsimp only
    rw [if_neg (by simp [hup, hpending]; exact hlate), if_neg (by simp [hrun])]
  case escalate =>
    intro s core u b hup hrun hsince hpending hlate
    change execHangDetected core u s = _
    unfold execHangDetected
    dsimp only
    rw [hsince]
    dsimp only
    rw [if_neg (by simp [hup, hpending]; exact hlate), if_pos hrun]
  case part =>
    intro s core part i hdump hunread hearly
    change ∃ t, execDumpPartTimeout core part s = _ ∧ _
    unfold execDumpPartTimeout
    dsimp only
    rw [hdump]
    dsimp only
    rw [if_neg (by simp [hunread]; exact hearly)]
    generalize hu : (s.modDump i _).modSeq core _ = u
    have hcores : ∀ (b : Prop) [Decidable b] (f : Dump → Dump), (if b then u.modDump i f else u).cores = u.cores := by
      intro b _ f
      split <;> rfl
    refine ⟨_, rfl, ?_, fun c hc => ?_, ?_⟩
    · rw [State.core_congr (hcores ..), ← hu, State.core_modSeq_self]
    · rw [State.core_congr (hcores ..), ← hu, State.core_modSeq_ne _ _ hc]
      rfl
    · rw [← hu]
      split <;> exact ⟨rfl, rfl, rfl, rfl⟩
  case reads =>
    intro s core hstate hlate
    change ∃ t, execFenceReadExpiry core s = _ ∧ _
    unfold execFenceReadExpiry
    dsimp only
    rw [if_neg (by simp [hstate]; exact hlate)]
    generalize hu : State.modCore s core _ = u
    have hcore : u.core core = (s.core core).readsEnded := by
      rw [← hu]
      exact State.core_modCore_self ..
    refine ⟨_, rfl, ?_, ?_, ?_, ?_, ?_, ?_⟩
    · rw [State.core_endSample_keeps Core.tags _ _ _ fun _ _ => rfl, hcore]
      rfl
    · rw [State.core_endSample_keeps Core.fencedReads _ _ _ fun _ _ => rfl, hcore]
      rfl
    · rw [State.core_endSample_keeps Core.cmds _ _ _ fun _ _ => rfl, hcore]
      intro m hm
      obtain ⟨m', -, rfl⟩ := List.mem_map.mp hm
      rfl
    · rw [State.core_endSample_keeps Core.channels _ _ _ fun _ _ => rfl, hcore]
      intro q hq
      obtain ⟨q', -, rfl⟩ := List.mem_map.mp hq
      rfl
    · rw [State.core_endSample_keeps Core.engines _ _ _ fun _ _ => rfl, hcore]
      intro q hq
      obtain ⟨q', -, rfl⟩ := List.mem_map.mp hq
      rfl
    · rw [← hu]
      simp
  case drain =>
    intro s c hstate halone hnone hearly
    change ∃ t, execFenceDrainComplete (.core c) s = _ ∧ _
    unfold execFenceDrainComplete
    dsimp only
    rw [if_neg (by simp [hstate, halone, hnone]), if_neg (by omega)]
    obtain ⟨q, hcore, hq, hat, hresets⟩ := s.core_resetCore c
    refine ⟨_, rfl, ?_, ?_, ?_, ?_, ?_, ?_, ?_, fun d hd => s.core_resetCore_ne hd, ?_⟩
    · rw [hcore]
      exact hq
    · rw [hcore]
      exact hat
    · rw [hcore, hresets, halone]
      rfl
    · rw [hcore]
      rfl
    · rw [hcore]
      rfl
    · rw [hcore]
      exact State.core_endSample_keeps Core.shadow s c c fun _ _ => rfl
    · rw [hcore]
      exact State.core_endSample_keeps Core.cmds s c c fun _ _ => rfl
    · simp [State.resetCore]
  case reset =>
    intro s c hstate halone hearly
    change execComputeResetDone (.core c) s = _
    unfold execComputeResetDone
    dsimp only
    rw [if_neg (by simp [hstate, halone]), if_neg (by omega)]
  case resume =>
    intro s c hstate halone hearly
    change execResume (.core c) s = _
    unfold execResume
    dsimp only
    rw [if_neg (by simp [hstate, halone]), if_neg (by omega)]
  case dieDrain =>
    intro s d hstate hquiet
    refine congrArg Host.Outcome.next (if_neg ?_)
    rintro (h | ⟨hbusy, hearly⟩)
    · rw [hstate] at h
      exact absurd h (by decide)
    · rcases hquiet with hnone | hlate
      · obtain ⟨c, hc, hout⟩ := List.any_eq_true.mp hbusy
        rw [hnone c hc] at hout
        exact absurd hout (by decide)
      · omega
  case dieReset =>
    intro s d hstate
    exact congrArg Host.Outcome.next (if_neg (by simp [hstate]))
  case dieResume =>
    intro s d hstate
    exact congrArg Host.Outcome.next (if_neg (by simp [hstate]))
  case service =>
    intro s c at_ hat hlate
    change ∃ t, execLcServiceResume c s = _ ∧ _
    unfold execLcServiceResume
    rw [hat]
    dsimp only
    rw [if_neg (by omega)]
    refine ⟨_, rfl, ?_, fun i x hx => ?_, rfl, rfl, rfl⟩
    · refine congrArg (fun k : Core => k.seqr.serviceAt) ((State.core_congr ?_ c).trans (s.core_modSeq_self c (fun q => { q with serviceAt := none })))
      rfl
    · have hmap : ∀ q : Nat × StreamCtx, (if (q.2.core == c.val && !q.2.be) = true then (q.1, { q.2 with
          clearanceEnd := some (at_ + cdiv (q.2.reserve * 1024) (Nat.max 1 s.persist.headroom)), clearedAt := none }) else q)
          = (q.1, q.2.serviceResumed c at_ (Nat.max 1 s.persist.headroom)) := by
        intro q
        unfold StreamCtx.serviceResumed
        split
        · next h => rw [if_pos (by simpa using h)]
        · next h => rw [if_neg (by simpa using h)]
      have hctx : kget? (s.streams.ctx.map fun q => (q.1, q.2.serviceResumed c at_ (Nat.max 1 s.persist.headroom))) i
          = some (x.serviceResumed c at_ (Nat.max 1 s.persist.headroom)) := by
        rw [kget?_map s.streams.ctx (·.serviceResumed c at_ (Nat.max 1 s.persist.headroom)), show kget? s.streams.ctx i = some x from hx]
        rfl
      refine Eq.trans ?_ hctx
      exact congrArg (fun f => kget? (s.streams.ctx.map f) i) (funext hmap)
  case clearance =>
    intro s i x e hx hend hlate
    have hexec : exec (.clearanceIntervalEnd i) s = .next (s.modStream i (fun x => { x with clearanceEnd := none, clearedAt := some e })) := by
      change execClearanceIntervalEnd i s = _
      unfold execClearanceIntervalEnd
      rw [hx, Option.bind_some, hend]
      exact congrArg Host.Outcome.next (if_neg (by omega))
    refine ⟨_, hexec, ?_, fun j hj => State.stream?_modStream_ne _ _ hj, rfl, rfl, rfl⟩
    rw [State.stream?_modStream_self, hx]
    rfl
  case late =>
    intro s c u hstate halone hlate
    change execCoreResetTimeout c u s = _
    unfold execCoreResetTimeout
    dsimp only
    rw [if_neg (by simp [hstate, halone]; exact hlate)]
  case dieLate =>
    intro s d core u hstate hlate
    change ∃ t, execDieResetTimeout ⟨d, core, u⟩ s = _ ∧ _
    unfold execDieResetTimeout
    dsimp only
    rw [if_neg (by simp [hstate]; exact hlate)]
    obtain ⟨hphase, hboot, hctx, hcores, hhbm, hresets, hfirst⟩ := (((s.laterError (8 + d)).firstError 10 0x6003 0
      (unitSource (4 * d.val + core.val) u).1 (unitSource (4 * d.val + core.val) u).2)).declareModule_reset 2
    refine ⟨_, rfl, hphase, hboot, hctx, hcores, hhbm, hresets, ?_⟩
    rw [hfirst]
    refine (congrArg (Option.map _) (kget?_kset_self ..)).trans ?_
    rw [Option.map_some]
    cases u <;> rfl

end Sys2Proof.Machine

/-! PROOFS. Scale links (R321, R464, R614 to R624, R645, R646). -/

namespace Sys2Proof.Machine
open Sys2Proof.Safety

theorem Link.settleEpoch_frame (k : Link) : k.settleEpoch.epoch = k.epoch ∧ k.settleEpoch.epochs = k.epochs
    ∧ k.settleEpoch.txCounter = k.txCounter ∧ k.settleEpoch.up = k.up := by
  unfold Link.settleEpoch
  split
  · exact ⟨rfl, rfl, rfl, rfl⟩
  · split <;> exact ⟨rfl, rfl, rfl, rfl⟩

/-- A link that goes down drops its traffic and waits, and trains from now. -/
theorem State.linkGoDown_link {s : State} {l : Nat} (code : Word16) (h : (s.link l).trained = true) : ∃ k : Link,
    (s.linkGoDown l code).link l = { k with
      up := false, trained := false, epoch := none, oldEpoch := none, txq := [], served := (0, 0), replay := [], replayed := 0, nakSent := false
      reqs := [], waits := [], owed := [0, 0, 0, 0, 0], trainSince := some s.now, counts := lbump k.counts 2 1 } := by
  unfold State.linkGoDown
  dsimp only
  rw [if_neg (by simp [h])]
  have hlogged : ∀ (b : Bool) (t : State) (p : Nat → StreamCtx → Bool) (d : List (Nat × Int)),
      (if b then (t.markCause 6 p).logEvent 0x9002 code.toNat 0x11 l d else t.markCause 6 p).link l = t.link l := by
    intro b t p d
    cases b <;> rfl
  rw [hlogged, State.link_modLink_self]
  exact ⟨_, rfl⟩

/-- Settles O57. -/
theorem linksTrainAndCarry : Obligations.LinksTrainAndCarry := by
  unfold Obligations.LinksTrainAndCarry
  refine ⟨?flit, ?bad, ?nak, ?down, ?up, ?absent, ?key, ?rekey⟩
  case flit =>
    intro s l f hlen htrained hcrc htype hseq
    change execLinkFlitReceive l f s = _
    unfold execLinkFlitReceive
    dsimp only
    rw [if_neg (by simp [hlen]), if_neg (by simp [htrained]), if_neg (by simp [hcrc]), if_pos htype, if_neg (by simp [hseq])]
  case bad =>
    intro s l f hlen htrained hcrc hfirst
    have hexec : exec (.linkFlitReceive l f) s = .next ((s.modLink l (fun k => { k with nakSent := true, counts := lbump k.counts 0 1 })).send
        (.linkNak l (((s.link l).rxSeq + 4095) % 4096))) := by
      change execLinkFlitReceive l f s = _
      unfold execLinkFlitReceive State.linkDiscard
      dsimp only
      rw [if_neg (by simp [hlen]), if_neg (by simp [htrained]), if_pos (by simp [hcrc]), if_neg (by simp [hfirst])]
      rfl
    refine ⟨_, hexec, ?_, ?_, rfl, rfl, rfl, rfl, rfl⟩
    · rw [State.link_send, State.link_modLink_self]
    · rw [State.link_send, State.link_modLink_self]
  case nak =>
    intro s l n htrained hempty
    change execLinkNak l n s = _
    unfold execLinkNak State.linkReplay
    dsimp only
    rw [if_neg (by simp [htrained]), if_pos hempty]
    rfl
  case down =>
    intro s l htrained
    refine ⟨_, rfl, ?_⟩
    obtain ⟨k, hlink⟩ := State.linkGoDown_link lnkSCALE_DOWN htrained
    rw [hlink]
    exact ⟨rfl, rfl, rfl, rfl, rfl, rfl, by simp⟩
  case up =>
    intro s l hfw henabled hdown hpeer
    change ∃ t, execLinkUp l s = _ ∧ _
    unfold execLinkUp
    dsimp only
    rw [if_neg (by simp [hfw, henabled, hdown]), if_neg (by rw [hpeer]; decide)]
    refine ⟨_, rfl, ?_⟩
    rw [State.link_send, State.link_modLink_self]
    exact ⟨rfl, rfl, rfl, rfl, rfl, rfl, rfl, rfl, rfl, rfl⟩
  case absent =>
    intro s l t0 hsince hdown hnew hlate
    change ∃ t, execLinkRetrainTimeout l s = _ ∧ _
    unfold execLinkRetrainTimeout
    dsimp only
    rw [hsince]
    dsimp only
    rw [if_neg (by rw [hdown, hnew]; simpa using hlate)]
    refine ⟨_, rfl, ?_⟩
    rw [State.link_logEvent, State.link_modLink_self]
    exact ⟨rfl, hdown, rfl, rfl, rfl, rfl⟩
  case key =>
    intro s l key serial ok htrained hdown hpeer
    change ∃ t, execLinkKeyExchange l key ok serial s = _ ∧ _
    unfold execLinkKeyExchange
    dsimp only
    rw [if_neg (by rw [htrained, hdown, hpeer]; decide)]
    by_cases hgood : ok = true ∧ key = kgetD s.persist.linkPeer l []
    · rw [if_pos hgood]
      refine ⟨_, rfl, ?_⟩
      rw [State.link_logEvent, State.link_modLink_self]
      exact ⟨⟨fun _ => hgood, fun _ => rfl⟩, fun _ => ⟨rfl, rfl⟩, rfl, rfl, rfl, rfl⟩
    · rw [if_neg hgood]
      refine ⟨_, rfl, ?_⟩
      rw [State.link_logEvent, State.link_modLink_self]
      dsimp only
      rw [hdown]
      exact ⟨⟨fun h => absurd h (by decide), fun h => absurd h hgood⟩, fun h => absurd h (by decide), rfl, rfl, rfl, rfl⟩
  case rekey =>
    intro s l hup
    change ∃ t, execLinkRekey l s = _ ∧ _
    unfold execLinkRekey
    rw [if_neg (by simp [hup])]
    refine ⟨_, rfl, ?_⟩
    rw [State.link_send, State.link_modLink_self]
    obtain ⟨hepoch, hepochs, hcounter, hkept⟩ := Link.settleEpoch_frame
      { s.link l with oldEpoch := (s.link l).epoch, epoch := some (s.link l).epochs, epochs := (s.link l).epochs + 1, txCounter := 0 }
    exact ⟨hepoch, hepochs, hcounter, hkept.trans hup, rfl, rfl, rfl, rfl, rfl⟩

/-- Settles O58. -/
theorem linkMessages : Obligations.LinkMessages := by
  unfold Obligations.LinkMessages
  refine ⟨?write, ?refused, ?read, ?response, ?forged⟩
  case write =>
    intro s u l m htag hmsg hop hin
    change execLinkWriteMessage l m s = _
    unfold execLinkWriteMessage
    dsimp only
    rw [if_neg (by simp [htag]), hmsg]
    dsimp only
    rw [if_neg (by simp [hop]), if_pos hin]
  case refused =>
    intro s u l m htag hmsg hop hout
    have hu : u.mem = s.mem ∧ u.persist = s.persist ∧ u.cores = s.cores := by
      unfold State.linkMsg? at hmsg
      split at hmsg
      · cases hmsg
      · cases hmsg
        simp
    obtain ⟨hmem, hpersist, hcores⟩ := hu
    change ∃ t, execLinkWriteMessage l m s = _ ∧ _
    unfold execLinkWriteMessage
    dsimp only
    rw [if_neg (by simp [htag]), hmsg]
    dsimp only
    rw [if_neg (by simp [hop]), if_neg (by simp [hout])]
    refine ⟨_, rfl, ?_, ?_, ?_⟩
    · simp [hmem]
    · simp [hpersist]
    · simp [hcores]
  case read =>
    intro s u l m htag hmsg hop hpos hmax hin
    change execLinkReadRequest l m s = _
    unfold execLinkReadRequest
    dsimp only
    rw [if_neg (by simp [htag]), hmsg]
    dsimp only
    rw [if_neg (by omega), if_pos hin]
  case response =>
    intro s u l m w htag hmsg hop hwait hctx
    change execLinkResponse l m s = _
    unfold execLinkResponse
    dsimp only
    rw [if_neg (by simp [htag]), hmsg]
    dsimp only
    rw [if_neg (by omega), hwait]
    dsimp only
    rw [if_neg (by omega), if_neg (by omega), if_pos hop, hctx]
    rfl
  case forged =>
    intro s l m htag hup
    have hunauth : s.linkUnauth l = s.linkGoDown l lnkAUTH := by
      unfold State.linkUnauth
      exact if_pos hup
    refine ⟨?_, ?_, ?_⟩
    · exact congrArg Host.Outcome.next ((if_pos (by simp [htag])).trans hunauth)
    · exact congrArg Host.Outcome.next ((if_pos (by simp [htag])).trans hunauth)
    · exact congrArg Host.Outcome.next ((if_pos (by simp [htag])).trans hunauth)

end Sys2Proof.Machine

/-! PROOFS. Module reset and boot (R527, R641, R661, R689, R694, R695). -/

namespace Sys2Proof.Machine
open Sys2Proof.Safety

theorem mem_nins_of_mem {m : NSet} {i j : Nat} (h : i ∈ m) : i ∈ nins m j := by
  induction m with
  | nil => simp at h
  | cons k m ih =>
    unfold nins
    split
    · exact List.mem_cons_of_mem _ h
    · split
      · exact h
      · rcases List.mem_cons.mp h with rfl | h
        · exact List.mem_cons_self
        · exact List.mem_cons_of_mem _ (ih h)

theorem mem_foldl_nins {l : List Nat} {m : NSet} {i : Nat} (h : i ∈ l ∨ i ∈ m) : i ∈ l.foldl nins m := by
  induction l generalizing m with
  | nil => simpa using h
  | cons k l ih =>
    refine ih ?_
    rcases h with h | h
    · rcases List.mem_cons.mp h with rfl | h
      · exact .inr (mem_nins_self ..)
      · exact .inl h
    · exact .inr (mem_nins_of_mem h)

/-- The first image of a list is taken where it can boot and passes. -/
theorem State.pickImage_first {s : State} {check : Nat → ImageCheck} {i : Nat} {l : List Nat} (hboot : s.persist.bootable i = true)
    (htest : s.persist.imageTest i (check i) = none) : s.pickImage check (i :: l) = (s, some i) := by
  unfold State.pickImage
  rw [if_neg (by simp [hboot]), htest]

/-- Firmware that starts on the values as they are, with no partition to recreate. -/
theorem State.bootFirmware_values {s : State} {check : Nat → ImageCheck} {slot : Nat} (hparts : s.persist.parts = [])
    (hfirst : s.bootOrder.head? = some slot) (hboot : s.persist.bootable slot = true) (htest : s.persist.imageTest slot (check slot) = none) :
    s.bootFirmware check true [] = ((s.restoreValues true).streams.lost.foldl (fun t i => t.logFw 0x2007 0 [(16, (i : Nat))])
      (s.restoreValues true).shutdownEvent.startLinks).firmwareUp slot := by
  obtain ⟨rest, hrest⟩ : ∃ l, s.bootOrder = slot :: l := by
    cases horder : s.bootOrder with
    | nil =>
      rw [horder] at hfirst
      cases hfirst
    | cons i l =>
      rw [horder, List.head?_cons] at hfirst
      cases hfirst
      exact ⟨l, rfl⟩
  have hnone : (s.restoreValues true).persist.parts = [] := hparts
  unfold State.bootFirmware
  rw [hrest, State.pickImage_first hboot htest]
  dsimp only
  rw [hnone]
  unfold State.recreateParts
  dsimp only

/-- Settles O60. -/
theorem resetAndBoot : Obligations.ResetAndBoot := by
  unfold Obligations.ResetAndBoot
  refine ⟨?assert, ?release, ?loss, ?rom, ?training, ?restart, ?start, ?ready⟩
  case assert =>
    intro s hphase
    refine ⟨_, congrArg Host.Outcome.next (if_pos hphase), rfl, rfl, rfl, rfl, rfl, rfl, rfl, rfl, fun q hq => ?_, rfl⟩
    exact mem_foldl_nins (.inl (List.mem_map.mpr ⟨q, hq, rfl⟩))
  case release =>
    intro s straps hphase
    exact ⟨_, congrArg Host.Outcome.next ((if_neg (by rw [hphase]; decide)).trans (if_pos hphase)), rfl, rfl, rfl, rfl, rfl, rfl, rfl, rfl⟩
  case loss =>
    intro s
    refine ⟨_, rfl, rfl, rfl, rfl, rfl, rfl, fun h => ?_, fun h => ?_⟩
    · dsimp only
      rw [h]
    · dsimp only
      split
      · next hnone => exact absurd hnone h
      · rfl
  case rom =>
    intro s c0 c1 hrom hboot htest
    change ∃ t, execBootRomCheck c0 c1 s = _ ∧ _
    unfold execBootRomCheck
    rw [if_neg (by simp [hrom])]
    dsimp only
    rw [State.pickImage_first hboot htest]
    exact ⟨_, rfl, rfl, rfl, rfl, rfl, rfl, rfl, rfl⟩
  case training => exact fun s ok hboot => congrArg Host.Outcome.next (if_pos hboot)
  case restart =>
    intro s c2 c3 j l slot hup hready hactivating hslot
    change execServiceFirmwareStart c2 c3 j l s = _
    unfold execServiceFirmwareStart
    rw [if_neg (by simp [hup, hready]), hactivating, hslot]
  case start =>
    intro s c2 c3 slot hup hready hactivating hslot hstraps hparts hfirst hboot htest
    have hexec : exec (.serviceFirmwareStart c2 c3 true []) s = .next (s.bootFirmware (fun i => if i = 2 then c2 else c3) true []) := by
      change execServiceFirmwareStart c2 c3 true [] s = _
      unfold execServiceFirmwareStart
      rw [if_neg (by simp [hup, hready]), hactivating, hslot]
      exact congrArg Host.Outcome.next (if_neg hstraps)
    rw [State.bootFirmware_values hparts hfirst hboot htest] at hexec
    refine ⟨_, hexec, rfl, rfl, rfl, ?_, ?_, ?_⟩
    · refine (foldl_proj State.persist _ ?_ _ _).trans ?_
      · exact fun _ _ => rfl
      · simp [State.restoreValues]
    · refine (foldl_proj State.flash _ ?_ _ _).trans ?_
      · exact fun _ _ => rfl
      · simp
    · refine (foldl_proj State.mem _ ?_ _ _).trans ?_
      · exact fun _ _ => rfl
      · simp
  case ready => exact fun s hready hboot => congrArg Host.Outcome.next (if_pos ⟨hready, hboot⟩)

end Sys2Proof.Machine

/-! PROOFS. STREAM_OPEN is no step of the opened stream alone in every state: admission weighs the package that it selects, the
overload check the package that stands under the slot's number, and a table that lists two packages under one number makes them
differ (R54, R62, R81). -/

namespace Sys2Proof.Machine
open Sys2Proof.Safety

/-- A package that needs no engine cycles. -/
def lightPackage : Package := { heavyPackage with tables := heavyPackage.tables.map (fun t => { t with e := [] }) }

/-- A latency-critical stream of core 0 with one open chunk, and `heavyPackage` and `lightPackage` under one slot number. -/
def twoPackagesState : State :=
  { time := { state := 2 }
    persist := { parts := [(0, { cores := 1, tenant := 0, quota := [4, 0], ways := [2, 0], prepPerCore := 1, ctxPerCore := 16, createdNs := 0, releaseRing := 0, linkRing := 0 })]
                 extents := [(0, 0)] }
    streams := { ctx := [(1, { modelSlot := 5, reserve := 1000000, chunks := [{ idx := 0, accept := 0, deadline := 0, flags := 0 }] })] }
    svc := { models := [(0, { state := 2, modelId := 1, part := 0, die := 0, bytes := 0, pkg := some heavyPackage }),
      (0, { state := 2, modelId := 0, part := 0, die := 0, bytes := 0, pkg := some lightPackage })] } }

/-- The write that opens a latency-critical stream of the light package. -/
def openEntry : Entry :=
  { index := 0x2000, sub := 1, typ := 13, value := toLe 64 (10000000 * 2 ^ 64 + 1000000 * 2 ^ 96 + 1000000 * 2 ^ 128 + 5004 * 2 ^ 224) }

/-- Where admission places it. -/
def openPlacement : Placement := { core := 0, fallback := false, slack := 8933000, slot := 0, spillOk := false }

theorem openEntry_taken : TakesAction (twoPackagesState.asked openEntry) 0x2000 1 (operatorWrite openEntry)
    { role := 1, tenant := 0 } openEntry (twoPackagesState.unasked openEntry) := by
  refine ⟨⟨rfl, [], ?_, rfl, ?_⟩, ?_, ?_, ?_⟩
  · decide +kernel
  · decide +kernel
  · decide +kernel
  · decide +kernel
  · exact entry_fits (by decide +kernel)

theorem openEntry_admitted : (twoPackagesState.unasked openEntry).openTests { role := 1, tenant := 0 } openEntry.value = none
    ∧ (twoPackagesState.unasked openEntry).admission ((twoPackagesState.unasked openEntry).openReq openEntry.value) = .inr openPlacement := by
  constructor <;> decide +kernel

/-- What the stream of number `j` has on its open chunks. -/
def State.causesOf (s : State) (j : Nat) : Option (List (List Nat)) := (s.stream? j).map fun x => x.chunks.map Chunk.causes

/-- Answered, an opening leaves the streams as it made them. -/
theorem causesOf_of_answered {s u : State} {o : ActRes} {r : Req} {e : Entry} {j : Nat} (hu : u = answered o r e)
    (hother : u.stream? j = s.stream? j) : o.next.causesOf j = s.causesOf j := by
  have hstreams : u.streams = o.next.streams := by
    rw [hu]
    exact (answered_frame _ _ _).2.2.1
  unfold State.causesOf
  rw [← State.stream?_congr hstreams, hother]

/-- What the statement says of an opening into slot 0: the open chunks of stream 1 keep their causes. -/
theorem opening_keeps_causes (h : Obligations.StreamsOpenAndClose) {s t : State} {ch : OpenChoice} {r : Req} {c : Caller} {e : Entry}
    {x : Placement} (htakes : TakesAction s 0x2000 1 r c e t) (htests : t.openTests c e.value = none)
    (hadmitted : t.admission (t.openReq e.value) = .inr x) (hfree : t.stream? 0 = none)
    (hgranted : grantsOk (t.persist.extentsOf (t.openReq e.value).part) [t.ringGrant 0 (t.openCtx e.value x ch)] = true) :
    (t.openStream ch e.value).next.causesOf 1 = s.causesOf 1 := by
  obtain ⟨hopen, -⟩ := h
  obtain ⟨u, -, -, hother, -, -, hu⟩ := hopen s t ch r c e x 0 htakes htests hadmitted (by decide) hfree
    (fun j hj => absurd hj (Nat.not_lt_zero j)) hgranted
  have hsame := causesOf_of_answered hu (hother 1 (by decide))
  exact hsame

/-- The open chunk of the other stream has no cause before, and is marked with the overload after. -/
theorem openEntry_marks : (twoPackagesState.asked openEntry).causesOf 1 = some [[]] ∧
    ((twoPackagesState.unasked openEntry).openStream ⟨0, 0, 0, 0⟩ openEntry.value).next.causesOf 1 = some [[2]] := by
  constructor <;> decide +kernel

theorem openEntry_free : (twoPackagesState.unasked openEntry).stream? 0 = none ∧
    grantsOk ((twoPackagesState.unasked openEntry).persist.extentsOf ((twoPackagesState.unasked openEntry).openReq openEntry.value).part)
      [(twoPackagesState.unasked openEntry).ringGrant 0 ((twoPackagesState.unasked openEntry).openCtx openEntry.value openPlacement ⟨0, 0, 0, 0⟩)] = true := by
  constructor <;> decide +kernel

/-- Refutes O26: with two packages under one slot number the stream that is admitted with the one weighs what the other needs, so
opening it overloads its core and marks an open chunk of another stream. -/
theorem not_streamsOpenAndClose : ¬ Obligations.StreamsOpenAndClose := by
  intro h
  obtain ⟨htests, hadmitted⟩ := openEntry_admitted
  obtain ⟨hfree, hgranted⟩ := openEntry_free
  obtain ⟨hbefore, hafter⟩ := openEntry_marks
  have hsame := opening_keeps_causes h openEntry_taken htests hadmitted hfree hgranted
  have hmarked : some [[2]] = some [([] : List Nat)] := hafter.symm.trans (hsame.trans hbefore)
  exact absurd hmarked (by decide)

end Sys2Proof.Machine
